-- ==== Sys2Proof/Syntax.lean ====
section
/-! DEFINITION. The abstract syntax: one constructor for each row of spec/opcode_table.json.
A row with an encoding is an instruction word, its fields as the word holds them (R128, R129).
A row without one is an event of the machine; its arguments are what the event brings from outside
or the choice the manual leaves open (which access returns, what a sensor reads). -/
namespace Sys2Proof

inductive Instr where
  /-- BRA, R157: Relative branch taken in the lanes selected by the control nibble's guard and mode. -/
  | bra (c : BitVec 4) (o : BitVec 21)
  /-- CALL, R157: Relative call that pushes the return offset in each taking lane and branches. -/
  | call (c : BitVec 4) (o : BitVec 21)
  /-- KBRA, R158: Uniform branch decided once for the cohort on whether one of k0 to k7 is zero or nonzero. -/
  | kbra (s : BitVec 1) (k : BitVec 3) (o : BitVec 21)
  /-- BRX, R159: Each acting lane branches to KCODE plus the offset held in its register. -/
  | brx (a : BitVec 7) (r : BitVec 1) (g : BitVec 2)
  /-- CALLX, R159: Each acting lane pushes its return offset and branches to KCODE plus its register offset. -/
  | callx (a : BitVec 7) (r : BitVec 1) (g : BitVec 2)
  /-- RET, R160: Each acting lane pops its call stack and continues at the popped address. -/
  | ret (g : BitVec 2)
  /-- EXIT, R161: Acting lanes become exited; in a prologue the first EXIT ends the pass with its action code. -/
  | exit (g : BitVec 2)
  /-- NOP, R162: Moves the cohort to PC + 4 with no other effect. -/
  | nop
  /-- YIELD, R162: Moves the cohort on and sets each thread's yield mark so it gives way to unmarked threads. -/
  | yield
  /-- REGN, R163: Ends the idempotent region of every thread of the cohort. -/
  | regn
  /-- TRAP, R164: Raises the software trap with an 18-bit code and the following word as resume address. -/
  | trap (i : BitVec 18)
  /-- BRK, R164: Raises the breakpoint trap, stopping for the debugger when DBGEN is set. -/
  | brk (i : BitVec 18)
  /-- WAITC, R165: Holds the cohort until the selected outstanding counters are at or below their limits. -/
  | waitc (t l s c n : BitVec 4)
  /-- SPAWN, R167: Reads and checks a job card and posts it once to the own or a neighbour core's job queue. -/
  | spawn (a b : BitVec 7) (r : BitVec 1) (g : BitVec 2)
  /-- KADD, R169: Uniform 32-bit add. -/
  | kadd (d a b : BitVec 7) (r : BitVec 1)
  /-- KSUB, R169: Uniform 32-bit subtract. -/
  | ksub (d a b : BitVec 7) (r : BitVec 1)
  /-- KMUL24, R169: Uniform 24-bit multiply, signed or unsigned by m. -/
  | kmul24 (d a b : BitVec 7) (r m : BitVec 1)
  /-- KMUL32, R169: Uniform low 32 bits of a 32-bit product. -/
  | kmul32 (d a b : BitVec 7) (r : BitVec 1)
  /-- KAND, R169: Uniform bitwise AND. -/
  | kand (d a b : BitVec 7) (r : BitVec 1)
  /-- KOR, R169: Uniform bitwise OR. -/
  | kor (d a b : BitVec 7) (r : BitVec 1)
  /-- KXOR, R169: Uniform bitwise exclusive OR. -/
  | kxor (d a b : BitVec 7) (r : BitVec 1)
  /-- KSHL, R169: Uniform shift left. -/
  | kshl (d a b : BitVec 7) (r : BitVec 1)
  /-- KSHR, R169: Uniform logical shift right. -/
  | kshr (d a b : BitVec 7) (r : BitVec 1)
  /-- KSAR, R169: Uniform arithmetic shift right. -/
  | ksar (d a b : BitVec 7) (r : BitVec 1)
  /-- KMIN, R169: Uniform minimum, signed or unsigned by m. -/
  | kmin (d a b : BitVec 7) (r m : BitVec 1)
  /-- KMAX, R169: Uniform maximum, signed or unsigned by m. -/
  | kmax (d a b : BitVec 7) (r m : BitVec 1)
  /-- KSEL, R169: Uniform select of a or b on the old value of d. -/
  | ksel (d a b : BitVec 7) (r : BitVec 1)
  /-- KCMP, R169: Uniform compare writing 1 or 0, with the condition coded in g. -/
  | kcmp (d a b : BitVec 7) (r m : BitVec 1) (c : BitVec 2)
  /-- KLI, R170: Loads a sign-extended 18-bit immediate into a uniform register. -/
  | kli (d : BitVec 7) (i : BitVec 18)
  /-- KLIH, R170: Loads bits [31:18] of a uniform register, keeping its low 18 bits. -/
  | klih (d : BitVec 7) (i : BitVec 14)
  /-- VTOK, R171: Copies one lane's vector register value to a uniform register. -/
  | vtok (d a b : BitVec 7)
  /-- IADD, R175: Vector 32-bit add. -/
  | iadd (d a b : BitVec 7) (r : BitVec 1) (g : BitVec 2)
  /-- ISUB, R175: Vector 32-bit subtract. -/
  | isub (d a b : BitVec 7) (r : BitVec 1) (g : BitVec 2)
  /-- IADD64, R175: Vector 64-bit add on register pairs. -/
  | iadd64 (d a b : BitVec 7) (r : BitVec 1) (g : BitVec 2)
  /-- IMUL24, R175: Vector low 32 bits of a 24-bit product. -/
  | imul24 (d a b : BitVec 7) (r m : BitVec 1) (g : BitVec 2)
  /-- IMUL24H, R175: Vector bits [47:32] of a 24-bit product. -/
  | imul24h (d a b : BitVec 7) (r m : BitVec 1) (g : BitVec 2)
  /-- IMUL32, R175: Vector low 32 bits of a 32-bit product. -/
  | imul32 (d a b : BitVec 7) (r : BitVec 1) (g : BitVec 2)
  /-- IMULH, R175: Vector high 32 bits of a 64-bit product. -/
  | imulh (d a b : BitVec 7) (r m : BitVec 1) (g : BitVec 2)
  /-- IMAD24, R175: Vector 24-bit multiply added to d. -/
  | imad24 (d a b : BitVec 7) (r m : BitVec 1) (g : BitVec 2)
  /-- IAND, R175: Vector bitwise AND. -/
  | iand (d a b : BitVec 7) (r : BitVec 1) (g : BitVec 2)
  /-- IOR, R175: Vector bitwise OR. -/
  | ior (d a b : BitVec 7) (r : BitVec 1) (g : BitVec 2)
  /-- IXOR, R175: Vector bitwise exclusive OR. -/
  | ixor (d a b : BitVec 7) (r : BitVec 1) (g : BitVec 2)
  /-- ISHL, R175: Vector shift left. -/
  | ishl (d a b : BitVec 7) (r : BitVec 1) (g : BitVec 2)
  /-- IROT, R175: Vector rotate left. -/
  | irot (d a b : BitVec 7) (r : BitVec 1) (g : BitVec 2)
  /-- ISHR, R175: Vector logical shift right. -/
  | ishr (d a b : BitVec 7) (r : BitVec 1) (g : BitVec 2)
  /-- ISAR, R175: Vector arithmetic shift right. -/
  | isar (d a b : BitVec 7) (r : BitVec 1) (g : BitVec 2)
  /-- IMIN, R175: Vector minimum, signed or unsigned by m. -/
  | imin (d a b : BitVec 7) (r m : BitVec 1) (g : BitVec 2)
  /-- IMAX, R175: Vector maximum, signed or unsigned by m. -/
  | imax (d a b : BitVec 7) (r m : BitVec 1) (g : BitVec 2)
  /-- ICMP, R176: Vector integer compare writing its outcome to a guard. -/
  | icmp (c : BitVec 3) (e : BitVec 2) (a b : BitVec 7) (r m : BitVec 1) (g : BitVec 2)
  /-- ISEL, R175: Vector select of a or b on the old value of d. -/
  | isel (d a b : BitVec 7) (r : BitVec 1) (g : BitVec 2)
  /-- MOV, R177: Copies a to d in every cohort lane. -/
  | mov (d a : BitVec 7)
  /-- POPC, R177: Counts the 1 bits of a. -/
  | popc (d a : BitVec 7)
  /-- CLZ, R177: Counts the leading zero bits of a. -/
  | clz (d a : BitVec 7)
  /-- BREV, R177: Reverses the bits of a. -/
  | brev (d a : BitVec 7)
  /-- IABS, R177: Absolute value of a as a signed value. -/
  | iabs (d a : BitVec 7)
  /-- BFE_Z32, R178: Extracts a bit field zero-extended. -/
  | bfeZ32 (d a b : BitVec 7)
  /-- BFE_S32, R178: Extracts a bit field sign-extended. -/
  | bfeS32 (d a b : BitVec 7)
  /-- BFI, R178: Inserts a bit field from a into d. -/
  | bfi (d a b : BitVec 7)
  /-- IDOT4_S8, R177: Adds the signed byte dot product of a and b to d. -/
  | idot4S8 (d a b : BitVec 7)
  /-- IDOT4_Z8, R177: Adds the unsigned byte dot product of a and b to d. -/
  | idot4Z8 (d a b : BitVec 7)
  /-- LI, R179: Loads a sign-extended 18-bit immediate into a vector register. -/
  | li (d : BitVec 7) (i : BitVec 18)
  /-- LIH, R179: Loads bits [31:18] of a vector register, keeping its low 18 bits. -/
  | lih (d : BitVec 7) (i : BitVec 14)
  /-- FADD, R181: FP32 add rounded by %rmode. -/
  | fadd (d a b : BitVec 7) (r n : BitVec 1) (g : BitVec 2)
  /-- FSUB, R181: FP32 subtract rounded by %rmode. -/
  | fsub (d a b : BitVec 7) (r n : BitVec 1) (g : BitVec 2)
  /-- FMUL, R181: FP32 multiply rounded by %rmode. -/
  | fmul (d a b : BitVec 7) (r n : BitVec 1) (g : BitVec 2)
  /-- FFMA, R181: FP32 fused multiply-add into d with one rounding. -/
  | ffma (d a b : BitVec 7) (r n : BitVec 1) (g : BitVec 2)
  /-- FMIN, R182: FP32 minimum with NaN rules. -/
  | fmin (d a b : BitVec 7) (r n : BitVec 1) (g : BitVec 2)
  /-- FMAX, R182: FP32 maximum with NaN rules. -/
  | fmax (d a b : BitVec 7) (r n : BitVec 1) (g : BitVec 2)
  /-- FCMP, R183: FP32 compare writing its outcome to a guard. -/
  | fcmp (c : BitVec 3) (e : BitVec 2) (a b : BitVec 7) (r n : BitVec 1) (g : BitVec 2)
  /-- FCLASS, R184: Writes the class mask of an FP32 value. -/
  | fclass (d a : BitVec 7) (r : BitVec 1) (g : BitVec 2)
  /-- FRND, R185: Rounds an FP32 value to an integral value by the selected mode. -/
  | frnd (d a b : BitVec 7) (r n : BitVec 1) (g : BitVec 2)
  /-- FSCALE, R186: Multiplies an FP32 value by 2 to an integer power. -/
  | fscale (d a b : BitVec 7) (r n : BitVec 1) (g : BitVec 2)
  /-- FADD2_F16, R187: Packed FP16 add of two elements. -/
  | fadd2F16 (d a b : BitVec 7) (r n : BitVec 1) (g : BitVec 2)
  /-- FADD2_BF16, R187: Packed BF16 add of two elements. -/
  | fadd2Bf16 (d a b : BitVec 7) (r n : BitVec 1) (g : BitVec 2)
  /-- FFMA2_F16, R187: Packed FP16 fused multiply-add. -/
  | ffma2F16 (d a b : BitVec 7) (r n : BitVec 1) (g : BitVec 2)
  /-- FFMA2_BF16, R187: Packed BF16 fused multiply-add. -/
  | ffma2Bf16 (d a b : BitVec 7) (r n : BitVec 1) (g : BitVec 2)
  /-- FDOT2_F16, R188: FP16 two-element dot product added to an FP32 d with one rounding. -/
  | fdot2F16 (d a b : BitVec 7) (r n : BitVec 1) (g : BitVec 2)
  /-- FDOT2_BF16, R188: BF16 two-element dot product added to an FP32 d with one rounding. -/
  | fdot2Bf16 (d a b : BitVec 7) (r n : BitVec 1) (g : BitVec 2)
  /-- CVT, R192: Plain conversion between the source and destination types of imm11. -/
  | cvt (d a : BitVec 7) (t s : BitVec 4) (e : BitVec 3)
  /-- CVTN, R192: Narrowing conversion with saturation. -/
  | cvtn (d a : BitVec 7) (t s : BitVec 4) (e : BitVec 3)
  /-- PACK_F8E4, R193: Converts two FP32 values to F8E4 and writes one half of d. -/
  | packF8e4 (d a b : BitVec 7) (r h : BitVec 1) (g : BitVec 2)
  /-- PACK_F8E5, R193: Converts two FP32 values to F8E5 and writes one half of d. -/
  | packF8e5 (d a b : BitVec 7) (r h : BitVec 1) (g : BitVec 2)
  /-- UNPACK, R194: Converts four FP8 elements exactly to FP32, FP16 or BF16. -/
  | unpack (d a b : BitVec 7) (s : BitVec 1)
  /-- QBLK, R197: Quantises a block of 32 lanes' FP32 values to SBI8 or SBI4 with a shared exponent. -/
  | qblk (d a : BitVec 7) (s : BitVec 1)
  /-- SFN, R213: Approximate special function selected by b, within the bounds of Table 9-4. -/
  | sfn (d a f : BitVec 7) (r n : BitVec 1) (g : BitVec 2)
  /-- VOTE, R205: ANY, ALL or BALLOT over the members' predicates. -/
  | vote (d a b : BitVec 7) (s : BitVec 4)
  /-- SHFL, R206: Each lane reads a from a source lane chosen by its own selector. -/
  | shfl (d a b : BitVec 7) (s : BitVec 4)
  /-- PERM, R207: Lane permutation with a selector common to the rill. -/
  | perm (d a : BitVec 7) (p : BitVec 6) (s : BitVec 4)
  /-- REDX, R208: Reduction over the live members written to every acting lane. -/
  | redx (d a b : BitVec 7) (s : BitVec 4)
  /-- SCANX, R210: Inclusive or exclusive prefix combination over the live members. -/
  | scanx (d a b : BitVec 7) (s : BitVec 4)
  /-- MATCH, R211: Sorts live members into classes of equal values, writing leader or rank. -/
  | matchx (d a b : BitVec 7) (s : BitVec 4)
  /-- ELECT, R212: Sets a guard true in the lowest-numbered live member only. -/
  | elect (e : BitVec 2) (b : BitVec 7)
  /-- CROSS_LANE_COMPLETE, R202: A held cross-lane instruction or QBLK completes once every live member is at its PC. -/
  | crossLaneComplete (rill : Nat) (pc : DWord)
  /-- LD_8, R286: Loads one byte per acting lane, zero-extended. -/
  | ld8 (d a : BitVec 7) (o : BitVec 3) (f : BitVec 4) (r g : BitVec 2)
  /-- LD_16, R286: Loads two bytes per acting lane, zero-extended. -/
  | ld16 (d a : BitVec 7) (o : BitVec 3) (f : BitVec 4) (r g : BitVec 2)
  /-- LD_32, R286: Loads four bytes per acting lane. -/
  | ld32 (d a : BitVec 7) (o : BitVec 3) (f : BitVec 4) (r g : BitVec 2)
  /-- LD_64, R286: Loads eight bytes per acting lane into a pair. -/
  | ld64 (d a : BitVec 7) (o : BitVec 3) (f : BitVec 4) (r g : BitVec 2)
  /-- LD_128, R286: Loads sixteen bytes per acting lane into a quad. -/
  | ld128 (d a : BitVec 7) (o : BitVec 3) (f : BitVec 4) (r g : BitVec 2)
  /-- ST_8, R286: Stores one byte per acting lane. -/
  | st8 (d a : BitVec 7) (o : BitVec 3) (f : BitVec 4) (r g : BitVec 2)
  /-- ST_16, R286: Stores two bytes per acting lane. -/
  | st16 (d a : BitVec 7) (o : BitVec 3) (f : BitVec 4) (r g : BitVec 2)
  /-- ST_32, R286: Stores four bytes per acting lane. -/
  | st32 (d a : BitVec 7) (o : BitVec 3) (f : BitVec 4) (r g : BitVec 2)
  /-- ST_64, R286: Stores eight bytes per acting lane from a pair. -/
  | st64 (d a : BitVec 7) (o : BitVec 3) (f : BitVec 4) (r g : BitVec 2)
  /-- ST_128, R286: Stores sixteen bytes per acting lane from a quad. -/
  | st128 (d a : BitVec 7) (o : BitVec 3) (f : BitVec 4) (r g : BitVec 2)
  /-- LDK, R288: Rill-wide load of 4 or 8 bytes into uniform registers. -/
  | ldk (d a : BitVec 7) (o : BitVec 3) (f : BitVec 4) (r : BitVec 2) (z : BitVec 1)
  /-- STK, R288: Rill-wide store of 4 or 8 bytes from uniform registers. -/
  | stk (d a : BitVec 7) (o : BitVec 3) (f : BitVec 4) (r : BitVec 2) (z : BitVec 1)
  /-- LDL, R289: Loads from local store or the pair pool in bank passes. -/
  | ldl (d a : BitVec 7) (z : BitVec 2) (f : BitVec 4) (g : BitVec 2)
  /-- STL, R289: Stores to local store or the pair pool in bank passes. -/
  | stl (d a : BitVec 7) (z : BitVec 2) (f : BitVec 4) (g : BitVec 2)
  /-- ATOM_32, R292: 32-bit atomic sub-operation per acting lane returning the old value. -/
  | atom32 (d a : BitVec 7) (o : BitVec 3) (s : BitVec 4) (r g : BitVec 2)
  /-- ATOM_64, R292: 64-bit atomic sub-operation per acting lane returning the old value. -/
  | atom64 (d a : BitVec 7) (o : BitVec 3) (s : BitVec 4) (r g : BitVec 2)
  /-- RED_32, R292: 32-bit reduction per acting lane with no return. -/
  | red32 (d a : BitVec 7) (o : BitVec 3) (s : BitVec 4) (r g : BitVec 2)
  /-- RED_64, R292: 64-bit reduction per acting lane with no return. -/
  | red64 (d a : BitVec 7) (o : BitVec 3) (s : BitVec 4) (r g : BitVec 2)
  /-- ACOPY, R297: Places an asynchronous per-lane copy into local store under a copy tag. -/
  | acopy (h : BitVec 1) (d a b : BitVec 7) (r l : BitVec 1) (g : BitVec 2)
  /-- RCOPY, R300: Captures a remote copy parameter block and places it in the copy context. -/
  | rcopy (a : BitVec 7) (r : BitVec 1) (g : BitVec 2)
  /-- PREF, R303: Brings each acting lane's TGT 0 line into its LLC slice with one token. -/
  | pref (a : BitVec 7) (r : BitVec 1) (g : BitVec 2)
  /-- PREF_SC, R303: Reads a line's sidecar into a quad per acting lane. -/
  | prefSc (d a : BitVec 7) (r : BitVec 1) (g : BitVec 2)
  /-- INVL1, R304: Invalidates the L1 line of each acting lane's address. -/
  | invl1 (a : BitVec 7) (r : BitVec 1) (g : BitVec 2)
  /-- INVL1_ALL, R304: Invalidates the whole L1 of the core. -/
  | invl1All (g : BitVec 2)
  /-- SETOBS, R306: Writes an observer-mask slot of the rill. -/
  | setobs (s : BitVec 3) (a : BitVec 7) (r : BitVec 1) (g : BitVec 2)
  /-- FENCE, R305: Full, release or acquire fence holding the cohort until earlier accesses are performed for the mask. -/
  | fence (k : BitVec 2) (m : BitVec 8)
  /-- TMMA, R355: Captures a tile parameter block and enqueues a matrix multiply-accumulate. -/
  | tmma (a : BitVec 7) (r m : BitVec 1) (g : BitVec 2)
  /-- TZERO, R358: Enqueues the clearing of an accumulator slot or the carry plane. -/
  | tzero (s : BitVec 4) (m : BitVec 1) (g : BitVec 2)
  /-- TLDA, R359: Enqueues a load of 64 rows from memory into an accumulator slot. -/
  | tlda (t : BitVec 2) (s : BitVec 4) (a : BitVec 7) (r m : BitVec 1) (g : BitVec 2)
  /-- TSTA, R359: Enqueues a store of 64 rows of an accumulator slot to memory. -/
  | tsta (t : BitVec 2) (s : BitVec 4) (a : BitVec 7) (r m : BitVec 1) (g : BitVec 2)
  /-- TCVT, R360: Enqueues a converting store of a slot as FP8 or SBI with exponents. -/
  | tcvt (t : BitVec 2) (s : BitVec 4) (a : BitVec 7) (r m : BitVec 1) (g : BitVec 2)
  /-- TWAIT, R361: Holds the cohort until the rill's tile operations on the unit have completed or ended. -/
  | twait (m : BitVec 1) (g : BitVec 2)
  /-- TPROG, R362: Reads the progress word of the unit's running or suspended operation. -/
  | tprog (d : BitVec 7) (m : BitVec 1) (g : BitVec 2)
  /-- BAR_INIT, R402: Initialises a barrier object in local store. -/
  | barInit (a b : BitVec 7)
  /-- ARRIVE, R403: Checks and performs an arrival of n at a barrier, returning the phase token. -/
  | arrive (d a b : BitVec 7)
  /-- ARRIVE_D, R404: Checks and binds a deferred arrival to a copy tag. -/
  | arriveD (t : BitVec 2) (a b : BitVec 7)
  /-- BWAIT, R406: Holds the cohort until the barrier's phase differs from the token, then acquires. -/
  | bwait (a b : BitVec 7)
  /-- RING_POST, R409: Posts one slot of a stage ring with release. -/
  | ringPost (r : BitVec 4)
  /-- RING_POST_SIZE, R409: Resizes a stage ring and clears its phase bits. -/
  | ringPostSize (r s : BitVec 4)
  /-- RING_WAIT, R409: Holds the cohort until a ring slot's phase bit matches, then acquires. -/
  | ringWait (r : BitVec 4) (a : BitVec 7)
  /-- VFSEND, R412: Sends a vector register to the Flume partner when a slot is free. -/
  | vfsend (a : BitVec 7)
  /-- VFRECV, R412: Pops the head Flume entry into a register and returns a credit. -/
  | vfrecv (d : BitVec 7)
  /-- XACQ, R415: Takes the slot pair's extended register block, holding while the partner holds it. -/
  | xacq
  /-- XREL, R415: Releases the extended register block. -/
  | xrel
  /-- WBASE, R416: Sets the rill's vector and uniform window bases. -/
  | wbase (w k : BitVec 4)
  /-- COLL, R392: Captures a collective parameter block and passes it to Confluence. -/
  | coll (a : BitVec 7) (r : BitVec 1) (g : BitVec 2)
  /-- ROP, R384: Captures a remote operation block and sends a Sluice program to a peer. -/
  | rop (a : BitVec 7) (r : BitVec 1) (g : BitVec 2)
  /-- PINT, R233: Sets, replaces or clears the rill's power intent. -/
  | pint (a b : BitVec 7)
  /-- EQRES, R234: Sets the rill's energy reserve, paying the transfer from the bucket. -/
  | eqres (d a : BitVec 7)
  /-- MFS, R437: Reads a special register. -/
  | mfs (d : BitVec 7) (i : BitVec 12) (g : BitVec 2)
  /-- MTS, R437: Writes a special register. -/
  | mts (d : BitVec 7) (i : BitVec 12) (g : BitVec 2)
  /-- ERET_RETRY, R438: Unparks the selected rill at its trapping instruction. -/
  | eretRetry
  /-- ERET_CONT, R438: Unparks the selected rill at its resume address after TRAP or BRK. -/
  | eretCont
  /-- ERET_KILL, R438: Drops the selected rill and ends its launch with halt code 0x14. -/
  | eretKill
  /-- CCTL_CLEAN, R439: Writes dirty lines of a physical range to DRAM. -/
  | cctlClean (d : BitVec 7)
  /-- CCTL_EVICT, R439: Writes back and returns every token of a physical range to the home. -/
  | cctlEvict (d : BitVec 7)
  /-- TLBINV_ALL, R440: Drops every translation of every context. -/
  | tlbinvAll
  /-- TLBINV_CTX, R440: Drops every translation of one context. -/
  | tlbinvCtx (d : BitVec 7)
  /-- TLBINV_PAGE, R440: Drops the translation covering one virtual address of one context. -/
  | tlbinvPage (d : BitVec 7)
  /-- HALT, R441: Holds the firmware agent until a trap, task or event resolution arrives. -/
  | halt
  /-- WAIT_END, R152: A thread held by a waiting instruction becomes ready and completes it without reissue. -/
  | waitEnd (rill i : Nat)
  /-- ISSUE_DRAW_CYCLE, R229: Each core clock draws for the reservation holder, engine units and candidates in fixed order. -/
  | issueDrawCycle (core : Nat)
  /-- RESERVATION_JOIN, R231: A rill whose denial count reaches 8 joins the core's reservation queue. -/
  | reservationJoin (core rill : Nat)
  /-- EPOCH_REFILL, R227: At each 32-clock epoch the domain grants core refills and resets epoch draw totals. -/
  | epochRefill (dom : Nat)
  /-- PRICE_COMMIT, R225: A COMMIT write sends a staged price bank to every core. -/
  | priceCommit (v : DWord)
  /-- CORE_PRICE_SWITCH, R225: A core replaces its copy of the committed bank between two clocks. -/
  | corePriceSwitch (core : Nat)
  /-- DCAP_WRITE, R226: A domain capacity write takes effect at once, clamping the domain balance. -/
  | dcapWrite (dom : Nat) (v : DWord)
  /-- QTAIL_WRITE, R73: Software advances a queue tail; an overrun of the ring halts the queue with code 0x11. -/
  | qtailWrite (q : Nat) (v : DWord)
  /-- QHEAD_WRITE, R81: Software moves a halted queue's head to retry or skip a command. -/
  | qheadWrite (q : Nat) (v : DWord)
  /-- HALT_CLEAR, R81: Writing 1 to HALT resumes the queue at QHEAD, rechecking overrun. -/
  | haltClear (q : Nat)
  /-- ABORT, R95: Aborts every started command and unretired launch of a queue and halts it with code 0x10. -/
  | abort (q : Nat)
  /-- REGISTER_WRITE, R4: A write to a register field with no behaviour of its own. -/
  | registerWrite (off : Nat) (v : DWord)
  /-- ARBITER_GRANT, R78: A free command processor is granted the head command of an eligible queue. -/
  | arbiterGrant (cp : Nat)
  /-- FENCE_OBJECT_READ, R79: The device rereads a fence object on a store to its line or after 10 microseconds. -/
  | fenceObjectRead (q i : Nat)
  /-- PROLOGUE_LIMIT, R84: A prologue reaching 4,096 instructions without EXIT ends with code 0x0B. -/
  | prologueLimit (cp : Nat)
  /-- WINDOW_INSTALL, R39: The window installer installs a waiting launch's format windows when entries are free. -/
  | windowInstall
  /-- COMPLETION_COUNT_REPORT, R92: A die dispatcher reports its retired-group count at least every 4 microseconds and at range end. -/
  | completionCountReport (die lid : Nat)
  /-- LAUNCH_RETIRE, R445: A launch whose count reaches G writes statistics, dereferences windows and stores DONEF. -/
  | launchRetire (lid : Nat)
  /-- PLACEMENT_EVALUATION, R117: A die dispatcher evaluates candidates after an arrival, placement or freed resource and places the first that fits. -/
  | placementEvaluation (die : Nat)
  /-- CANDIDATE_WAIT_LIMIT, R117: A candidate that has waited 100 microseconds blocks lower-priority placements on its die. -/
  | candidateWaitLimit (die lid : Nat)
  /-- GROUP_START, R121: A placed group's rills start after its zero fill and width-mode setting end. -/
  | groupStart (room : Nat)
  /-- SPAN_RESERVATION_REQUEST, R123: The upper dispatcher grants or refuses a lower dispatcher's position request for a span. -/
  | spanReservationRequest (tower : Nat)
  /-- SPAN_RESERVATION_REPLY, R123: The lower dispatcher places both span groups on a grant or tries the next choice on a refusal. -/
  | spanReservationReply (tower : Nat)
  /-- UNIT_PLACED_REPORT, R126: A die reports its groups of an L5 unit placed; rills start once every die has reported. -/
  | unitPlacedReport (die lid : Nat)
  /-- MASK_REPORT, R111: A compute die reports its enabled mask on activation, gating or restore. -/
  | maskReport (die : Nat)
  /-- LOAD_RETURN, R166: A load's or atomic's data return and write its destinations, lowering the load counter. -/
  | loadReturn (rill id lane : Nat) (useL1 : Bool)
  /-- STORE_VISIBLE, R308: A store or reduction is written at its performance point and the store counter falls. -/
  | storeVisible (rill id lane : Nat)
  /-- ATOMIC_PERFORM, R271: A slice's near-memory unit performs an atomic line operation once it holds all tokens. -/
  | atomicPerform (rill id lane : Nat)
  /-- VTOK_WRITE, R171: VTOK writes its uniform destination when the lane read completes. -/
  | vtokWrite (rill : Nat)
  /-- COPY_LINE_WRITE, R297: The copy engine writes one local-store line of an ACOPY, zero fill included. -/
  | copyLineWrite (rill tag : Nat)
  /-- DEFERRED_ARRIVAL_COUNT, R404: A deferred arrival is counted once its tag's earlier copies have landed. -/
  | deferredArrivalCount (rill i : Nat)
  /-- RCOPY_UNIT, R301: The copy engine reads and writes one 64-byte unit of a remote copy. -/
  | rcopyUnit (rill id : Nat)
  /-- RCOPY_COMPLETE, R301: After its last write the remote copy releases and performs its completion action. -/
  | rcopyComplete (rill id : Nat)
  /-- TILE_OPERAND_LINE, R337: A tile load pipe reads one operand line with its sidecar, paying its own draw. -/
  | tileOperandLine (unit : Nat) (isB : Bool)
  /-- TILE_KSTEP, R345: A tile unit performs one paid k-step or accumulator unit of its running operation. -/
  | tileKstep (unit : Nat)
  /-- TILE_OP_COMPLETE, R340: A tile operation completes its last write, lowers the tile counter and posts its ring. -/
  | tileOpComplete (unit : Nat)
  /-- BARRIER_DONE_MESSAGE, R400: A span barrier half receives its partner's done message and flips if its own half is done. -/
  | barrierDoneMessage (group : Nat)
  /-- FLUME_ENTRY_DELIVERY, R410: A Flume entry reaches the receiving end of its channel. -/
  | flumeEntryDelivery (chan : Nat)
  /-- FLUME_CREDIT, R410: A Flume credit reaches the sender and raises its free-slot counter. -/
  | flumeCredit (chan : Nat)
  /-- EVENT_RECORD_WRITE, R422: An event record is written to the host event ring once it has room, raising MSI-X. -/
  | eventRecordWrite
  /-- EVENT_RESOLVE, R423: A GO write resolves an event by resume or end. -/
  | eventResolve (v : DWord)
  /-- RILL_RETIRE, R443: A rill retires once all threads exited and its counters, copy context and traps are clear. -/
  | rillRetire (rill : Nat)
  /-- PREEMPT_QUEUE, R431: A PGO write pre-empts and holds every placed group of queue PQ. -/
  | preemptQueue (v : DWord)
  /-- PREEMPT_RESTORE, R431: A PREST write lets the held groups of queue PQ be placed again. -/
  | preemptRestore (v : DWord)
  /-- CONTEXT_SAVE_COMPLETE, R427: After its drains end a rill's context is saved to its frame and its resources freed. -/
  | contextSaveComplete (room : Nat)
  /-- DEFERRED_PREEMPTION, R426: A deferred pre-emption proceeds in the clock after a context frame frees. -/
  | deferredPreemption
  /-- GATE_LAYER, R432: A GREQ bit of 1 pre-empts an upper layer's groups and removes its power. -/
  | gateLayer (tower : Nat)
  /-- RESTORE_LAYER, R432: A GREQ bit of 0 returns power to an upper layer and reports its mask. -/
  | restoreLayer (tower : Nat)
  /-- GATE_POWER_OFF, R432: Once every group is saved and agents stop, balances return and power is removed. -/
  | gatePowerOff (tower : Nat)
  /-- RESTORE_COMPLETE, R432: The restored layer reports its mask and GBUSY clears. -/
  | restoreComplete (tower : Nat)
  /-- DEBUG_HALT_REQUEST, R434: An HREQ write stops issue and engines on a compute die. -/
  | debugHaltRequest (die : Nat)
  /-- DEBUG_HALTED, R434: When issued accesses complete the die reads HALTED and debug-hold is set. -/
  | debugHalted (die : Nat)
  /-- DEBUG_RUN, R434: A RUN write ends a debug halt. -/
  | debugRun (die : Nat)
  /-- LINK_RESPONSE_WATCHDOG, R436: A die-link request without response for 10 ms resets a die with code 0x0B. -/
  | linkResponseWatchdog (link : Nat)
  /-- PACKAGE_RESET, R110: RESET_N held low resets the package, and dies enter FUSE-CHECK on release. -/
  | packageReset
  /-- ATTESTATION_ATTEMPT, R103: Headgate runs an SPDM attestation attempt with a die in QUARANTINE. -/
  | attestationAttempt (die code : Nat)
  /-- ATTESTATION_TIMEOUT, R103: An attestation attempt exceeding 200 ms fails with code 0x03. -/
  | attestationTimeout (die : Nat)
  /-- LINKKEY, R104: A die link end installs keys and salts sent in a LINKKEY message. -/
  | linkkey (dir : Nat) (receiver : Bool)
  /-- DIE_OPEN, R104: When every link end has acknowledged, Headgate sends the open message and the die is ACTIVE. -/
  | dieOpen (die : Nat)
  /-- ROLL_REQUEST, R105: A ROLL write requests a key rollover of every link of the die. -/
  | rollRequest (die : Nat)
  /-- KEY_ROLLOVER_COUNT, R105: A key's packet counter nearing 2^48 starts a rollover. -/
  | keyRolloverCount (dir : Nat)
  /-- OLD_KEY_ERASE, R105: After 4,096 packets of the new phase both ends erase the old key. -/
  | oldKeyErase (dir : Nat)
  /-- LINK_TAG_FAIL, R99: A die-link packet failing its tag is discarded and replayed, or its die reset on repeat. -/
  | linkTagFail (dir : Nat) (second : Bool)
  /-- DIE_RESET_REQUEST, R107: An RSTREQ write starts a single-die reset, or a package reset for a base die. -/
  | dieResetRequest (die : Nat)
  /-- DRAIN_COMPLETE, R107: A draining die enters RESETTING and then OFF to restart its trust sequence. -/
  | drainComplete (die : Nat)
  /-- DRAIN_LIMIT, R107: A drain that exceeds its limit enters RESETTING with FAILC 0x09. -/
  | drainLimit (die : Nat)
  /-- DOE_REQUEST, R98: The host port serves a DOE request such as SPDM, IDE_KM or CDAT. -/
  | doeRequest (kind : Nat)
  /-- PEER_ATTESTATION, R106: Two devices' Headgates attest each other and issue per-peer path keys. -/
  | peerAttestation (peer : Nat) (ok : Bool)
  /-- PSTEP_ASSERT, R241: Assertion of the PSTEP pin starts a power step to PINCAP. -/
  | pstepAssert
  /-- PSTEP_RELEASE, R241: Release of the PSTEP pin returns the cap to PCAP under the grid ramp. -/
  | pstepRelease
  /-- POWER_STEP_GO, R241: A GO write sets PCAP to STEPCAP and starts a power step. -/
  | powerStepGo (v : DWord)
  /-- PCAP_WRITE, R238: A PCAP write below FLOOR sets FLOOR to PCAP and acts after the stagger. -/
  | pcapWrite (v : DWord)
  /-- WEIR_PERIOD, R239: Each microsecond the Weir computes R, fills domain buckets and manages stages and ballast. -/
  | weirPeriod (pdraw demand : Nat) (full : Bool)
  /-- PEER_INTENT_MESSAGE, R246: A received peer intent updates NPEER, FALLS and FALLL. -/
  | peerIntentMessage (dev cls fall lead : Nat)
  /-- PEER_INTENT_LAPSE, R246: A peer intent lapses when its class bound has passed. -/
  | peerIntentLapse (dev : Nat)
  /-- FSEL_WRITE, R248: A domain clock select write starts a relock that stops the clock up to 2 microseconds. -/
  | fselWrite (dom : Nat) (v : DWord)
  /-- RELOCK_DONE, R248: The domain clock restarts and cores reload %ltime. -/
  | relockDone (dom : Nat)
  /-- DROOP_TRIP, R249: A droop trip injects charge for one clock, or halves the clock when the allowance is spent. -/
  | droopTrip (dom : Nat)
  /-- CHARGE_UPDATE, R250: %charge is updated every 10 microseconds and CHGLOW set below 160 mJ. -/
  | chargeUpdate (mj : Nat)
  /-- THERMAL_SAMPLE, R251: A 10-microsecond sample updates TMAX and moves TSTATE under dwell and count rules. -/
  | thermalSample (reading : Int) (sensor : Nat)
  /-- POWER_FAIL, R253: PFAIL_N low or SAVE entry stops issue, drops rills and starts the emergency save. -/
  | powerFail
  /-- SAVE_ITEM_COMPLETE, R253: A save item completes in the save region or at the port and its bit is set. -/
  | saveItemComplete (atPort : Bool)
  /-- SAVE_RESUME, R255: A RESUME write restores control state and re-places saved rills. -/
  | saveResume
  /-- SAVE_DISCARD, R255: A DISCARD write drops the held image. -/
  | saveDiscard
  /-- PAGE_WALK, R264: The walker completes a walk for a TLB miss and fills the TLBs or reports a fault. -/
  | pageWalk (core ctx : Nat) (va : DWord)
  /-- BSIZE_WRITE, R269: A basin size write starts carving or shrinking basin store in a slice. -/
  | bsizeWrite (slice : Nat) (v : DWord)
  /-- BSIZE_CHANGE_DONE, R269: A basin size change completes and BUSY clears. -/
  | bsizeChangeDone (slice : Nat)
  /-- TREQS, R325: A holder answers a transient read request from its token state. -/
  | treqs (i : Nat)
  /-- TREQX, R325: A holder answers a transient write request by sending all its tokens. -/
  | treqx (i : Nat)
  /-- TOK, R329: A holder accepts tokens, and data where carried, and adds them to its count. -/
  | tok (i : Nat)
  /-- TRANSIENT_REQUEST_TIMEOUT, R326: An unsatisfied transient request is resent, becoming persistent at its third failure. -/
  | transientRequestTimeout (line holder : Nat)
  /-- PREQ, R327: A home's persistent arbiter queues a persistent request and activates it when it may. -/
  | preq (i : Nat)
  /-- PACT, R327: A base die installs a persistent table entry and acknowledges. -/
  | pact (i : Nat)
  /-- PACK, R327: The home counts a table acknowledgement, activating or freeing the entry after four. -/
  | pack (i : Nat)
  /-- PDONE, R327: The home receives a requester's done and sends deactivation. -/
  | pdone (i : Nat)
  /-- PDEACT, R327: A base die removes a persistent table entry and acknowledges. -/
  | pdeact (i : Nat)
  /-- LINE_EVICT, R328: A slice evicts a line and sends all its tokens to the home. -/
  | lineEvict (line tower : Nat)
  /-- COHERENCE_RETRANSMIT, R330: An unacknowledged relayed coherence message is resent through the other relay. -/
  | coherenceRetransmit (i : Nat)
  /-- HOST_MEM_READ, R332: A host CXL.mem read gathers tokens and lends or reads the line. -/
  | hostMemRead (addr kind : Nat)
  /-- HOST_MEM_WRITE, R335: A non-caching host write is performed at the home-tower slice with all tokens. -/
  | hostMemWrite (addr : Nat) (data : List Byte) (poison : Bool)
  /-- HOST_WRITEBACK, R333: A host write-back updates a lent line and may end the lending. -/
  | hostWriteback (line : Nat) (data : List Byte) (shared : Bool) (poison : BitVec 2)
  /-- BIRSPI, R333: A host snoop response clears LENT and serves the waiting request. -/
  | birspi (line : Nat)
  /-- ELM_LOSS_OF_LIGHT, R365: Loss of light at a laser module kills its two wavelengths' paths in every set. -/
  | elmLossOfLight (k : Nat)
  /-- ELM_LIGHT_RETURN, R365: A module's light returns and its paths are retrained. -/
  | elmLightReturn (k : Nat)
  /-- ELMEN_WRITE, R365: A write of ELMEN turns laser modules on or off, killing their paths when off. -/
  | elmenWrite (v : DWord)
  /-- DATA_FLIT, R368: A receiver checks a data flit, discards failures or duplicates and delivers in SSN order. -/
  | dataFlit (peer path : Nat) (flit : List Byte)
  /-- ACK_FLIT, R368: A cumulative acknowledgement or NAK frees or queues flits for replay. -/
  | ackFlit (peer ssn : Nat) (nak : Bool)
  /-- PATH_CONTROL_FLIT, R369: A path-control flit carries training, set, relay or hold messages for one path or set. -/
  | pathControlFlit (peer kind arg : Nat)
  /-- PATH_REJOIN, R370: A retrained path rejoins its set after 10 ms of clean idle flits. -/
  | pathRejoin (peer path : Nat)
  /-- REPLAY_TIMEOUT, R372: A flit unacknowledged for 20 microseconds is replayed. -/
  | replayTimeout (peer ssn : Nat)
  /-- SET_ANNOUNCEMENT, R373: A device announces its set states every 100 microseconds for relay choice. -/
  | setAnnouncement
  /-- HOLD_MESSAGE, R380: During a debug halt a device sends hold messages to peers every 10 microseconds. -/
  | holdMessage (peer : Nat)
  /-- REMOTE_REQUEST_ABANDON, R380: A remote request without a route for 100 ms is abandoned with the remote-unreachable trap. -/
  | remoteRequestAbandon (req : Nat)
  /-- SLUICE_REQUEST, R379: A Sluice applies a sequenced request once, or resends its cached response. -/
  | sluiceRequest (sluice src vc n u op addr : Nat) (data : List Byte)
  /-- REMOTE_RESPONSE, R375: A remote response is delivered into its reserved reply storage. -/
  | remoteResponse (req code : Nat) (data : List Byte)
  /-- COLLECTIVE_SIGNAL_READ, R387: Confluence rereads a bucket's signal word with acquire and starts the bucket when it suffices. -/
  | collectiveSignalRead (i bucket : Nat)
  /-- COLLECTIVE_CHUNK, R386: Confluence combines or forwards a received collective chunk. -/
  | collectiveChunk (cid bucket rank : Nat) (data exps : List Byte) (hdr : List Nat)
  /-- COLLECTIVE_END, R391: A collective writes its status word and performs its completion action. -/
  | collectiveEnd (i : Nat)
  /-- BLACKBOX_RECORD, R449: The recorder writes a received event as the next black-box entry. -/
  | blackboxRecord
  /-- BLACKBOX_CLEAR, R450: Writing CLR zeroes the black-box ring and NSEQ. -/
  | blackboxClear
  /-- BLACKBOX_MCTP_READ, R450: The board management controller reads one black-box entry by index over MCTP. -/
  | blackboxMctpRead (idx : Nat)
  /-- BOOT_RECORD_CLEAR, R109: The board management controller clears the boot step record, letting a package stuck in boot failure attempt its steps again. -/
  | bootRecordClear
  /-- POWER_REMOVED, R254: The input power ends, cutting off any save in progress so that items whose bits are still clear are lost. -/
  | powerRemoved
  deriving DecidableEq, Repr, Inhabited

/-- An instruction word, as opposed to an event of the machine. -/
def Instr.isWord : Instr → Bool
  | .crossLaneComplete .. => false
  | .waitEnd .. => false
  | .issueDrawCycle .. => false
  | .reservationJoin .. => false
  | .epochRefill .. => false
  | .priceCommit .. => false
  | .corePriceSwitch .. => false
  | .dcapWrite .. => false
  | .qtailWrite .. => false
  | .qheadWrite .. => false
  | .haltClear .. => false
  | .abort .. => false
  | .registerWrite .. => false
  | .arbiterGrant .. => false
  | .fenceObjectRead .. => false
  | .prologueLimit .. => false
  | .windowInstall => false
  | .completionCountReport .. => false
  | .launchRetire .. => false
  | .placementEvaluation .. => false
  | .candidateWaitLimit .. => false
  | .groupStart .. => false
  | .spanReservationRequest .. => false
  | .spanReservationReply .. => false
  | .unitPlacedReport .. => false
  | .maskReport .. => false
  | .loadReturn .. => false
  | .storeVisible .. => false
  | .atomicPerform .. => false
  | .vtokWrite .. => false
  | .copyLineWrite .. => false
  | .deferredArrivalCount .. => false
  | .rcopyUnit .. => false
  | .rcopyComplete .. => false
  | .tileOperandLine .. => false
  | .tileKstep .. => false
  | .tileOpComplete .. => false
  | .barrierDoneMessage .. => false
  | .flumeEntryDelivery .. => false
  | .flumeCredit .. => false
  | .eventRecordWrite => false
  | .eventResolve .. => false
  | .rillRetire .. => false
  | .preemptQueue .. => false
  | .preemptRestore .. => false
  | .contextSaveComplete .. => false
  | .deferredPreemption => false
  | .gateLayer .. => false
  | .restoreLayer .. => false
  | .gatePowerOff .. => false
  | .restoreComplete .. => false
  | .debugHaltRequest .. => false
  | .debugHalted .. => false
  | .debugRun .. => false
  | .linkResponseWatchdog .. => false
  | .packageReset => false
  | .attestationAttempt .. => false
  | .attestationTimeout .. => false
  | .linkkey .. => false
  | .dieOpen .. => false
  | .rollRequest .. => false
  | .keyRolloverCount .. => false
  | .oldKeyErase .. => false
  | .linkTagFail .. => false
  | .dieResetRequest .. => false
  | .drainComplete .. => false
  | .drainLimit .. => false
  | .doeRequest .. => false
  | .peerAttestation .. => false
  | .pstepAssert => false
  | .pstepRelease => false
  | .powerStepGo .. => false
  | .pcapWrite .. => false
  | .weirPeriod .. => false
  | .peerIntentMessage .. => false
  | .peerIntentLapse .. => false
  | .fselWrite .. => false
  | .relockDone .. => false
  | .droopTrip .. => false
  | .chargeUpdate .. => false
  | .thermalSample .. => false
  | .powerFail => false
  | .saveItemComplete .. => false
  | .saveResume => false
  | .saveDiscard => false
  | .pageWalk .. => false
  | .bsizeWrite .. => false
  | .bsizeChangeDone .. => false
  | .treqs .. => false
  | .treqx .. => false
  | .tok .. => false
  | .transientRequestTimeout .. => false
  | .preq .. => false
  | .pact .. => false
  | .pack .. => false
  | .pdone .. => false
  | .pdeact .. => false
  | .lineEvict .. => false
  | .coherenceRetransmit .. => false
  | .hostMemRead .. => false
  | .hostMemWrite .. => false
  | .hostWriteback .. => false
  | .birspi .. => false
  | .elmLossOfLight .. => false
  | .elmLightReturn .. => false
  | .elmenWrite .. => false
  | .dataFlit .. => false
  | .ackFlit .. => false
  | .pathControlFlit .. => false
  | .pathRejoin .. => false
  | .replayTimeout .. => false
  | .setAnnouncement => false
  | .holdMessage .. => false
  | .remoteRequestAbandon .. => false
  | .sluiceRequest .. => false
  | .remoteResponse .. => false
  | .collectiveSignalRead .. => false
  | .collectiveChunk .. => false
  | .collectiveEnd .. => false
  | .blackboxRecord => false
  | .blackboxClear => false
  | .blackboxMctpRead .. => false
  | .bootRecordClear => false
  | .powerRemoved => false
  | .bra .. => true
  | .call .. => true
  | .kbra .. => true
  | .brx .. => true
  | .callx .. => true
  | .ret .. => true
  | .exit .. => true
  | .nop => true
  | .yield => true
  | .regn => true
  | .trap .. => true
  | .brk .. => true
  | .waitc .. => true
  | .spawn .. => true
  | .kadd .. => true
  | .ksub .. => true
  | .kmul24 .. => true
  | .kmul32 .. => true
  | .kand .. => true
  | .kor .. => true
  | .kxor .. => true
  | .kshl .. => true
  | .kshr .. => true
  | .ksar .. => true
  | .kmin .. => true
  | .kmax .. => true
  | .ksel .. => true
  | .kcmp .. => true
  | .kli .. => true
  | .klih .. => true
  | .vtok .. => true
  | .iadd .. => true
  | .isub .. => true
  | .iadd64 .. => true
  | .imul24 .. => true
  | .imul24h .. => true
  | .imul32 .. => true
  | .imulh .. => true
  | .imad24 .. => true
  | .iand .. => true
  | .ior .. => true
  | .ixor .. => true
  | .ishl .. => true
  | .irot .. => true
  | .ishr .. => true
  | .isar .. => true
  | .imin .. => true
  | .imax .. => true
  | .icmp .. => true
  | .isel .. => true
  | .mov .. => true
  | .popc .. => true
  | .clz .. => true
  | .brev .. => true
  | .iabs .. => true
  | .bfeZ32 .. => true
  | .bfeS32 .. => true
  | .bfi .. => true
  | .idot4S8 .. => true
  | .idot4Z8 .. => true
  | .li .. => true
  | .lih .. => true
  | .fadd .. => true
  | .fsub .. => true
  | .fmul .. => true
  | .ffma .. => true
  | .fmin .. => true
  | .fmax .. => true
  | .fcmp .. => true
  | .fclass .. => true
  | .frnd .. => true
  | .fscale .. => true
  | .fadd2F16 .. => true
  | .fadd2Bf16 .. => true
  | .ffma2F16 .. => true
  | .ffma2Bf16 .. => true
  | .fdot2F16 .. => true
  | .fdot2Bf16 .. => true
  | .cvt .. => true
  | .cvtn .. => true
  | .packF8e4 .. => true
  | .packF8e5 .. => true
  | .unpack .. => true
  | .qblk .. => true
  | .sfn .. => true
  | .vote .. => true
  | .shfl .. => true
  | .perm .. => true
  | .redx .. => true
  | .scanx .. => true
  | .matchx .. => true
  | .elect .. => true
  | .ld8 .. => true
  | .ld16 .. => true
  | .ld32 .. => true
  | .ld64 .. => true
  | .ld128 .. => true
  | .st8 .. => true
  | .st16 .. => true
  | .st32 .. => true
  | .st64 .. => true
  | .st128 .. => true
  | .ldk .. => true
  | .stk .. => true
  | .ldl .. => true
  | .stl .. => true
  | .atom32 .. => true
  | .atom64 .. => true
  | .red32 .. => true
  | .red64 .. => true
  | .acopy .. => true
  | .rcopy .. => true
  | .pref .. => true
  | .prefSc .. => true
  | .invl1 .. => true
  | .invl1All .. => true
  | .setobs .. => true
  | .fence .. => true
  | .tmma .. => true
  | .tzero .. => true
  | .tlda .. => true
  | .tsta .. => true
  | .tcvt .. => true
  | .twait .. => true
  | .tprog .. => true
  | .barInit .. => true
  | .arrive .. => true
  | .arriveD .. => true
  | .bwait .. => true
  | .ringPost .. => true
  | .ringPostSize .. => true
  | .ringWait .. => true
  | .vfsend .. => true
  | .vfrecv .. => true
  | .xacq => true
  | .xrel => true
  | .wbase .. => true
  | .coll .. => true
  | .rop .. => true
  | .pint .. => true
  | .eqres .. => true
  | .mfs .. => true
  | .mts .. => true
  | .eretRetry => true
  | .eretCont => true
  | .eretKill => true
  | .cctlClean .. => true
  | .cctlEvict .. => true
  | .tlbinvAll => true
  | .tlbinvCtx .. => true
  | .tlbinvPage .. => true
  | .halt => true

end Sys2Proof
end

