-- ==== Sys2Proof/Config.lean ====
section
/-! DEFINITION. What the manual leaves open, as constants with no body: nothing can be proved of their
values, so a statement holds for every value (assumption log, entries 5 and 6). -/
namespace Sys2Proof.Config

/-- The stream of events: latencies, the environment's inputs and the order of independent events. -/
opaque nextEvent : Nat → Instr

/-- The command processor that executes its next instruction in a step of the stream that names no event. -/
opaque processor : Nat → Nat

/-- The firmware image (R420): the word of issue `n` of the agent of a core. -/
opaque firmware : Nat → Nat → BitVec 32

/-- Free values, one for each place of the counter of free values. -/
opaque freeNat : Nat → Nat

/-- How far the local time of die `d` runs on in step `n` of the stream, in units of 10 ns (R236). -/
opaque elapsed : Nat → Nat → Nat

/-- The uncorrectable error found in step `n` of the stream, if any: its holder, 5 for basin store, and its half
(R331). -/
opaque upset : Nat → Option (Nat × Nat)

/-- The line that a core's instruction cache gives up in step `n` of the stream, if any: core and line. -/
opaque icacheDrop : Nat → Option (Nat × Nat)

/-- The value SFN function `f` delivers for argument `x` where R215 gives a bound only. -/
opaque sfnValue : Nat → BitVec 32 → BitVec 32

/-- Byte `i` of the payload of a flit to peer `p` under its packet counter: the packet's clear header, whose layout R368 does not
give, and its ciphertext. -/
opaque flitPayload (p counter i : Nat) : BitVec 8

/-- A packet of flits of a peer verifies its tag (R368). -/
opaque packetTag (p : Nat) (flits : List (List (BitVec 8))) : Bool

end Sys2Proof.Config
end

