-- ==== Sys2Proof/WellFormed.lean ====
section
/-! DEFINITION. Well-formed instruction words: the rules of check 1 of R145 that the fixed bits of
the opcode table do not already say. An ill-formed word raises the illegal-instruction trap. -/
namespace Sys2Proof

/-- Types and their codes (Table 6-7, R146). -/
inductive NumTy where
  | s8 | s16 | s32 | s64 | z8 | z16 | z32 | z64
  | f32 | f16 | bf16 | f8e4 | f8e5 | sbi8 | sbi4 | tm24
  deriving DecidableEq, Repr, Inhabited

/-- The type of a code (Table 6-7). -/
def NumTy.ofCode (c : BitVec 4) : NumTy :=
  match c.toNat with
  | 0 => .s8 | 1 => .s16 | 2 => .s32 | 3 => .s64 | 4 => .z8 | 5 => .z16 | 6 => .z32 | 7 => .z64
  | 8 => .f32 | 9 => .f16 | 10 => .bf16 | 11 => .f8e4 | 12 => .f8e5 | 13 => .sbi8 | 14 => .sbi4
  | _ => .tm24

/-- The width of one element (Table 2-1). -/
def NumTy.width : NumTy → Nat
  | .s8 | .z8 | .f8e4 | .f8e5 | .sbi8 => 8
  | .s16 | .z16 | .f16 | .bf16 => 16
  | .s32 | .z32 | .f32 => 32
  | .s64 | .z64 => 64
  | .sbi4 => 4
  | .tm24 => 24

def NumTy.isInt : NumTy → Bool
  | .s8 | .s16 | .s32 | .s64 | .z8 | .z16 | .z32 | .z64 => true
  | _ => false

def NumTy.isFloat : NumTy → Bool
  | .f32 | .f16 | .bf16 | .f8e4 | .f8e5 => true
  | _ => false

def NumTy.isSbi : NumTy → Bool
  | .sbi8 | .sbi4 => true
  | _ => false

def NumTy.isSigned : NumTy → Bool
  | .s8 | .s16 | .s32 | .s64 => true
  | _ => false

/-- The pairs CVT and CVTN accept (R190). -/
def cvtLegal (narrowing : Bool) (dt st : NumTy) : Bool :=
  dt != st && (dt.isInt || dt.isFloat) && st != .tm24 &&
  (!st.isSbi || dt.isFloat) &&
  !(narrowing && dt.isFloat && st.isFloat && decide (st.width < dt.width))

/-- Operand placement of CVT and CVTN: pairs for 64-bit types, and the element index (R191). -/
def cvtFields (d a : BitVec 7) (dt st : NumTy) (sel : BitVec 3) : Bool :=
  (dt.width != 64 || d.toNat % 2 == 0) && (st.width != 64 || a.toNat % 2 == 0) &&
  (match st.width with
   | 16 => decide (sel.toNat < 2)
   | 8 => decide (sel.toNat < 4)
   | 4 => true
   | _ => sel.toNat == 0)

/-- A field that names a vector destination, or a vector source held in d: not a broadcast (R131). -/
def vd (f : BitVec 7) : Bool := decide (f.toNat < 96)

/-- A field that names a pair (R133). -/
def even (f : BitVec 7) : Bool := f.toNat % 2 == 0

/-- A field that names a quad (R133). -/
def quad (f : BitVec 7) : Bool := f.toNat % 4 == 0

/-- A member-mask field (R201). -/
def maskField (b : BitVec 7) : Bool := b.toNat == 0 || (decide (96 ≤ b.toNat) && b.toNat % 2 == 0)

/-- om must be 0 under weak ordering (R129). -/
def weakOm (om : BitVec 3) (ord : BitVec 2) : Bool := ord.toNat != 0 || om.toNat == 0

/-- Loads: weak or acquire; stores and reductions: weak or release (Table 13-1). -/
def loadOrd (om : BitVec 3) (ord : BitVec 2) : Bool := weakOm om ord && decide (ord.toNat < 2)
def storeOrd (om : BitVec 3) (ord : BitVec 2) : Bool := weakOm om ord && ord.toNat % 2 == 0

/-- The control nibble of a branch (R129). -/
def ctrlNibble (c : BitVec 4) : Bool := decide (c.toNat < 8) && c.toNat != 4

/-- Sub-operations of the atomics and the alignment of d they need (R143, Table 13-3). -/
def atomFields (wide red : Bool) (d : BitVec 7) (s : BitVec 4) : Bool :=
  let s := s.toNat
  let two := s == 7 || s == 9
  decide (s < 13) && !(wide && s == 10) && !(red && (s == 6 || two)) &&
  (match wide, two with
   | false, false => true
   | false, true => even d
   | true, false => even d
   | true, true => quad d)

/-- The special registers with an assigned index (Table 6-3, Table 18-2): width and access. -/
structure SpecialInfo where
  width : Nat
  rw : Bool
  deriving DecidableEq, Repr

def specialInfo (i : BitVec 12) : Option SpecialInfo :=
  match i.toNat with
  | 0x001 | 0x002 => some ⟨32, true⟩
  | 0x010 => some ⟨32, false⟩
  | 0x011 => some ⟨64, false⟩
  | 0x012 | 0x013 | 0x014 | 0x020 => some ⟨32, false⟩
  | 0x021 => some ⟨64, false⟩
  | 0x030 => some ⟨32, false⟩
  | 0x040 | 0x041 | 0x042 | 0x043 | 0x044 | 0x045 | 0x046 | 0x047 => some ⟨32, true⟩
  | 0x050 | 0x060 | 0x061 => some ⟨32, false⟩
  | 0x070 => some ⟨64, false⟩
  | 0x080 => some ⟨32, false⟩
  | 0x800 => some ⟨32, true⟩
  | 0x801 | 0x802 | 0x803 | 0x804 => some ⟨32, false⟩
  | 0x805 | 0x806 => some ⟨64, false⟩
  | 0x807 => some ⟨32, false⟩
  | 0x808 | 0x809 => some ⟨64, false⟩
  | _ => none

/-- MFS and MTS: an assigned index, access, and the form of d. In the firmware agent d names a
uniform register, so the rule on broadcasts does not apply there (R437). -/
def specialFields (agent write : Bool) (d : BitVec 7) (i : BitVec 12) : Bool :=
  match specialInfo i with
  | none => false
  | some x => (!write || x.rw) && (agent || vd d) && (x.width != 64 || even d)

/-- The rules of check 1 (R145) on the fields of a word. `agent` says that the issuing rill is the
firmware agent, whose MFS and MTS decode d under R132 (R437). Events have no word. -/
def Instr.wf (agent : Bool) : Instr → Bool
  | .bra c _ => ctrlNibble c
  | .call c _ => ctrlNibble c
  | .waitc t _ _ c _ => (t.toNat == 0) == (c.toNat == 15)
  | .spawn a _ _ _ => even a
  | .vtok _ _ b => decide (b.toNat < 64) || b.toNat == 127
  | .iadd d _ _ _ _ => vd d
  | .isub d _ _ _ _ => vd d
  | .iadd64 d a b _ _ => vd d && even d && even a && even b
  | .imul24 d _ _ _ _ _ => vd d
  | .imul24h d _ _ _ _ _ => vd d
  | .imul32 d _ _ _ _ => vd d
  | .imulh d _ _ _ _ _ => vd d
  | .imad24 d _ _ _ _ _ => vd d
  | .iand d _ _ _ _ => vd d
  | .ior d _ _ _ _ => vd d
  | .ixor d _ _ _ _ => vd d
  | .ishl d _ _ _ _ => vd d
  | .irot d _ _ _ _ => vd d
  | .ishr d _ _ _ _ => vd d
  | .isar d _ _ _ _ => vd d
  | .imin d _ _ _ _ _ => vd d
  | .imax d _ _ _ _ _ => vd d
  | .icmp c _ _ _ _ _ _ => decide (c.toNat < 6)
  | .isel d _ _ _ _ => vd d
  | .mov d _ => vd d
  | .popc d _ => vd d
  | .clz d _ => vd d
  | .brev d _ => vd d
  | .iabs d _ => vd d
  | .bfeZ32 d _ _ => vd d
  | .bfeS32 d _ _ => vd d
  | .bfi d _ _ => vd d
  | .idot4S8 d _ _ => vd d
  | .idot4Z8 d _ _ => vd d
  | .li d _ => vd d
  | .lih d _ => vd d
  | .fadd d _ _ _ _ _ => vd d
  | .fsub d _ _ _ _ _ => vd d
  | .fmul d _ _ _ _ _ => vd d
  | .ffma d _ _ _ _ _ => vd d
  | .fmin d _ _ _ _ _ => vd d
  | .fmax d _ _ _ _ _ => vd d
  | .fclass d _ _ _ => vd d
  | .frnd d _ b _ _ _ => vd d && decide (b.toNat < 5)
  | .fscale d _ _ _ _ _ => vd d
  | .fadd2F16 d _ _ _ _ _ => vd d
  | .fadd2Bf16 d _ _ _ _ _ => vd d
  | .ffma2F16 d _ _ _ _ _ => vd d
  | .ffma2Bf16 d _ _ _ _ _ => vd d
  | .fdot2F16 d _ _ _ _ _ => vd d
  | .fdot2Bf16 d _ _ _ _ _ => vd d
  | .cvt d a t s e => vd d && cvtLegal false (.ofCode t) (.ofCode s) && cvtFields d a (.ofCode t) (.ofCode s) e
  | .cvtn d a t s e => vd d && cvtLegal true (.ofCode t) (.ofCode s) && cvtFields d a (.ofCode t) (.ofCode s) e
  | .packF8e4 d _ _ _ _ _ => vd d
  | .packF8e5 d _ _ _ _ _ => vd d
  | .unpack d _ b _ => vd d && ((b.toNat == 8 && quad d) || ((b.toNat == 9 || b.toNat == 10) && even d))
  | .qblk d _ _ => vd d
  | .sfn d _ f _ _ _ => vd d && decide (f.toNat < 10)
  | .vote d _ b s => maskField b && ((decide (s.toNat < 2) && decide (d.toNat < 4)) || (s.toNat == 2 && vd d && even d))
  | .shfl d _ _ s => vd d && decide (s.toNat < 4)
  | .perm d _ p s => vd d && (decide (s.toNat < 3) || (s.toNat == 3 && p.toNat == 0))
  | .redx d _ b s => vd d && maskField b && decide (s.toNat < 8)
  | .scanx d _ b _ => vd d && maskField b
  | .matchx d _ b s => vd d && maskField b && decide (s.toNat < 2)
  | .elect _ b => maskField b
  | .ld8 d a o _ r _ => vd d && even a && loadOrd o r
  | .ld16 d a o _ r _ => vd d && even a && loadOrd o r
  | .ld32 d a o _ r _ => vd d && even a && loadOrd o r
  | .ld64 d a o _ r _ => vd d && even a && loadOrd o r && even d
  | .ld128 d a o _ r _ => vd d && even a && loadOrd o r && quad d
  | .st8 d a o _ r _ => vd d && even a && storeOrd o r
  | .st16 d a o _ r _ => vd d && even a && storeOrd o r
  | .st32 d a o _ r _ => vd d && even a && storeOrd o r
  | .st64 d a o _ r _ => vd d && even a && storeOrd o r && even d
  | .st128 d a o _ r _ => vd d && even a && storeOrd o r && quad d
  | .ldk d a o _ r z => even a && loadOrd o r && (z.toNat == 0 || even d)
  | .stk d a o _ r z => even a && storeOrd o r && (z.toNat == 0 || even d)
  | .ldl d _ z _ _ => vd d && decide (z.toNat < 3) && (z.toNat != 1 || even d) && (z.toNat != 2 || quad d)
  | .stl d _ z _ _ => vd d && decide (z.toNat < 3) && (z.toNat != 1 || even d) && (z.toNat != 2 || quad d)
  | .atom32 d a o s r _ => vd d && even a && weakOm o r && atomFields false false d s
  | .atom64 d a o s r _ => vd d && even a && weakOm o r && atomFields true false d s
  | .red32 d a o s r _ => vd d && even a && storeOrd o r && atomFields false true d s
  | .red64 d a o s r _ => vd d && even a && storeOrd o r && atomFields true true d s
  | .acopy _ d a _ _ _ _ => vd d && even a
  | .rcopy a _ _ => even a
  | .pref a _ _ => even a
  | .prefSc d a _ _ => vd d && quad d && even a
  | .invl1 a _ _ => even a
  | .fence k m => decide (k.toNat < 3) && m.toNat != 0
  | .tmma a _ _ _ => even a
  | .tlda t s a _ _ _ => quad a && (s.toNat == 15) == (t.toNat == 3)
  | .tsta t s a _ _ _ => quad a && (s.toNat == 15) == (t.toNat == 3)
  | .tcvt _ s a _ _ _ => quad a && s.toNat != 15
  | .tprog d _ _ => vd d
  | .arrive d _ _ => vd d
  | .vfrecv d => vd d
  | .wbase w k => (decide (w.toNat < 11) || w.toNat == 15) && (decide (k.toNat < 9) || k.toNat == 15)
  | .coll a _ _ => even a
  | .rop a _ _ => even a
  | .pint a _ => even a
  | .mfs d i _ => specialFields agent false d i
  | .mts d i _ => specialFields agent true d i
  | .cctlClean d => quad d
  | .cctlEvict d => quad d
  | .tlbinvPage d => quad d
  | .kbra .. => true
  | .brx .. => true
  | .callx .. => true
  | .ret .. => true
  | .exit .. => true
  | .nop => true
  | .yield => true
  | .regn => true
  | .trap .. => true
  | .brk .. => true
  | .kadd .. => true
  | .ksub .. => true
  | .kmul24 .. => true
  | .kmul32 .. => true
  | .kand .. => true
  | .kor .. => true
  | .kxor .. => true
  | .kshl .. => true
  | .kshr .. => true
  | .ksar .. => true
  | .kmin .. => true
  | .kmax .. => true
  | .ksel .. => true
  | .kcmp .. => true
  | .kli .. => true
  | .klih .. => true
  | .fcmp .. => true
  | .crossLaneComplete .. => true
  | .invl1All .. => true
  | .setobs .. => true
  | .tzero .. => true
  | .twait .. => true
  | .barInit .. => true
  | .arriveD .. => true
  | .bwait .. => true
  | .ringPost .. => true
  | .ringPostSize .. => true
  | .ringWait .. => true
  | .vfsend .. => true
  | .xacq => true
  | .xrel => true
  | .eqres .. => true
  | .eretRetry => true
  | .eretCont => true
  | .eretKill => true
  | .tlbinvAll => true
  | .tlbinvCtx .. => true
  | .halt => true
  | .waitEnd .. => true
  | .issueDrawCycle .. => true
  | .reservationJoin .. => true
  | .epochRefill .. => true
  | .priceCommit .. => true
  | .corePriceSwitch .. => true
  | .dcapWrite .. => true
  | .qtailWrite .. => true
  | .qheadWrite .. => true
  | .haltClear .. => true
  | .abort .. => true
  | .registerWrite .. => true
  | .arbiterGrant .. => true
  | .fenceObjectRead .. => true
  | .prologueLimit .. => true
  | .windowInstall => true
  | .completionCountReport .. => true
  | .launchRetire .. => true
  | .placementEvaluation .. => true
  | .candidateWaitLimit .. => true
  | .groupStart .. => true
  | .spanReservationRequest .. => true
  | .spanReservationReply .. => true
  | .unitPlacedReport .. => true
  | .maskReport .. => true
  | .loadReturn .. => true
  | .storeVisible .. => true
  | .atomicPerform .. => true
  | .vtokWrite .. => true
  | .copyLineWrite .. => true
  | .deferredArrivalCount .. => true
  | .rcopyUnit .. => true
  | .rcopyComplete .. => true
  | .tileOperandLine .. => true
  | .tileKstep .. => true
  | .tileOpComplete .. => true
  | .barrierDoneMessage .. => true
  | .flumeEntryDelivery .. => true
  | .flumeCredit .. => true
  | .eventRecordWrite => true
  | .eventResolve .. => true
  | .rillRetire .. => true
  | .preemptQueue .. => true
  | .preemptRestore .. => true
  | .contextSaveComplete .. => true
  | .deferredPreemption => true
  | .gateLayer .. => true
  | .restoreLayer .. => true
  | .gatePowerOff .. => true
  | .restoreComplete .. => true
  | .debugHaltRequest .. => true
  | .debugHalted .. => true
  | .debugRun .. => true
  | .linkResponseWatchdog .. => true
  | .packageReset => true
  | .attestationAttempt .. => true
  | .attestationTimeout .. => true
  | .linkkey .. => true
  | .dieOpen .. => true
  | .rollRequest .. => true
  | .keyRolloverCount .. => true
  | .oldKeyErase .. => true
  | .linkTagFail .. => true
  | .dieResetRequest .. => true
  | .drainComplete .. => true
  | .drainLimit .. => true
  | .doeRequest .. => true
  | .peerAttestation .. => true
  | .pstepAssert => true
  | .pstepRelease => true
  | .powerStepGo .. => true
  | .pcapWrite .. => true
  | .weirPeriod .. => true
  | .peerIntentMessage .. => true
  | .peerIntentLapse .. => true
  | .fselWrite .. => true
  | .relockDone .. => true
  | .droopTrip .. => true
  | .chargeUpdate .. => true
  | .thermalSample .. => true
  | .powerFail => true
  | .saveItemComplete .. => true
  | .saveResume => true
  | .saveDiscard => true
  | .pageWalk .. => true
  | .bsizeWrite .. => true
  | .bsizeChangeDone .. => true
  | .treqs .. => true
  | .treqx .. => true
  | .tok .. => true
  | .transientRequestTimeout .. => true
  | .preq .. => true
  | .pact .. => true
  | .pack .. => true
  | .pdone .. => true
  | .pdeact .. => true
  | .lineEvict .. => true
  | .coherenceRetransmit .. => true
  | .hostMemRead .. => true
  | .hostMemWrite .. => true
  | .hostWriteback .. => true
  | .birspi .. => true
  | .elmLossOfLight .. => true
  | .elmLightReturn .. => true
  | .elmenWrite .. => true
  | .dataFlit .. => true
  | .ackFlit .. => true
  | .pathControlFlit .. => true
  | .pathRejoin .. => true
  | .replayTimeout .. => true
  | .setAnnouncement => true
  | .holdMessage .. => true
  | .remoteRequestAbandon .. => true
  | .sluiceRequest .. => true
  | .remoteResponse .. => true
  | .collectiveSignalRead .. => true
  | .collectiveChunk .. => true
  | .collectiveEnd .. => true
  | .blackboxRecord => true
  | .blackboxClear => true
  | .blackboxMctpRead .. => true
  | .bootRecordClear => true
  | .powerRemoved => true

end Sys2Proof
end

