-- ==== Sys2Proof/Decode.lean ====
section
/-! DEFINITION. Decoding of instruction words, and the encoder, both from the table of opcodes
(R128, R142, R143). The decoder reads fields; the other rules of check 1 (R145) are in WellFormed. -/
namespace Sys2Proof

/-- The instruction of major `maj` (R142) that the 32-bit word `w` holds, if its fixed bits and its
sub-operation (R143) are those of one. -/
def decodeMajor (maj w : Nat) : Option Instr :=
  match maj with
  | 0x01 =>
    some (.bra (fld 4 21 w) (fld 21 0 w))
  | 0x02 =>
    some (.call (fld 4 21 w) (fld 21 0 w))
  | 0x03 =>
    some (.kbra (fld 1 24 w) (fld 3 21 w) (fld 21 0 w))
  | 0x04 =>
    if bitsOf 24 18 w = 0 ∧ bitsOf 10 4 w = 0 ∧ bitsOf 2 2 w = 0 then some (.brx (fld 7 11 w) (fld 1 3 w) (fld 2 0 w))
    else none
  | 0x05 =>
    if bitsOf 24 18 w = 0 ∧ bitsOf 10 4 w = 0 ∧ bitsOf 2 2 w = 0 then some (.callx (fld 7 11 w) (fld 1 3 w) (fld 2 0 w))
    else none
  | 0x06 =>
    if bitsOf 24 2 w = 0 then some (.ret (fld 2 0 w))
    else none
  | 0x07 =>
    if bitsOf 24 2 w = 0 then some (.exit (fld 2 0 w))
    else none
  | 0x08 =>
    if bitsOf 24 0 w = 0 then some .nop
    else none
  | 0x09 =>
    if bitsOf 24 0 w = 0 then some .yield
    else none
  | 0x0A =>
    if bitsOf 24 0 w = 0 then some .regn
    else none
  | 0x0B =>
    if bitsOf 24 18 w = 0 then some (.trap (fld 18 0 w))
    else none
  | 0x0C =>
    if bitsOf 24 18 w = 0 then some (.brk (fld 18 0 w))
    else none
  | 0x0D =>
    if bitsOf 20 18 w = 0 ∧ bitsOf 1 0 w = 0 then some (.waitc (fld 4 21 w) (fld 4 14 w) (fld 4 10 w) (fld 4 6 w) (fld 4 2 w))
    else none
  | 0x0E =>
    if bitsOf 24 18 w = 0 ∧ bitsOf 2 2 w = 0 then some (.spawn (fld 7 11 w) (fld 7 4 w) (fld 1 3 w) (fld 2 0 w))
    else none
  | 0x10 =>
    if bitsOf 2 0 w = 0 then some (.kadd (fld 7 18 w) (fld 7 11 w) (fld 7 4 w) (fld 1 3 w))
    else none
  | 0x11 =>
    if bitsOf 2 0 w = 0 then some (.ksub (fld 7 18 w) (fld 7 11 w) (fld 7 4 w) (fld 1 3 w))
    else none
  | 0x12 =>
    if bitsOf 1 0 w = 0 then some (.kmul24 (fld 7 18 w) (fld 7 11 w) (fld 7 4 w) (fld 1 3 w) (fld 1 2 w))
    else none
  | 0x13 =>
    if bitsOf 2 0 w = 0 then some (.kmul32 (fld 7 18 w) (fld 7 11 w) (fld 7 4 w) (fld 1 3 w))
    else none
  | 0x14 =>
    if bitsOf 2 0 w = 0 then some (.kand (fld 7 18 w) (fld 7 11 w) (fld 7 4 w) (fld 1 3 w))
    else none
  | 0x15 =>
    if bitsOf 2 0 w = 0 then some (.kor (fld 7 18 w) (fld 7 11 w) (fld 7 4 w) (fld 1 3 w))
    else none
  | 0x16 =>
    if bitsOf 2 0 w = 0 then some (.kxor (fld 7 18 w) (fld 7 11 w) (fld 7 4 w) (fld 1 3 w))
    else none
  | 0x17 =>
    if bitsOf 2 0 w = 0 then some (.kshl (fld 7 18 w) (fld 7 11 w) (fld 7 4 w) (fld 1 3 w))
    else none
  | 0x18 =>
    if bitsOf 2 0 w = 0 then some (.kshr (fld 7 18 w) (fld 7 11 w) (fld 7 4 w) (fld 1 3 w))
    else if bitsOf 2 0 w = 4 then some (.ksar (fld 7 18 w) (fld 7 11 w) (fld 7 4 w) (fld 1 3 w))
    else none
  | 0x19 =>
    if bitsOf 1 0 w = 0 then some (.kmin (fld 7 18 w) (fld 7 11 w) (fld 7 4 w) (fld 1 3 w) (fld 1 2 w))
    else none
  | 0x1A =>
    if bitsOf 1 0 w = 0 then some (.kmax (fld 7 18 w) (fld 7 11 w) (fld 7 4 w) (fld 1 3 w) (fld 1 2 w))
    else none
  | 0x1B =>
    if bitsOf 2 0 w = 0 then some (.ksel (fld 7 18 w) (fld 7 11 w) (fld 7 4 w) (fld 1 3 w))
    else none
  | 0x1C =>
    some (.kcmp (fld 7 18 w) (fld 7 11 w) (fld 7 4 w) (fld 1 3 w) (fld 1 2 w) (fld 2 0 w))
  | 0x1D =>
    some (.kli (fld 7 18 w) (fld 18 0 w))
  | 0x1E =>
    if bitsOf 17 14 w = 0 then some (.klih (fld 7 18 w) (fld 14 0 w))
    else none
  | 0x1F =>
    if bitsOf 3 0 w = 0 then some (.vtok (fld 7 18 w) (fld 7 11 w) (fld 7 4 w))
    else none
  | 0x20 =>
    if bitsOf 2 2 w = 0 then some (.iadd (fld 7 18 w) (fld 7 11 w) (fld 7 4 w) (fld 1 3 w) (fld 2 0 w))
    else none
  | 0x21 =>
    if bitsOf 2 2 w = 0 then some (.isub (fld 7 18 w) (fld 7 11 w) (fld 7 4 w) (fld 1 3 w) (fld 2 0 w))
    else none
  | 0x22 =>
    if bitsOf 2 2 w = 0 then some (.iadd64 (fld 7 18 w) (fld 7 11 w) (fld 7 4 w) (fld 1 3 w) (fld 2 0 w))
    else none
  | 0x23 =>
    some (.imul24 (fld 7 18 w) (fld 7 11 w) (fld 7 4 w) (fld 1 3 w) (fld 1 2 w) (fld 2 0 w))
  | 0x24 =>
    some (.imul24h (fld 7 18 w) (fld 7 11 w) (fld 7 4 w) (fld 1 3 w) (fld 1 2 w) (fld 2 0 w))
  | 0x25 =>
    if bitsOf 2 2 w = 0 then some (.imul32 (fld 7 18 w) (fld 7 11 w) (fld 7 4 w) (fld 1 3 w) (fld 2 0 w))
    else none
  | 0x26 =>
    some (.imulh (fld 7 18 w) (fld 7 11 w) (fld 7 4 w) (fld 1 3 w) (fld 1 2 w) (fld 2 0 w))
  | 0x27 =>
    some (.imad24 (fld 7 18 w) (fld 7 11 w) (fld 7 4 w) (fld 1 3 w) (fld 1 2 w) (fld 2 0 w))
  | 0x28 =>
    if bitsOf 2 2 w = 0 then some (.iand (fld 7 18 w) (fld 7 11 w) (fld 7 4 w) (fld 1 3 w) (fld 2 0 w))
    else none
  | 0x29 =>
    if bitsOf 2 2 w = 0 then some (.ior (fld 7 18 w) (fld 7 11 w) (fld 7 4 w) (fld 1 3 w) (fld 2 0 w))
    else none
  | 0x2A =>
    if bitsOf 2 2 w = 0 then some (.ixor (fld 7 18 w) (fld 7 11 w) (fld 7 4 w) (fld 1 3 w) (fld 2 0 w))
    else none
  | 0x2B =>
    if bitsOf 2 2 w = 0 then some (.ishl (fld 7 18 w) (fld 7 11 w) (fld 7 4 w) (fld 1 3 w) (fld 2 0 w))
    else if bitsOf 2 2 w = 1 then some (.irot (fld 7 18 w) (fld 7 11 w) (fld 7 4 w) (fld 1 3 w) (fld 2 0 w))
    else none
  | 0x2C =>
    if bitsOf 2 2 w = 0 then some (.ishr (fld 7 18 w) (fld 7 11 w) (fld 7 4 w) (fld 1 3 w) (fld 2 0 w))
    else if bitsOf 2 2 w = 1 then some (.isar (fld 7 18 w) (fld 7 11 w) (fld 7 4 w) (fld 1 3 w) (fld 2 0 w))
    else none
  | 0x2D =>
    some (.imin (fld 7 18 w) (fld 7 11 w) (fld 7 4 w) (fld 1 3 w) (fld 1 2 w) (fld 2 0 w))
  | 0x2E =>
    some (.imax (fld 7 18 w) (fld 7 11 w) (fld 7 4 w) (fld 1 3 w) (fld 1 2 w) (fld 2 0 w))
  | 0x2F =>
    if bitsOf 24 23 w = 0 then some (.icmp (fld 3 20 w) (fld 2 18 w) (fld 7 11 w) (fld 7 4 w) (fld 1 3 w) (fld 1 2 w) (fld 2 0 w))
    else none
  | 0x30 =>
    if bitsOf 2 2 w = 0 then some (.isel (fld 7 18 w) (fld 7 11 w) (fld 7 4 w) (fld 1 3 w) (fld 2 0 w))
    else none
  | 0x31 =>
    if bitsOf 10 0 w = 0 then some (.mov (fld 7 18 w) (fld 7 11 w))
    else if bitsOf 10 0 w = 1 then some (.popc (fld 7 18 w) (fld 7 11 w))
    else if bitsOf 10 0 w = 2 then some (.clz (fld 7 18 w) (fld 7 11 w))
    else if bitsOf 10 0 w = 3 then some (.brev (fld 7 18 w) (fld 7 11 w))
    else if bitsOf 10 0 w = 4 then some (.iabs (fld 7 18 w) (fld 7 11 w))
    else if bitsOf 3 0 w = 5 then some (.bfeZ32 (fld 7 18 w) (fld 7 11 w) (fld 7 4 w))
    else if bitsOf 3 0 w = 6 then some (.bfeS32 (fld 7 18 w) (fld 7 11 w) (fld 7 4 w))
    else if bitsOf 3 0 w = 7 then some (.bfi (fld 7 18 w) (fld 7 11 w) (fld 7 4 w))
    else if bitsOf 3 0 w = 8 then some (.idot4S8 (fld 7 18 w) (fld 7 11 w) (fld 7 4 w))
    else if bitsOf 3 0 w = 9 then some (.idot4Z8 (fld 7 18 w) (fld 7 11 w) (fld 7 4 w))
    else none
  | 0x32 =>
    some (.li (fld 7 18 w) (fld 18 0 w))
  | 0x33 =>
    if bitsOf 17 14 w = 0 then some (.lih (fld 7 18 w) (fld 14 0 w))
    else none
  | 0x34 =>
    some (.fadd (fld 7 18 w) (fld 7 11 w) (fld 7 4 w) (fld 1 3 w) (fld 1 2 w) (fld 2 0 w))
  | 0x35 =>
    some (.fsub (fld 7 18 w) (fld 7 11 w) (fld 7 4 w) (fld 1 3 w) (fld 1 2 w) (fld 2 0 w))
  | 0x36 =>
    some (.fmul (fld 7 18 w) (fld 7 11 w) (fld 7 4 w) (fld 1 3 w) (fld 1 2 w) (fld 2 0 w))
  | 0x37 =>
    some (.ffma (fld 7 18 w) (fld 7 11 w) (fld 7 4 w) (fld 1 3 w) (fld 1 2 w) (fld 2 0 w))
  | 0x38 =>
    some (.fmin (fld 7 18 w) (fld 7 11 w) (fld 7 4 w) (fld 1 3 w) (fld 1 2 w) (fld 2 0 w))
  | 0x39 =>
    some (.fmax (fld 7 18 w) (fld 7 11 w) (fld 7 4 w) (fld 1 3 w) (fld 1 2 w) (fld 2 0 w))
  | 0x3A =>
    if bitsOf 24 23 w = 0 then some (.fcmp (fld 3 20 w) (fld 2 18 w) (fld 7 11 w) (fld 7 4 w) (fld 1 3 w) (fld 1 2 w) (fld 2 0 w))
    else none
  | 0x3B =>
    if bitsOf 10 4 w = 0 ∧ bitsOf 2 2 w = 0 then some (.fclass (fld 7 18 w) (fld 7 11 w) (fld 1 3 w) (fld 2 0 w))
    else none
  | 0x3C =>
    some (.frnd (fld 7 18 w) (fld 7 11 w) (fld 7 4 w) (fld 1 3 w) (fld 1 2 w) (fld 2 0 w))
  | 0x3D =>
    some (.fscale (fld 7 18 w) (fld 7 11 w) (fld 7 4 w) (fld 1 3 w) (fld 1 2 w) (fld 2 0 w))
  | 0x3E =>
    some (.fadd2F16 (fld 7 18 w) (fld 7 11 w) (fld 7 4 w) (fld 1 3 w) (fld 1 2 w) (fld 2 0 w))
  | 0x3F =>
    some (.fadd2Bf16 (fld 7 18 w) (fld 7 11 w) (fld 7 4 w) (fld 1 3 w) (fld 1 2 w) (fld 2 0 w))
  | 0x40 =>
    some (.ffma2F16 (fld 7 18 w) (fld 7 11 w) (fld 7 4 w) (fld 1 3 w) (fld 1 2 w) (fld 2 0 w))
  | 0x41 =>
    some (.ffma2Bf16 (fld 7 18 w) (fld 7 11 w) (fld 7 4 w) (fld 1 3 w) (fld 1 2 w) (fld 2 0 w))
  | 0x42 =>
    some (.fdot2F16 (fld 7 18 w) (fld 7 11 w) (fld 7 4 w) (fld 1 3 w) (fld 1 2 w) (fld 2 0 w))
  | 0x43 =>
    some (.fdot2Bf16 (fld 7 18 w) (fld 7 11 w) (fld 7 4 w) (fld 1 3 w) (fld 1 2 w) (fld 2 0 w))
  | 0x4C =>
    some (.cvt (fld 7 18 w) (fld 7 11 w) (fld 4 7 w) (fld 4 3 w) (fld 3 0 w))
  | 0x4D =>
    some (.cvtn (fld 7 18 w) (fld 7 11 w) (fld 4 7 w) (fld 4 3 w) (fld 3 0 w))
  | 0x4E =>
    some (.packF8e4 (fld 7 18 w) (fld 7 11 w) (fld 7 4 w) (fld 1 3 w) (fld 1 2 w) (fld 2 0 w))
  | 0x4F =>
    some (.packF8e5 (fld 7 18 w) (fld 7 11 w) (fld 7 4 w) (fld 1 3 w) (fld 1 2 w) (fld 2 0 w))
  | 0x50 =>
    if bitsOf 3 1 w = 0 then some (.unpack (fld 7 18 w) (fld 7 11 w) (fld 7 4 w) (fld 1 0 w))
    else none
  | 0x51 =>
    if bitsOf 10 1 w = 0 then some (.qblk (fld 7 18 w) (fld 7 11 w) (fld 1 0 w))
    else none
  | 0x54 =>
    some (.sfn (fld 7 18 w) (fld 7 11 w) (fld 7 4 w) (fld 1 3 w) (fld 1 2 w) (fld 2 0 w))
  | 0x58 =>
    some (.vote (fld 7 18 w) (fld 7 11 w) (fld 7 4 w) (fld 4 0 w))
  | 0x59 =>
    some (.shfl (fld 7 18 w) (fld 7 11 w) (fld 7 4 w) (fld 4 0 w))
  | 0x5A =>
    if bitsOf 10 10 w = 0 then some (.perm (fld 7 18 w) (fld 7 11 w) (fld 6 4 w) (fld 4 0 w))
    else none
  | 0x5B =>
    some (.redx (fld 7 18 w) (fld 7 11 w) (fld 7 4 w) (fld 4 0 w))
  | 0x5C =>
    some (.scanx (fld 7 18 w) (fld 7 11 w) (fld 7 4 w) (fld 4 0 w))
  | 0x5D =>
    some (.matchx (fld 7 18 w) (fld 7 11 w) (fld 7 4 w) (fld 4 0 w))
  | 0x5E =>
    if bitsOf 24 20 w = 0 ∧ bitsOf 17 11 w = 0 ∧ bitsOf 3 0 w = 0 then some (.elect (fld 2 18 w) (fld 7 4 w))
    else none
  | 0x60 =>
    some (.ld8 (fld 7 18 w) (fld 7 11 w) (fld 3 8 w) (fld 4 4 w) (fld 2 2 w) (fld 2 0 w))
  | 0x61 =>
    some (.ld16 (fld 7 18 w) (fld 7 11 w) (fld 3 8 w) (fld 4 4 w) (fld 2 2 w) (fld 2 0 w))
  | 0x62 =>
    some (.ld32 (fld 7 18 w) (fld 7 11 w) (fld 3 8 w) (fld 4 4 w) (fld 2 2 w) (fld 2 0 w))
  | 0x63 =>
    some (.ld64 (fld 7 18 w) (fld 7 11 w) (fld 3 8 w) (fld 4 4 w) (fld 2 2 w) (fld 2 0 w))
  | 0x64 =>
    some (.ld128 (fld 7 18 w) (fld 7 11 w) (fld 3 8 w) (fld 4 4 w) (fld 2 2 w) (fld 2 0 w))
  | 0x65 =>
    some (.st8 (fld 7 18 w) (fld 7 11 w) (fld 3 8 w) (fld 4 4 w) (fld 2 2 w) (fld 2 0 w))
  | 0x66 =>
    some (.st16 (fld 7 18 w) (fld 7 11 w) (fld 3 8 w) (fld 4 4 w) (fld 2 2 w) (fld 2 0 w))
  | 0x67 =>
    some (.st32 (fld 7 18 w) (fld 7 11 w) (fld 3 8 w) (fld 4 4 w) (fld 2 2 w) (fld 2 0 w))
  | 0x68 =>
    some (.st64 (fld 7 18 w) (fld 7 11 w) (fld 3 8 w) (fld 4 4 w) (fld 2 2 w) (fld 2 0 w))
  | 0x69 =>
    some (.st128 (fld 7 18 w) (fld 7 11 w) (fld 3 8 w) (fld 4 4 w) (fld 2 2 w) (fld 2 0 w))
  | 0x6A =>
    if bitsOf 0 0 w = 0 then some (.ldk (fld 7 18 w) (fld 7 11 w) (fld 3 8 w) (fld 4 4 w) (fld 2 2 w) (fld 1 1 w))
    else if bitsOf 0 0 w = 1 then some (.stk (fld 7 18 w) (fld 7 11 w) (fld 3 8 w) (fld 4 4 w) (fld 2 2 w) (fld 1 1 w))
    else none
  | 0x6B =>
    if bitsOf 10 10 w = 0 ∧ bitsOf 3 2 w = 0 then some (.ldl (fld 7 18 w) (fld 7 11 w) (fld 2 8 w) (fld 4 4 w) (fld 2 0 w))
    else if bitsOf 10 10 w = 1 ∧ bitsOf 3 2 w = 0 then some (.stl (fld 7 18 w) (fld 7 11 w) (fld 2 8 w) (fld 4 4 w) (fld 2 0 w))
    else none
  | 0x6C =>
    some (.atom32 (fld 7 18 w) (fld 7 11 w) (fld 3 8 w) (fld 4 4 w) (fld 2 2 w) (fld 2 0 w))
  | 0x6D =>
    some (.atom64 (fld 7 18 w) (fld 7 11 w) (fld 3 8 w) (fld 4 4 w) (fld 2 2 w) (fld 2 0 w))
  | 0x6E =>
    some (.red32 (fld 7 18 w) (fld 7 11 w) (fld 3 8 w) (fld 4 4 w) (fld 2 2 w) (fld 2 0 w))
  | 0x6F =>
    some (.red64 (fld 7 18 w) (fld 7 11 w) (fld 3 8 w) (fld 4 4 w) (fld 2 2 w) (fld 2 0 w))
  | 0x70 =>
    some (.acopy (fld 1 25 w) (fld 7 18 w) (fld 7 11 w) (fld 7 4 w) (fld 1 3 w) (fld 1 2 w) (fld 2 0 w))
  | 0x71 =>
    some (.acopy (fld 1 25 w) (fld 7 18 w) (fld 7 11 w) (fld 7 4 w) (fld 1 3 w) (fld 1 2 w) (fld 2 0 w))
  | 0x72 =>
    if bitsOf 24 18 w = 0 ∧ bitsOf 10 4 w = 0 ∧ bitsOf 2 2 w = 0 then some (.rcopy (fld 7 11 w) (fld 1 3 w) (fld 2 0 w))
    else if bitsOf 24 18 w = 0 ∧ bitsOf 10 4 w = 1 ∧ bitsOf 2 2 w = 0 then some (.pref (fld 7 11 w) (fld 1 3 w) (fld 2 0 w))
    else if bitsOf 10 4 w = 1 ∧ bitsOf 2 2 w = 1 then some (.prefSc (fld 7 18 w) (fld 7 11 w) (fld 1 3 w) (fld 2 0 w))
    else if bitsOf 24 18 w = 0 ∧ bitsOf 10 4 w = 2 ∧ bitsOf 2 2 w = 0 then some (.invl1 (fld 7 11 w) (fld 1 3 w) (fld 2 0 w))
    else if bitsOf 24 2 w = 9 then some (.invl1All (fld 2 0 w))
    else if bitsOf 24 21 w = 0 ∧ bitsOf 10 4 w = 3 ∧ bitsOf 2 2 w = 0 then some (.setobs (fld 3 18 w) (fld 7 11 w) (fld 1 3 w) (fld 2 0 w))
    else none
  | 0x73 =>
    if bitsOf 24 10 w = 0 then some (.fence (fld 2 8 w) (fld 8 0 w))
    else none
  | 0x74 =>
    if bitsOf 24 18 w = 0 ∧ bitsOf 10 4 w = 0 then some (.tmma (fld 7 11 w) (fld 1 3 w) (fld 1 2 w) (fld 2 0 w))
    else none
  | 0x75 =>
    if bitsOf 24 22 w = 0 ∧ bitsOf 17 3 w = 0 then some (.tzero (fld 4 18 w) (fld 1 2 w) (fld 2 0 w))
    else if bitsOf 24 24 w = 0 ∧ bitsOf 10 4 w = 1 then some (.tlda (fld 2 22 w) (fld 4 18 w) (fld 7 11 w) (fld 1 3 w) (fld 1 2 w) (fld 2 0 w))
    else if bitsOf 24 24 w = 0 ∧ bitsOf 10 4 w = 2 then some (.tsta (fld 2 22 w) (fld 4 18 w) (fld 7 11 w) (fld 1 3 w) (fld 1 2 w) (fld 2 0 w))
    else if bitsOf 24 24 w = 0 ∧ bitsOf 10 4 w = 3 then some (.tcvt (fld 2 22 w) (fld 4 18 w) (fld 7 11 w) (fld 1 3 w) (fld 1 2 w) (fld 2 0 w))
    else if bitsOf 24 3 w = 8 then some (.twait (fld 1 2 w) (fld 2 0 w))
    else if bitsOf 17 3 w = 10 then some (.tprog (fld 7 18 w) (fld 1 2 w) (fld 2 0 w))
    else none
  | 0x78 =>
    if bitsOf 24 18 w = 0 ∧ bitsOf 3 0 w = 0 then some (.barInit (fld 7 11 w) (fld 7 4 w))
    else if bitsOf 3 0 w = 1 then some (.arrive (fld 7 18 w) (fld 7 11 w) (fld 7 4 w))
    else if bitsOf 24 20 w = 0 ∧ bitsOf 3 0 w = 2 then some (.arriveD (fld 2 18 w) (fld 7 11 w) (fld 7 4 w))
    else if bitsOf 24 18 w = 0 ∧ bitsOf 3 0 w = 3 then some (.bwait (fld 7 11 w) (fld 7 4 w))
    else none
  | 0x79 =>
    if bitsOf 24 22 w = 0 ∧ bitsOf 17 0 w = 0 then some (.ringPost (fld 4 18 w))
    else if bitsOf 24 22 w = 1 ∧ bitsOf 17 15 w = 0 ∧ bitsOf 10 0 w = 0 then some (.ringPostSize (fld 4 18 w) (fld 4 11 w))
    else if bitsOf 24 22 w = 0 ∧ bitsOf 10 0 w = 1 then some (.ringWait (fld 4 18 w) (fld 7 11 w))
    else none
  | 0x7A =>
    if bitsOf 24 18 w = 0 ∧ bitsOf 10 0 w = 0 then some (.vfsend (fld 7 11 w))
    else if bitsOf 17 0 w = 1 then some (.vfrecv (fld 7 18 w))
    else none
  | 0x7B =>
    if bitsOf 24 0 w = 0 then some .xacq
    else if bitsOf 24 0 w = 1 then some .xrel
    else if bitsOf 24 15 w = 0 ∧ bitsOf 10 8 w = 0 ∧ bitsOf 3 0 w = 2 then some (.wbase (fld 4 11 w) (fld 4 4 w))
    else none
  | 0x7C =>
    if bitsOf 24 18 w = 0 ∧ bitsOf 10 4 w = 0 ∧ bitsOf 2 2 w = 0 then some (.coll (fld 7 11 w) (fld 1 3 w) (fld 2 0 w))
    else if bitsOf 24 18 w = 0 ∧ bitsOf 10 4 w = 1 ∧ bitsOf 2 2 w = 0 then some (.rop (fld 7 11 w) (fld 1 3 w) (fld 2 0 w))
    else none
  | 0x7D =>
    if bitsOf 24 18 w = 0 ∧ bitsOf 3 0 w = 0 then some (.pint (fld 7 11 w) (fld 7 4 w))
    else if bitsOf 10 0 w = 1 then some (.eqres (fld 7 18 w) (fld 7 11 w))
    else none
  | 0x7E =>
    if bitsOf 17 16 w = 0 ∧ bitsOf 3 2 w = 0 then some (.mfs (fld 7 18 w) (fld 12 4 w) (fld 2 0 w))
    else if bitsOf 17 16 w = 0 ∧ bitsOf 3 2 w = 1 then some (.mts (fld 7 18 w) (fld 12 4 w) (fld 2 0 w))
    else if bitsOf 24 0 w = 65536 then some .eretRetry
    else if bitsOf 24 0 w = 65792 then some .eretCont
    else if bitsOf 24 0 w = 66048 then some .eretKill
    else if bitsOf 17 0 w = 65552 then some (.cctlClean (fld 7 18 w))
    else if bitsOf 17 0 w = 65808 then some (.cctlEvict (fld 7 18 w))
    else if bitsOf 24 0 w = 65568 then some .tlbinvAll
    else if bitsOf 17 0 w = 65824 then some (.tlbinvCtx (fld 7 18 w))
    else if bitsOf 17 0 w = 66080 then some (.tlbinvPage (fld 7 18 w))
    else if bitsOf 24 0 w = 65584 then some .halt
    else none
  | _ => none

/-- The instruction a 32-bit word holds; none where no row of the table has the word (R142, R143). -/
def decode (w : Nat) : Option Instr := decodeMajor (w / 2 ^ 25 % 128) w

/-- What the bytes at an address decode to, and how many bytes it took (R128: 4, little-endian). -/
def decodeBytes : List Byte → Option (Instr × List Byte)
  | b0 :: b1 :: b2 :: b3 :: rest => (decode (ofBytes [b0, b1, b2, b3])).map (fun i => (i, rest))
  | _ => none

/-- The contribution of a field whose lowest bit is bit `lo` of the word. -/
def put {n : Nat} (f : BitVec n) (lo : Nat) : Nat := f.toNat * 2 ^ lo

/-- The word of an instruction, from the table's encoding of it; none for an event. -/
def encode : Instr → Option Nat
  | .bra c o => some (0x02000000 + put c 21 + put o 0)
  | .call c o => some (0x04000000 + put c 21 + put o 0)
  | .kbra s k o => some (0x06000000 + put s 24 + put k 21 + put o 0)
  | .brx a r g => some (0x08000000 + put a 11 + put r 3 + put g 0)
  | .callx a r g => some (0x0A000000 + put a 11 + put r 3 + put g 0)
  | .ret g => some (0x0C000000 + put g 0)
  | .exit g => some (0x0E000000 + put g 0)
  | .nop => some 0x10000000
  | .yield => some 0x12000000
  | .regn => some 0x14000000
  | .trap i => some (0x16000000 + put i 0)
  | .brk i => some (0x18000000 + put i 0)
  | .waitc t l s c n => some (0x1A000000 + put t 21 + put l 14 + put s 10 + put c 6 + put n 2)
  | .spawn a b r g => some (0x1C000000 + put a 11 + put b 4 + put r 3 + put g 0)
  | .kadd d a b r => some (0x20000000 + put d 18 + put a 11 + put b 4 + put r 3)
  | .ksub d a b r => some (0x22000000 + put d 18 + put a 11 + put b 4 + put r 3)
  | .kmul24 d a b r m => some (0x24000000 + put d 18 + put a 11 + put b 4 + put r 3 + put m 2)
  | .kmul32 d a b r => some (0x26000000 + put d 18 + put a 11 + put b 4 + put r 3)
  | .kand d a b r => some (0x28000000 + put d 18 + put a 11 + put b 4 + put r 3)
  | .kor d a b r => some (0x2A000000 + put d 18 + put a 11 + put b 4 + put r 3)
  | .kxor d a b r => some (0x2C000000 + put d 18 + put a 11 + put b 4 + put r 3)
  | .kshl d a b r => some (0x2E000000 + put d 18 + put a 11 + put b 4 + put r 3)
  | .kshr d a b r => some (0x30000000 + put d 18 + put a 11 + put b 4 + put r 3)
  | .ksar d a b r => some (0x30000004 + put d 18 + put a 11 + put b 4 + put r 3)
  | .kmin d a b r m => some (0x32000000 + put d 18 + put a 11 + put b 4 + put r 3 + put m 2)
  | .kmax d a b r m => some (0x34000000 + put d 18 + put a 11 + put b 4 + put r 3 + put m 2)
  | .ksel d a b r => some (0x36000000 + put d 18 + put a 11 + put b 4 + put r 3)
  | .kcmp d a b r m c => some (0x38000000 + put d 18 + put a 11 + put b 4 + put r 3 + put m 2 + put c 0)
  | .kli d i => some (0x3A000000 + put d 18 + put i 0)
  | .klih d i => some (0x3C000000 + put d 18 + put i 0)
  | .vtok d a b => some (0x3E000000 + put d 18 + put a 11 + put b 4)
  | .iadd d a b r g => some (0x40000000 + put d 18 + put a 11 + put b 4 + put r 3 + put g 0)
  | .isub d a b r g => some (0x42000000 + put d 18 + put a 11 + put b 4 + put r 3 + put g 0)
  | .iadd64 d a b r g => some (0x44000000 + put d 18 + put a 11 + put b 4 + put r 3 + put g 0)
  | .imul24 d a b r m g => some (0x46000000 + put d 18 + put a 11 + put b 4 + put r 3 + put m 2 + put g 0)
  | .imul24h d a b r m g => some (0x48000000 + put d 18 + put a 11 + put b 4 + put r 3 + put m 2 + put g 0)
  | .imul32 d a b r g => some (0x4A000000 + put d 18 + put a 11 + put b 4 + put r 3 + put g 0)
  | .imulh d a b r m g => some (0x4C000000 + put d 18 + put a 11 + put b 4 + put r 3 + put m 2 + put g 0)
  | .imad24 d a b r m g => some (0x4E000000 + put d 18 + put a 11 + put b 4 + put r 3 + put m 2 + put g 0)
  | .iand d a b r g => some (0x50000000 + put d 18 + put a 11 + put b 4 + put r 3 + put g 0)
  | .ior d a b r g => some (0x52000000 + put d 18 + put a 11 + put b 4 + put r 3 + put g 0)
  | .ixor d a b r g => some (0x54000000 + put d 18 + put a 11 + put b 4 + put r 3 + put g 0)
  | .ishl d a b r g => some (0x56000000 + put d 18 + put a 11 + put b 4 + put r 3 + put g 0)
  | .irot d a b r g => some (0x56000004 + put d 18 + put a 11 + put b 4 + put r 3 + put g 0)
  | .ishr d a b r g => some (0x58000000 + put d 18 + put a 11 + put b 4 + put r 3 + put g 0)
  | .isar d a b r g => some (0x58000004 + put d 18 + put a 11 + put b 4 + put r 3 + put g 0)
  | .imin d a b r m g => some (0x5A000000 + put d 18 + put a 11 + put b 4 + put r 3 + put m 2 + put g 0)
  | .imax d a b r m g => some (0x5C000000 + put d 18 + put a 11 + put b 4 + put r 3 + put m 2 + put g 0)
  | .icmp c e a b r m g => some (0x5E000000 + put c 20 + put e 18 + put a 11 + put b 4 + put r 3 + put m 2 + put g 0)
  | .isel d a b r g => some (0x60000000 + put d 18 + put a 11 + put b 4 + put r 3 + put g 0)
  | .mov d a => some (0x62000000 + put d 18 + put a 11)
  | .popc d a => some (0x62000001 + put d 18 + put a 11)
  | .clz d a => some (0x62000002 + put d 18 + put a 11)
  | .brev d a => some (0x62000003 + put d 18 + put a 11)
  | .iabs d a => some (0x62000004 + put d 18 + put a 11)
  | .bfeZ32 d a b => some (0x62000005 + put d 18 + put a 11 + put b 4)
  | .bfeS32 d a b => some (0x62000006 + put d 18 + put a 11 + put b 4)
  | .bfi d a b => some (0x62000007 + put d 18 + put a 11 + put b 4)
  | .idot4S8 d a b => some (0x62000008 + put d 18 + put a 11 + put b 4)
  | .idot4Z8 d a b => some (0x62000009 + put d 18 + put a 11 + put b 4)
  | .li d i => some (0x64000000 + put d 18 + put i 0)
  | .lih d i => some (0x66000000 + put d 18 + put i 0)
  | .fadd d a b r n g => some (0x68000000 + put d 18 + put a 11 + put b 4 + put r 3 + put n 2 + put g 0)
  | .fsub d a b r n g => some (0x6A000000 + put d 18 + put a 11 + put b 4 + put r 3 + put n 2 + put g 0)
  | .fmul d a b r n g => some (0x6C000000 + put d 18 + put a 11 + put b 4 + put r 3 + put n 2 + put g 0)
  | .ffma d a b r n g => some (0x6E000000 + put d 18 + put a 11 + put b 4 + put r 3 + put n 2 + put g 0)
  | .fmin d a b r n g => some (0x70000000 + put d 18 + put a 11 + put b 4 + put r 3 + put n 2 + put g 0)
  | .fmax d a b r n g => some (0x72000000 + put d 18 + put a 11 + put b 4 + put r 3 + put n 2 + put g 0)
  | .fcmp c e a b r n g => some (0x74000000 + put c 20 + put e 18 + put a 11 + put b 4 + put r 3 + put n 2 + put g 0)
  | .fclass d a r g => some (0x76000000 + put d 18 + put a 11 + put r 3 + put g 0)
  | .frnd d a b r n g => some (0x78000000 + put d 18 + put a 11 + put b 4 + put r 3 + put n 2 + put g 0)
  | .fscale d a b r n g => some (0x7A000000 + put d 18 + put a 11 + put b 4 + put r 3 + put n 2 + put g 0)
  | .fadd2F16 d a b r n g => some (0x7C000000 + put d 18 + put a 11 + put b 4 + put r 3 + put n 2 + put g 0)
  | .fadd2Bf16 d a b r n g => some (0x7E000000 + put d 18 + put a 11 + put b 4 + put r 3 + put n 2 + put g 0)
  | .ffma2F16 d a b r n g => some (0x80000000 + put d 18 + put a 11 + put b 4 + put r 3 + put n 2 + put g 0)
  | .ffma2Bf16 d a b r n g => some (0x82000000 + put d 18 + put a 11 + put b 4 + put r 3 + put n 2 + put g 0)
  | .fdot2F16 d a b r n g => some (0x84000000 + put d 18 + put a 11 + put b 4 + put r 3 + put n 2 + put g 0)
  | .fdot2Bf16 d a b r n g => some (0x86000000 + put d 18 + put a 11 + put b 4 + put r 3 + put n 2 + put g 0)
  | .cvt d a t s e => some (0x98000000 + put d 18 + put a 11 + put t 7 + put s 3 + put e 0)
  | .cvtn d a t s e => some (0x9A000000 + put d 18 + put a 11 + put t 7 + put s 3 + put e 0)
  | .packF8e4 d a b r h g => some (0x9C000000 + put d 18 + put a 11 + put b 4 + put r 3 + put h 2 + put g 0)
  | .packF8e5 d a b r h g => some (0x9E000000 + put d 18 + put a 11 + put b 4 + put r 3 + put h 2 + put g 0)
  | .unpack d a b s => some (0xA0000000 + put d 18 + put a 11 + put b 4 + put s 0)
  | .qblk d a s => some (0xA2000000 + put d 18 + put a 11 + put s 0)
  | .sfn d a f r n g => some (0xA8000000 + put d 18 + put a 11 + put f 4 + put r 3 + put n 2 + put g 0)
  | .vote d a b s => some (0xB0000000 + put d 18 + put a 11 + put b 4 + put s 0)
  | .shfl d a b s => some (0xB2000000 + put d 18 + put a 11 + put b 4 + put s 0)
  | .perm d a p s => some (0xB4000000 + put d 18 + put a 11 + put p 4 + put s 0)
  | .redx d a b s => some (0xB6000000 + put d 18 + put a 11 + put b 4 + put s 0)
  | .scanx d a b s => some (0xB8000000 + put d 18 + put a 11 + put b 4 + put s 0)
  | .matchx d a b s => some (0xBA000000 + put d 18 + put a 11 + put b 4 + put s 0)
  | .elect e b => some (0xBC000000 + put e 18 + put b 4)
  | .ld8 d a o f r g => some (0xC0000000 + put d 18 + put a 11 + put o 8 + put f 4 + put r 2 + put g 0)
  | .ld16 d a o f r g => some (0xC2000000 + put d 18 + put a 11 + put o 8 + put f 4 + put r 2 + put g 0)
  | .ld32 d a o f r g => some (0xC4000000 + put d 18 + put a 11 + put o 8 + put f 4 + put r 2 + put g 0)
  | .ld64 d a o f r g => some (0xC6000000 + put d 18 + put a 11 + put o 8 + put f 4 + put r 2 + put g 0)
  | .ld128 d a o f r g => some (0xC8000000 + put d 18 + put a 11 + put o 8 + put f 4 + put r 2 + put g 0)
  | .st8 d a o f r g => some (0xCA000000 + put d 18 + put a 11 + put o 8 + put f 4 + put r 2 + put g 0)
  | .st16 d a o f r g => some (0xCC000000 + put d 18 + put a 11 + put o 8 + put f 4 + put r 2 + put g 0)
  | .st32 d a o f r g => some (0xCE000000 + put d 18 + put a 11 + put o 8 + put f 4 + put r 2 + put g 0)
  | .st64 d a o f r g => some (0xD0000000 + put d 18 + put a 11 + put o 8 + put f 4 + put r 2 + put g 0)
  | .st128 d a o f r g => some (0xD2000000 + put d 18 + put a 11 + put o 8 + put f 4 + put r 2 + put g 0)
  | .ldk d a o f r z => some (0xD4000000 + put d 18 + put a 11 + put o 8 + put f 4 + put r 2 + put z 1)
  | .stk d a o f r z => some (0xD4000001 + put d 18 + put a 11 + put o 8 + put f 4 + put r 2 + put z 1)
  | .ldl d a z f g => some (0xD6000000 + put d 18 + put a 11 + put z 8 + put f 4 + put g 0)
  | .stl d a z f g => some (0xD6000400 + put d 18 + put a 11 + put z 8 + put f 4 + put g 0)
  | .atom32 d a o s r g => some (0xD8000000 + put d 18 + put a 11 + put o 8 + put s 4 + put r 2 + put g 0)
  | .atom64 d a o s r g => some (0xDA000000 + put d 18 + put a 11 + put o 8 + put s 4 + put r 2 + put g 0)
  | .red32 d a o s r g => some (0xDC000000 + put d 18 + put a 11 + put o 8 + put s 4 + put r 2 + put g 0)
  | .red64 d a o s r g => some (0xDE000000 + put d 18 + put a 11 + put o 8 + put s 4 + put r 2 + put g 0)
  | .acopy h d a b r l g => some (0xE0000000 + put h 25 + put d 18 + put a 11 + put b 4 + put r 3 + put l 2 + put g 0)
  | .rcopy a r g => some (0xE4000000 + put a 11 + put r 3 + put g 0)
  | .pref a r g => some (0xE4000010 + put a 11 + put r 3 + put g 0)
  | .prefSc d a r g => some (0xE4000014 + put d 18 + put a 11 + put r 3 + put g 0)
  | .invl1 a r g => some (0xE4000020 + put a 11 + put r 3 + put g 0)
  | .invl1All g => some (0xE4000024 + put g 0)
  | .setobs s a r g => some (0xE4000030 + put s 18 + put a 11 + put r 3 + put g 0)
  | .fence k m => some (0xE6000000 + put k 8 + put m 0)
  | .tmma a r m g => some (0xE8000000 + put a 11 + put r 3 + put m 2 + put g 0)
  | .tzero s m g => some (0xEA000000 + put s 18 + put m 2 + put g 0)
  | .tlda t s a r m g => some (0xEA000010 + put t 22 + put s 18 + put a 11 + put r 3 + put m 2 + put g 0)
  | .tsta t s a r m g => some (0xEA000020 + put t 22 + put s 18 + put a 11 + put r 3 + put m 2 + put g 0)
  | .tcvt t s a r m g => some (0xEA000030 + put t 22 + put s 18 + put a 11 + put r 3 + put m 2 + put g 0)
  | .twait m g => some (0xEA000040 + put m 2 + put g 0)
  | .tprog d m g => some (0xEA000050 + put d 18 + put m 2 + put g 0)
  | .barInit a b => some (0xF0000000 + put a 11 + put b 4)
  | .arrive d a b => some (0xF0000001 + put d 18 + put a 11 + put b 4)
  | .arriveD t a b => some (0xF0000002 + put t 18 + put a 11 + put b 4)
  | .bwait a b => some (0xF0000003 + put a 11 + put b 4)
  | .ringPost r => some (0xF2000000 + put r 18)
  | .ringPostSize r s => some (0xF2400000 + put r 18 + put s 11)
  | .ringWait r a => some (0xF2000001 + put r 18 + put a 11)
  | .vfsend a => some (0xF4000000 + put a 11)
  | .vfrecv d => some (0xF4000001 + put d 18)
  | .xacq => some 0xF6000000
  | .xrel => some 0xF6000001
  | .wbase w k => some (0xF6000002 + put w 11 + put k 4)
  | .coll a r g => some (0xF8000000 + put a 11 + put r 3 + put g 0)
  | .rop a r g => some (0xF8000010 + put a 11 + put r 3 + put g 0)
  | .pint a b => some (0xFA000000 + put a 11 + put b 4)
  | .eqres d a => some (0xFA000001 + put d 18 + put a 11)
  | .mfs d i g => some (0xFC000000 + put d 18 + put i 4 + put g 0)
  | .mts d i g => some (0xFC000004 + put d 18 + put i 4 + put g 0)
  | .eretRetry => some 0xFC010000
  | .eretCont => some 0xFC010100
  | .eretKill => some 0xFC010200
  | .cctlClean d => some (0xFC010010 + put d 18)
  | .cctlEvict d => some (0xFC010110 + put d 18)
  | .tlbinvAll => some 0xFC010020
  | .tlbinvCtx d => some (0xFC010120 + put d 18)
  | .tlbinvPage d => some (0xFC010220 + put d 18)
  | .halt => some 0xFC010030
  | .crossLaneComplete .. => none
  | .waitEnd .. => none
  | .issueDrawCycle .. => none
  | .reservationJoin .. => none
  | .epochRefill .. => none
  | .priceCommit .. => none
  | .corePriceSwitch .. => none
  | .dcapWrite .. => none
  | .qtailWrite .. => none
  | .qheadWrite .. => none
  | .haltClear .. => none
  | .abort .. => none
  | .registerWrite .. => none
  | .arbiterGrant .. => none
  | .fenceObjectRead .. => none
  | .prologueLimit .. => none
  | .windowInstall => none
  | .completionCountReport .. => none
  | .launchRetire .. => none
  | .placementEvaluation .. => none
  | .candidateWaitLimit .. => none
  | .groupStart .. => none
  | .spanReservationRequest .. => none
  | .spanReservationReply .. => none
  | .unitPlacedReport .. => none
  | .maskReport .. => none
  | .loadReturn .. => none
  | .storeVisible .. => none
  | .atomicPerform .. => none
  | .vtokWrite .. => none
  | .copyLineWrite .. => none
  | .deferredArrivalCount .. => none
  | .rcopyUnit .. => none
  | .rcopyComplete .. => none
  | .tileOperandLine .. => none
  | .tileKstep .. => none
  | .tileOpComplete .. => none
  | .barrierDoneMessage .. => none
  | .flumeEntryDelivery .. => none
  | .flumeCredit .. => none
  | .eventRecordWrite => none
  | .eventResolve .. => none
  | .rillRetire .. => none
  | .preemptQueue .. => none
  | .preemptRestore .. => none
  | .contextSaveComplete .. => none
  | .deferredPreemption => none
  | .gateLayer .. => none
  | .restoreLayer .. => none
  | .gatePowerOff .. => none
  | .restoreComplete .. => none
  | .debugHaltRequest .. => none
  | .debugHalted .. => none
  | .debugRun .. => none
  | .linkResponseWatchdog .. => none
  | .packageReset => none
  | .attestationAttempt .. => none
  | .attestationTimeout .. => none
  | .linkkey .. => none
  | .dieOpen .. => none
  | .rollRequest .. => none
  | .keyRolloverCount .. => none
  | .oldKeyErase .. => none
  | .linkTagFail .. => none
  | .dieResetRequest .. => none
  | .drainComplete .. => none
  | .drainLimit .. => none
  | .doeRequest .. => none
  | .peerAttestation .. => none
  | .pstepAssert => none
  | .pstepRelease => none
  | .powerStepGo .. => none
  | .pcapWrite .. => none
  | .weirPeriod .. => none
  | .peerIntentMessage .. => none
  | .peerIntentLapse .. => none
  | .fselWrite .. => none
  | .relockDone .. => none
  | .droopTrip .. => none
  | .chargeUpdate .. => none
  | .thermalSample .. => none
  | .powerFail => none
  | .saveItemComplete .. => none
  | .saveResume => none
  | .saveDiscard => none
  | .pageWalk .. => none
  | .bsizeWrite .. => none
  | .bsizeChangeDone .. => none
  | .treqs .. => none
  | .treqx .. => none
  | .tok .. => none
  | .transientRequestTimeout .. => none
  | .preq .. => none
  | .pact .. => none
  | .pack .. => none
  | .pdone .. => none
  | .pdeact .. => none
  | .lineEvict .. => none
  | .coherenceRetransmit .. => none
  | .hostMemRead .. => none
  | .hostMemWrite .. => none
  | .hostWriteback .. => none
  | .birspi .. => none
  | .elmLossOfLight .. => none
  | .elmLightReturn .. => none
  | .elmenWrite .. => none
  | .dataFlit .. => none
  | .ackFlit .. => none
  | .pathControlFlit .. => none
  | .pathRejoin .. => none
  | .replayTimeout .. => none
  | .setAnnouncement => none
  | .holdMessage .. => none
  | .remoteRequestAbandon .. => none
  | .sluiceRequest .. => none
  | .remoteResponse .. => none
  | .collectiveSignalRead .. => none
  | .collectiveChunk .. => none
  | .collectiveEnd .. => none
  | .blackboxRecord => none
  | .blackboxClear => none
  | .blackboxMctpRead .. => none
  | .bootRecordClear => none
  | .powerRemoved => none

/-- The decoder on a word numbered as spec/opcode_table.json numbers its bits. -/
def decodeTableWord (nbits w : Nat) : Option Instr :=
  (decodeBytes (toBytes 4 (w % 2 ^ nbits))).map Prod.fst

end Sys2Proof
end

