-- ==== Sys2Proof/Machine/State.lean ====
section
/-! DEFINITION. The state of the package: everything the spec gives the machine, as plain data, and
the state right after reset. -/
namespace Sys2Proof.Machine

/-- Faults. No rule of the spec stops the package as a whole: traps park rills, launches end with
halt codes and dies reset, and all of these are next states. -/
inductive Fault where
  /-- No meaning raises it. Kept so that the type has a name for a stop. Safe. -/
  | none
  deriving DecidableEq, Repr

/-- Refusals. -/
inductive Refusal where
  /-- Raised by the dispatcher for an instruction that has no meaning yet. Safe. -/
  | notModelled (mnemonic : String)
  deriving DecidableEq, Repr

/-! ## Threads and rills -/

/-- The control state of one thread (R151), its guards (R136) and its flags (R57). -/
structure Thread where
  pc : DWord := 0
  /-- Return offsets from KCODE, the newest first; at most 32 (R151). -/
  stack : List Word := []
  region : DWord := 0
  passed : Nat := 0
  /-- The yield mark, with the rill's issue count when it was set (R162). -/
  yieldAt : Option Nat := none
  exited : Bool := false
  flags : BitVec 5 := 0
  g1 : Bool := false
  g2 : Bool := false
  g3 : Bool := false
  deriving DecidableEq, Repr, Inhabited

/-- One lane's part of an access. `tgt` is the target of the leaf (R262), or 4 for the rill's own
local store and 5 for the pair pool; `pa` is the address there, or, for target 2, the peer's, with
SPACE in bit 40. -/
structure LaneReq where
  lane : Nat := 0
  va : Nat := 0
  tgt : Nat := 0
  peer : Nat := 0
  pa : Nat := 0
  /-- Bytes, and their offset in the lane's value: a 16-byte access to a peer or the host is two
  halves (R282). -/
  n : Nat := 4
  off : Nat := 0
  /-- Store data or first operand; once bound, the value loaded or the old value. -/
  data : Nat := 0
  data2 : Nat := 0
  /-- Bound or visible (R308). -/
  done : Bool := false
  /-- It has come to its slice, which lacks tokens: it has left its die (Table 4-6, Table 14-7). -/
  left : Bool := false
  /-- The outcome of FADDB (R293). -/
  ok : Bool := false
  deriving DecidableEq, Repr, Inhabited

inductive AccKind where
  | ld | st | atom | red | sidecar
  deriving DecidableEq, Repr, Inhabited

/-- One issue of a memory instruction that has not been wholly performed. -/
structure Access where
  /-- Place in the rill's issue order. -/
  seq : Nat := 0
  kind : AccKind := .ld
  /-- The registers are uniform (LDK, STK). -/
  uni : Bool := false
  pc : DWord := 0
  word : Word := 0
  cohort : List Nat := []
  /-- First destination register and how many consecutive ones are written. -/
  dst : Nat := 0
  nreg : Nat := 0
  size : Nat := 4
  sub : Nat := 0
  acq : Bool := false
  rel : Bool := false
  mask : Nat := 0
  guard : Nat := 0
  /-- A read of a poisoned half was met (R281); lanes a peer refused (R378); a lane's request was
  abandoned (R380). -/
  poison : Bool := false
  refused : List Nat := []
  lost : Bool := false
  /-- An atomic whose lines have all been read and found without poison (R281). -/
  clear : Bool := false
  reqs : List LaneReq := []
  deriving DecidableEq, Repr, Inhabited

/-- A VTOK whose destination is still to be written (R171). -/
structure VtokPend where
  dst : Nat := 0
  val : Word := 0
  deriving DecidableEq, Repr, Inhabited

/-- An ARRIVE or ARRIVE.D that is not yet counted (R403, R404), or a RING.POST whose release does not yet
hold (R408). -/
structure Arrival where
  seq : Nat := 0
  addr : Nat := 0
  n : Nat := 0
  mask : Nat := 0
  /-- The copy tag of a deferred arrival. -/
  tag : Option Nat := none
  /-- The ring of a post. -/
  ring : Option Nat := none
  dst : Nat := 0
  lanes : List Nat := []
  deriving DecidableEq, Repr, Inhabited

/-- One lane of an ACOPY (R297). -/
structure CopyLane where
  lane : Nat := 0
  dst : Nat := 0
  src : Nat := 0
  size : Nat := 4
  valid : Nat := 0
  /-- Bytes that have come from a peer. -/
  buf : Option (List Byte) := none
  done : Bool := false
  deriving DecidableEq, Repr, Inhabited

inductive CopyKind where
  | acopy | rcopy | coll | rop
  deriving DecidableEq, Repr, Inhabited

/-- A command of a rill's copy context (R297, R300, R384, R392). -/
structure CopyCmd where
  id : Nat := 0
  kind : CopyKind := .acopy
  seq : Nat := 0
  tag : Nat := 0
  lanes : List CopyLane := []
  /-- The 64-bit words of the captured parameter block (R33). -/
  block : List Nat := []
  /-- Units issued, of an RCOPY (R301), and units to be issued again after a fault. -/
  pos : Nat := 0
  redo : List Nat := []
  /-- Its acquire has been performed (R301). -/
  begun : Bool := false
  /-- Held by a translation fault: the event that must resolve, 0 while none is written (R299). -/
  held : Option Nat := none
  fcause : Nat := 0
  faddr : Nat := 0
  /-- The 64 bytes an ROP's response brought (R383). -/
  result : List Byte := []
  deriving DecidableEq, Repr, Inhabited

/-- A trap record (Table 18-2). -/
structure TrapRec where
  cause : Nat := 0
  fcause : Nat := 0
  /-- The trapping PC and the resume address. -/
  pc : DWord := 0
  resume : DWord := 0
  word : Word := 0
  addr : DWord := 0
  cohort : List Nat := []
  aux : Word := 0
  /-- Event ID, 0 while no record is written. -/
  event : Nat := 0
  /-- The record awaits its write to the event ring (R422). -/
  waiting : Bool := false
  /-- The rill has been restored since: its threads restart at their region starts (R431). -/
  restart : Bool := false
  /-- A resolution that found the rill saved, to be applied at its restore (R442): 0 resume, 1 end. -/
  act : Option Nat := none
  deriving DecidableEq, Repr, Inhabited

/-- What an issue read that is paid for and has still to wait for a walk, for bytes of a block or for the order of memory
before it takes effect (R33, R221, R264): its word, the uniform registers, the window bases and the observer slots of its
rill; `no` numbers such issues of the package. -/
structure HeldIssue where
  word : Word := 0
  k : Tbl Word := []
  wb : Nat := 64
  kb : Nat := 64
  obsm : List (BitVec 8) := []
  no : Nat := 0
  deriving DecidableEq, Repr, Inhabited

/-- A waiting instruction that holds threads (R152): the instruction, where it is, the threads it
holds, its place in the issue order, and the values it read at its issue. -/
structure Wait where
  ins : Instr := .nop
  pc : DWord := 0
  lanes : List Nat := []
  seq : Nat := 0
  vals : List Nat := []
  held : Option HeldIssue := none
  deriving DecidableEq, Repr, Inhabited

/-- A VA, VF or SF issue of more than one pass: the core clock of its last pass, the threads of its lanes as they were, and
the registers it has written, by number and lane, with what they held (R198, R427). -/
structure Undo where
  till : Nat := 0
  th : Tbl Thread := []
  regs : List (Nat × Nat × Word) := []
  deriving DecidableEq, Repr, Inhabited

/-- A power intent (R233): class, depth, lead, prefetch address, pages, and when it was set. -/
structure Intent where
  dur : Nat := 0
  depth : Nat := 0
  lead : Nat := 0
  addr : Nat := 0
  plen : Nat := 0
  since : Nat := 0
  /-- The fall it announces, in mW (R245). -/
  fall : Nat := 0
  deriving DecidableEq, Repr, Inhabited

/-- A rill, or a slot with no rill. A command processor that runs a prologue is held in the same
form, with one thread and uniform registers only (R82). -/
structure Rill where
  live : Bool := false
  /-- The firmware agent (R115). -/
  agent : Bool := false
  launch : Nat := 0
  group : Nat := 0
  /-- The room (local store, rings and tile units) it shares. -/
  room : Nat := 0
  /-- The core whose engines run its commands, once the rill itself has been dropped (R427). -/
  homeCore : Nat := 0
  /-- The job card that spawned it, 0 for a launch rill. -/
  card : Nat := 0
  ctx : Nat := 0
  rid : Nat := 0
  gid : Nat := 0
  role : BitVec 2 := 0
  width : Nat := 32
  nvec : Nat := 32
  nuni : Nat := 32
  xregs : Bool := false
  pclass : Nat := 0
  kcode : Nat := 0
  th : Tbl Thread := []
  /-- Vector registers, register r of lane l at key 64 r + l; the extended block is in Xblk. -/
  v : Tbl Word := []
  k : Tbl Word := []
  /-- Vector registers held in uniform form (R140). -/
  uform : List Nat := []
  rmode : BitVec 2 := 0
  obsm : List (BitVec 8) := [0x01, 0x01, 0x31, 0x31, 0x31, 0x31, 0x31, 0x31]
  wb : Nat := 64
  kb : Nat := 64
  holdsX : Bool := false
  rowprog : Word := 0
  /-- Outstanding counters (Table 7-2). -/
  nld : Nat := 0
  nst : Nat := 0
  ncp : Tbl Nat := []
  ntl : Nat := 0
  /-- Issues made since rill start. -/
  issues : Nat := 0
  /-- Places given in the order of accesses and waits. -/
  seq : Nat := 0
  reserve : Nat := 0
  denials : Nat := 0
  intent : Option Intent := none
  /-- EQ drawn in this epoch, and in the last 32 epochs, the newest first (R245). -/
  drawn : Nat := 0
  hist : List Nat := []
  trap : Option TrapRec := none
  /-- A trap to be taken at the next issue: its cause. -/
  pend : Option Nat := none
  waits : List Wait := []
  undo : List Undo := []
  accs : List Access := []
  vtoks : List VtokPend := []
  arrivals : List Arrival := []
  copies : List CopyCmd := []
  /-- Group start, restore, pre-emption or a debug halt keeps it from issuing. -/
  started : Bool := false
  /-- Dropped, draining towards its save (R427). -/
  dropped : Bool := false
  deriving DecidableEq, Repr, Inhabited

/-! ## Tile units -/

inductive TileKind where
  | tmma | tzero | tlda | tsta | tcvt
  deriving DecidableEq, Repr, Inhabited

/-- An operand line in a tile unit's operand buffer: its bytes and its sidecar (R337, R344). -/
structure OpLine where
  data : List Byte := []
  fmt : Nat := 0
  scales : List Nat := []
  /-- Address of the line in device memory, where a window was installed over it. -/
  at_ : Option Nat := none
  deriving DecidableEq, Repr, Inhabited

/-- A tile operation (R340). -/
structure TileOp where
  id : Nat := 0
  kind : TileKind := .tzero
  rill : Nat := 0
  launch : Nat := 0
  ctx : Nat := 0
  /-- The tile counter of its rill counts it: a restored rill's starts at 0 (R428). -/
  counted : Bool := true
  seq : Nat := 0
  block : List Nat := []
  slot : Nat := 0
  ty : Nat := 0
  addr : Nat := 0
  addr2 : Nat := 0
  stride : Nat := 0
  /-- Units performed: k-steps, or accumulator units. -/
  steps : Nat := 0
  /-- DONE of the progress word (R349). -/
  done : Nat := 0
  begun : Bool := false
  /-- Operand lines fetched, by line address: A at 2 × address, B at 2 × address + 1. -/
  lines : Tbl OpLine := []
  /-- Of a resumed SBI operation: the lines before DONE, of which the exponents of the open segments are used (R352). -/
  old : Tbl OpLine := []
  /-- Suspended: the progress word, the event and the fault (R351). -/
  susp : Bool := false
  fop : Nat := 0
  frow : Nat := 0
  fcause : Nat := 0
  faddr : Nat := 0
  event : Nat := 0
  waiting : Bool := false
  /-- A resolution that found it saved (R442). -/
  act : Option Nat := none
  deriving DecidableEq, Repr, Inhabited

/-- A tile unit: slots 0 to 14 (key 4096 s + 64 m + n), the carry plane (key 64 m + n), the queue
(R337 to R340). -/
structure TileUnit where
  acc : Tbl Word := []
  carry : Tbl (BitVec 24) := []
  queue : List TileOp := []
  /-- Cells whose NaN a TLDA loaded (R359). -/
  loadedNan : List Nat := []
  /-- The line ahead of the array that each load pipe is to read next: its operation and its address (R228). -/
  pipe : Tbl (Nat × Nat) := []
  deriving DecidableEq, Repr, Inhabited

/-! ## Cores -/

/-- A leaf translation (R261, R262). -/
structure Leaf where
  tgt : Nat := 0
  peer : Nat := 0
  /-- Page base at the target; with target 2 and `space`, a basin address of the peer. -/
  addr : Nat := 0
  space : Bool := false
  w : Bool := false
  x : Bool := false
  deriving DecidableEq, Repr, Inhabited

/-- A TLB entry: the page that holds virtual address `base`, of `size` bytes (R264). -/
structure TlbEntry where
  ctx : Nat := 0
  base : Nat := 0
  size : Nat := 65536
  leaf : Leaf := {}
  deriving DecidableEq, Repr, Inhabited

/-- A reuse latch (R138): the register and the rill that owns it. Its value is that register's. -/
structure Latch where
  rill : Nat := 0
  reg : Nat := 0
  deriving DecidableEq, Repr, Inhabited

/-- A posted job card (R27, R168): its eight 64-bit words and their address, the spawning rill's group, launch
and room. -/
structure Job where
  card : List Nat := []
  va : Nat := 0
  group : Nat := 0
  launch : Nat := 0
  room : Nat := 0
  own : Bool := false
  deriving DecidableEq, Repr, Inhabited

/-- A line in an L1 data cache or an instruction cache, with the poison of its two halves (R268, R331). -/
structure CacheLine where
  bytes : List Byte := []
  psn : BitVec 2 := 0
  deriving DecidableEq, Repr, Inhabited

/-- A core (R226, R229, R138, R116, R268, R264, R168, R420). -/
structure Core where
  bal : Nat := 0
  /-- %eqbal: the balance, and whether a reservation is held, before the draws of the clock (R232). -/
  eqbal : Nat := 0
  clk : Nat := 0
  rsv : List Nat := []
  vdraw : Nat := 0
  tdraw : Nat := 0
  cdraw : Nat := 0
  vclosed : Bool := false
  tclosed : Bool := false
  cclosed : Bool := false
  /-- Candidates (by rill) and engine units (4 × unit + kind; 8 for the copy engine) that wait under a limit:
  twice the number of consecutive epochs, plus 1 once it has waited in this one (R229). -/
  vwait : Tbl Nat := []
  ewait : Tbl Nat := []
  /-- The unit that made the first tile draw of the last epoch, and whether this epoch has one. -/
  tfirst : Nat := 0
  tdrawn : Bool := false
  prices : Tbl Nat := []
  lastSlot : Tbl Nat := []
  busy : Tbl Nat := []
  latch : Tbl (Option Latch) := []
  /-- The last partition used by the group last placed on the core (R119). -/
  lastPart : Option Nat := none
  l1 : Tbl CacheLine := []
  icache : Tbl CacheLine := []
  tlb : List TlbEntry := []
  jobs : List Job := []
  tsel : Word := 0
  agentTask : Bool := false
  agentWait : Nat := 0
  deriving DecidableEq, Repr, Inhabited

/-- The extended block of a slot pair (R414): v192 to v255, register r of lane l at 64 r + l. -/
structure Xblk where
  v : Tbl Word := []
  /-- Which of them are in uniform form while no rill holds the block (R140). -/
  uform : List Nat := []
  deriving DecidableEq, Repr, Inhabited

/-- A stage ring (R407). -/
structure Ring where
  size : Nat := 16
  pi : Nat := 0
  phases : List Bool := List.replicate 16 false
  deriving DecidableEq, Repr, Inhabited

/-- What the rills of a group, or of a neighbour-core card, share (R29, R121, R274, R407). -/
structure Room where
  live : Bool := false
  /-- Key of its core. -/
  core : Nat := 0
  /-- Local store owned, in bytes, and its cells. -/
  lsize : Nat := 0
  mem : List Host.Cell := []
  rings : Tbl Ring := []
  /-- The tile units it holds: 0 for TM0, 1 for TM1. -/
  units : List Nat := []
  /-- The tile units' state while the room is saved. -/
  saved : List TileUnit := []
  deriving DecidableEq, Repr, Inhabited

/-- One Flume channel: entries delivered, entries and credits in flight, the sender's SFREE
(R410). An entry is the register's value in each lane. -/
structure Chan where
  ready : List (List Word) := []
  flight : List (List Word) := []
  credits : Nat := 0
  sfree : Nat := 8
  deriving DecidableEq, Repr, Inhabited

/-- Where a context frame has the bytes of a saved rill (R429): its place in the list, its index there, and the offsets of its
uniform and vector registers, and of the extended block that follows its pair. -/
structure FrameItem where
  at_ : Nat := 0
  index : Nat := 0
  uni : Nat := 0
  vec : Nat := 0
  ext : Option Nat := none
  deriving DecidableEq, Repr, Inhabited

inductive GroupState where
  | placed | running | saving | saved | retired
  deriving DecidableEq, Repr, Inhabited

/-- A placed group, or one held off its core (R117 to R126, R426 to R430, R444). -/
structure Group where
  launch : Nat := 0
  /-- Linear group index (R14). -/
  index : Nat := 0
  die : Nat := 0
  pos : Nat := 0
  start : Nat := 0
  room : Nat := 0
  span : Bool := false
  /-- The partner group of a span. -/
  partner : Nat := 0
  st : GroupState := .retired
  /-- Rills not yet retired, of the launch and of own-core cards. -/
  liveRills : List Nat := []
  slots : List Nat := []
  cards : List Nat := []
  /-- The Flume channels on which it sends, one per rill index. -/
  chans : Tbl Chan := []
  /-- Done messages waiting at the bond for this group: object offsets (R400). -/
  doneMsgs : List Nat := []
  /-- Its context frame while saved. -/
  frame : Option Nat := none
  /-- Rills as saved in the frame, where their bytes lie in it, and when it became a candidate (R117). -/
  saved : List Rill := []
  savedX : List (Nat × Xblk) := []
  layout : List FrameItem := []
  since : Option Nat := none
  /-- Held by gating: it returns to its place (R430). -/
  gated : Bool := false
  /-- Clock of its core at which the fill ends (R121); it has ended and its rills have started. -/
  fillAt : Nat := 0
  filled : Bool := false
  /-- Its place in the order of placements (R426). -/
  order : Nat := 0
  deriving DecidableEq, Repr, Inhabited

/-- The lower dispatcher's request for a span (R123): the launch and its lower group, the choice in hand
(core position, start partition, number in the order of R119 and R120), the slots, and the answer. -/
structure SpanReq where
  launch : Nat := 0
  index : Nat := 0
  pos : Nat := 0
  start : Nat := 0
  choice : Nat := 0
  slots : List Nat := []
  answer : Option Bool := none
  /-- The lower group is on its core, or has retired: only the upper one is to be restored. -/
  upperOnly : Bool := false
  /-- Launches whose candidates have had every choice refused since the last freed resource. -/
  tried : List Nat := []
  deriving DecidableEq, Repr, Inhabited

/-- A live neighbour- or own-core card after its rills are placed (R26 to R31). -/
structure Card where
  live : Bool := false
  /-- DONEC has been counted; its room is kept while own-core cards share it (R29). -/
  counted : Bool := false
  own : Bool := false
  launch : Nat := 0
  group : Nat := 0
  room : Nat := 0
  words : List Nat := []
  liveRills : List Nat := []
  slots : List Nat := []
  frame : Option Nat := none
  saved : List Rill := []
  savedX : List (Nat × Xblk) := []
  layout : List FrameItem := []
  /-- Start partition of its rills. -/
  start : Nat := 0
  st : GroupState := .retired
  fillAt : Nat := 0
  deriving DecidableEq, Repr, Inhabited

/-! ## Launches and queues -/

/-- A format window descriptor (Table 1-8). -/
structure WinDesc where
  tid : Nat := 0
  fmt : Nat := 0
  sgran : Nat := 0
  base : Nat := 0
  limit : Nat := 0
  scalep : Nat := 0
  statva : Nat := 0
  deriving DecidableEq, Repr, Inhabited

/-- An installed window: descriptor, references, counters (R39, R40, R446). -/
structure Window where
  desc : WinDesc := {}
  refs : Nat := 0
  sat : Nat := 0
  ftz : Nat := 0
  nanp : Nat := 0
  nanb : Nat := 0
  wseq : Nat := 0
  deriving DecidableEq, Repr, Inhabited

/-- A launch record as read (Table 1-1), with its entry table, arguments and windows. -/
structure LaunchRec where
  lvlp : Nat := 0
  rmode : BitVec 2 := 0
  pclass : Nat := 0
  tuse : Nat := 0
  uregs : Nat := 1
  xregs : Bool := false
  vregs : Nat := 0
  nrill : Nat := 0
  width : Nat := 0
  kcode : Nat := 0
  argw : Nat := 0
  lsize : Nat := 0
  maine : Nat := 0
  nent : Nat := 1
  gx : Nat := 1
  gy : Nat := 1
  gz : Nat := 1
  donef : Nat := 0
  donev : Nat := 0
  roles : Nat := 0
  /-- EXTENT and OBSM of each level. -/
  lv : List (Nat × Nat) := []
  ents : List Nat := []
  args : List Word := []
  wins : List WinDesc := []
  deriving DecidableEq, Repr, Inhabited

inductive LaunchState where
  | windows | running | ending | done
  deriving DecidableEq, Repr, Inhabited

/-- The range of groups a die received, and how far it has placed and completed it (R89, R92). -/
structure Range where
  first : Nat := 0
  count : Nat := 0
  stride : Nat := 1
  placed : Nat := 0
  retired : Nat := 0
  reported : Nat := 0
  /-- Local time at which its next unplaced group became a candidate (R117). -/
  since : Option Nat := none
  blocks : Bool := false
  /-- Its groups of an L5 unit have been reported placed (R126). -/
  unitRep : Bool := false
  deriving DecidableEq, Repr, Inhabited

/-- A launch between the record's check and its end (R80, R92, R445). -/
structure Launch where
  lr : LaunchRec := {}
  queue : Nat := 0
  cmd : Nat := 0
  ctx : Nat := 0
  recAddr : Nat := 0
  st : LaunchState := .done
  /-- It repeats: the prologue returned action 2 (R85). -/
  again : Bool := false
  rep : Nat := 0
  /-- The holding of the head from which it was made. -/
  grant : Nat := 0
  total : Nat := 0
  ranges : Tbl Range := []
  count : Nat := 0
  /-- Halt code with which it ends, 0 while none (R94, R95, R438). -/
  code : Nat := 0
  /-- Windows already written out at retirement (R445). -/
  wrote : Nat := 0
  /-- Order of launch, for placement (R93), and when it began to wait for windows (R81). -/
  order : Nat := 0
  /-- Groups lost with a die (R94). -/
  lost : Nat := 0
  /-- A command cancelled under R86, and the processor that holds it until DONEF is stored. -/
  cancel : Option Nat := none
  deriving DecidableEq, Repr, Inhabited

/-- The command at a queue's head, as read (R73, R74). -/
structure HeadCmd where
  words : List Nat := []
  sat0 : Bool := false
  sat1 : Bool := false
  /-- The lines of its fence objects as last read, by wait: a store to one makes the device read again (R79). -/
  watch : List (Nat × Nat) := []
  deriving DecidableEq, Repr, Inhabited

/-- A command queue (Table 3-1). -/
structure Queue where
  qbase : Nat := 0
  en : Bool := false
  pempt : Bool := false
  log2sz : Nat := 4
  prio : Nat := 0
  ctx : Nat := 0
  qtail : Nat := 0
  qhead : Nat := 0
  erri : Nat := 0
  halt : Bool := false
  waitf : Bool := false
  waitw : Bool := false
  run : Bool := false
  waitr : Bool := false
  errc : Nat := 0
  qfaddr : Nat := 0
  head : Option HeadCmd := none
  /-- The head command is held by a processor, by a launch that repeats, or by a window wait. -/
  held : Bool := false
  /-- Commands that have been granted: it tells one holding of the head from the next. -/
  grant : Nat := 0
  /-- Repetition index of the head command (R83). -/
  rep : Nat := 0
  /-- A repetition awaits a processor. -/
  again : Bool := false
  /-- Held off its cores by PGO (R431). -/
  pheld : Bool := false
  deriving DecidableEq, Repr, Inhabited

/-- What a command processor is at (Table 3-3): a SIGNAL's store, the first 64 bytes of the record, the prologue, the
record (of a launch that repeats), or a cancelled launch. -/
inductive CpStage where
  | signal | start | prologue | record (again : Bool) | cancel
  deriving DecidableEq, Repr, Inhabited

/-- A command processor; its registers and PC are a rill's at key cpKey (R82 to R84). -/
structure CmdProc where
  busy : Bool := false
  stage : CpStage := .prologue
  queue : Nat := 0
  /-- The count of the command it holds. -/
  cmd : Nat := 0
  /-- The launch record's address, its PROLOG, and instructions executed. -/
  recAddr : Nat := 0
  count : Nat := 0
  deriving DecidableEq, Repr, Inhabited

/-- A candidate that has been granted its issue: PC, cohort, every ready thread, and its word, or the cause for which there is
none (R153, R221). -/
structure Grant where
  pc : DWord := 0
  lanes : List Nat := []
  ready : List Nat := []
  word : Word := 0
  fail : Option Nat := none
  deriving DecidableEq, Repr, Inhabited

/-- The issue in hand: the rill, the PC, the cohort and the word. -/
structure Issue where
  rill : Nat := 0
  pc : DWord := 0
  lanes : List Nat := []
  word : Word := 0
  deriving DecidableEq, Repr, Inhabited

/-! ## Coherence (14) -/

/-- Token state of a line at one holder (Table 14-5). -/
structure Holder where
  cnt : Nat := 0
  own : Bool := false
  val : Bool := false
  dirty : Bool := false
  /-- PSN: a bit for each 64-byte half (R331). -/
  psn : BitVec 2 := 0
  deriving DecidableEq, Repr, Inhabited

/-- A line's holders: the slices of towers 0 to 3 and, last, the home; and LENT (R322). -/
structure LineState where
  hs : List Holder := [{}, {}, {}, {}, ⟨64, true, true, false, 0⟩]
  lent : Nat := 0
  deriving DecidableEq, Repr, Inhabited

inductive CohKind where
  | treqs | treqx | tok | preq | pact | pdone | pdeact | pack
  deriving DecidableEq, Repr, Inhabited

/-- A coherence message in flight (Table 14-6): holder numbers 0 to 3 are towers, 4 is the home;
for table messages `dst` is the base die. -/
structure CohMsg where
  kind : CohKind := .tok
  line : Nat := 0
  src : Nat := 0
  dst : Nat := 0
  /-- The requester. -/
  req : Nat := 0
  write : Bool := false
  cnt : Nat := 0
  own : Bool := false
  dirty : Bool := false
  psn : BitVec 2 := 0
  data : Bool := false
  entry : Nat := 0
  /-- PACK: an activation, not a deactivation, was installed. -/
  act : Bool := false
  /-- The relay die (0 FED, 1 IOD) of a message between base dies, and its sequence number (R330). -/
  relay : Option Nat := none
  num : Nat := 0
  deriving DecidableEq, Repr, Inhabited

/-- A transient request that is not satisfied (R326). -/
structure TransReq where
  line : Nat := 0
  holder : Nat := 0
  write : Bool := false
  fails : Nat := 0
  /-- It has become persistent; its line operation has been performed before its entry was active. -/
  pers : Bool := false
  served : Bool := false
  since : Nat := 0
  deriving DecidableEq, Repr, Inhabited

/-- A persistent request at its home's arbiter: queued, active with its entry number, or being
deactivated (R327). -/
structure PersReq where
  line : Nat := 0
  req : Nat := 0
  write : Bool := false
  entry : Option Nat := none
  /-- PACKs returned: four make it active, and four more free its entry. -/
  acks : Nat := 0
  /-- Its requester is done. -/
  closing : Bool := false
  deriving DecidableEq, Repr, Inhabited

/-- Coherence state. -/
structure Coh where
  lines : Tbl LineState := []
  msgs : List CohMsg := []
  trans : List TransReq := []
  /-- Persistent requests by home. -/
  pers : Tbl (List PersReq) := []
  /-- Persistent tables of the base dies: key 64 d + entry. -/
  ptab : Tbl (Option PersReq) := []
  /-- Next sequence number to send and next to accept, by pair 4 s + r of base dies (R330). -/
  numOut : Tbl Nat := []
  numIn : Tbl (List Nat) := []
  /-- Messages kept for retransmission until they are acknowledged. -/
  resend : List CohMsg := []
  /-- Requests that reached a home while the line was lent, oldest first (R333, R334). -/
  asked : List CohMsg := []
  /-- Poisoned 64-byte halves of basin store, by number (R331). -/
  bpoison : List Nat := []
  /-- Lines with a BISnpInv outstanding, and lines whose dataless BIRspI is to be absorbed. -/
  snoops : List Nat := []
  absorb : List Nat := []
  /-- Reads of the host that wait for tokens: line, and 0 read, 1 shared copy, 2 copy with write
  permission (R332, R335). -/
  hostReqs : List (Nat × Nat) := []
  deriving DecidableEq, Repr, Inhabited

/-- An answer to a request of the host: the data of a read, poison, or Unsupported Request (R98). -/
structure HostReply where
  addr : Nat := 0
  data : List Byte := []
  psn : BitVec 2 := 0
  unsupported : Bool := false
  deriving DecidableEq, Repr, Inhabited

/-! ## The walker (R264) -/

/-- A page-walk cache entry: in context `ctx` with root `root`, the table of level `level` for the page of `base`. -/
structure PwcEntry where
  ctx : Nat := 0
  root : Nat := 0
  level : Nat := 0
  base : Nat := 0
  table : Nat := 0
  deriving DecidableEq, Repr, Inhabited

/-- A walk in flight or queued: where it has come to, and the TLBs that missed: a core's by its key, a tower's by
1000 + tower, none by 2000. -/
structure Walk where
  ctx : Nat := 0
  va : Nat := 0
  who : List Nat := []
  deriving DecidableEq, Repr, Inhabited

structure Walker where
  pwc : List PwcEntry := []
  flight : List Walk := []
  queue : List Walk := []
  deriving DecidableEq, Repr, Inhabited

/-! ## Traps and host registers (18) -/

/-- What an event is about (R422). -/
inductive EventOf where
  | rill (k : Nat)
  | savedRill (room i : Nat)
  | copy (k id : Nat)
  | tile (unit id : Nat)
  | savedTile (room i id : Nat)
  | coll (i : Nat)
  deriving DecidableEq, Repr, Inhabited

/-- Registers of Table 18-3 and the events that are not resolved (R421, R422). -/
structure TrapRegs where
  rbase : Nat := 0
  rlog2 : Nat := 8
  rtail : Nat := 0
  rhead : Nat := 0
  cxpbase : Nat := 0
  cxpn : Nat := 0
  pq : Nat := 0
  nextId : Nat := 1
  /-- Events that wait for room in the ring, oldest first. -/
  waiting : List EventOf := []
  events : List (Nat × EventOf) := []
  /-- Context frames in use. -/
  frames : List Nat := []
  /-- Deferred pre-emptions: groups, in order (R426). -/
  deferred : List Nat := []
  deriving DecidableEq, Repr, Inhabited

/-! ## Dies, links and boot (04) -/

inductive DieState where
  | off | fuseCheck | quarantine | keyed | active | draining | resetting
  deriving DecidableEq, Repr, Inhabited

/-- A die (R100, R102, R111, R112, R236, R433). -/
structure Die where
  st : DieState := .off
  failc : Nat := 0
  rstcnt : Nat := 0
  /-- Fused identity. -/
  dieid : BitVec 128 := 0
  /-- Held in QUARANTINE after its third failed attempt. -/
  held : Bool := false
  attempts : Nat := 0
  /-- Exchanges of R103 that the attempt in progress has made, and FED local time at which it began. -/
  exch : Nat := 0
  tryAt : Nat := 0
  /-- Local time in ns, and its value when the die entered its present state. -/
  ltime : DWord := 0
  since : DWord := 0
  /-- Fused harvest map of a compute die, and the mask last reported to the FED. -/
  harvest : Nat := 0xFFFFFF
  rmask : Nat := 0
  /-- Core positions whose ENM has been read from the fuses. -/
  enm : Nat := 0
  gated : Bool := false
  lastPlaced : Nat := 23
  /-- Something happened after which the dispatcher evaluates its candidates (R117). -/
  evaluate : Bool := false
  dbgen : Bool := false
  hreq : Bool := false
  halted : Bool := false
  deriving DecidableEq, Repr, Inhabited

/-- One direction of a die link (R99, R104, R105): 2 × link + (1 towards the FED); and, from 34 on, of the path set of
a peer (R106): 34 + 2 × peer + (1 for what it receives). -/
structure LinkDir where
  /-- Keys installed so far, which number the key in use, and the salt sent with it. -/
  gen : Nat := 0
  salt : Nat := 0
  senderKey : Bool := false
  receiverKey : Bool := false
  /-- A rollover in progress: 1 begun, 2 the receiver has the next key, 3 the sender has flipped. -/
  roll : Nat := 0
  /-- One more is to start when it ends. -/
  again : Bool := false
  phase : Bool := false
  /-- Local times of the tag failures of the last ms. -/
  fails : List Nat := []
  /-- The request across the link that has waited longest for its response, as the watchdog saw it, and since when (R436). -/
  asked : Option (Nat × Nat × Nat) := none
  deriving DecidableEq, Repr, Inhabited

inductive StepResult where
  | notRun | passed | failed | skipped
  deriving DecidableEq, Repr, Inhabited

/-- An entry of the boot step record (R109). -/
structure BootStep where
  alternate : Bool := false
  result : StepResult := .notRun
  starts : Nat := 0
  deriving DecidableEq, Repr, Inhabited

/-- The boot sequencer (R109), the host port's sessions (R98) and the save port (R256). -/
structure Boot where
  record : Tbl BootStep := []
  /-- The record that the previous start left. -/
  prev : Tbl BootStep := []
  /-- The step now due, 1 to 10; 11 when the package has left boot; 0 without power. -/
  step : Nat := 0
  /-- Boot failure: of this start, and until the record is cleared. -/
  stopped : Bool := false
  stuck : Bool := false
  /-- The save port trained with a module that holds a namespace. -/
  saveport : Bool := false
  /-- IDE streams are keyed, over an SPDM session. -/
  ide : Bool := false
  spdm : Bool := false
  /-- The host link as trained (Table 4-1): GT/s and lanes, 0 while it is down. -/
  rate : Nat := 0
  width : Nat := 0
  /-- The answer to the last DOE request: words, none where it was declined. -/
  doe : List Nat := []
  /-- Headgate's revocation list, and the reference values of a die's measurements; those of a die not listed are what
  it measures. -/
  revoked : List (BitVec 128) := []
  manifest : Tbl (List Nat) := []
  deriving DecidableEq, Repr, Inhabited

/-! ## Power, clocks and heat (11), buckets (10) -/

/-- A compute domain (Table 10-4, R227, R248, R249). -/
structure Dom where
  dbal : Nat := 0
  dcap : Nat := 0xFFFFFF
  cref : Nat := 16384
  ccap : Nat := 65535
  crefNext : Nat := 16384
  ccapNext : Nat := 65535
  clim : Nat := 0xFFFF
  tlim : Nat := 0xFFFF
  vlim : Nat := 0xFFFF
  deny : Nat := 0
  drawn : Nat := 0
  intrej : Nat := 0
  /-- EQ drawn, and requested but not granted, in the present Weir period. -/
  m : Nat := 0
  u : Nat := 0
  /-- What the last Weir period filled, which goes on while the FED is reset (Table 4-6), and the local time of the
  domain's die at which the next such fill is due. -/
  fill : Nat := 0
  fillDue : Nat := 1000
  /-- EQ drawn in the Weir period before; the last period drew less; and how many kinds of ballast run (R243). -/
  lastM : Nat := 0
  fell : Bool := false
  ballast : Nat := 0
  /-- Epochs begun (R227). -/
  epoch : Nat := 0
  fsel : Nat := 4
  cur : Nat := 4
  busy : Bool := false
  /-- Domain clocks of the injections of the present window, and of the first halving counted in it. -/
  inj : List Nat := []
  stretched : Option Nat := none
  deriving DecidableEq, Repr, Inhabited

/-- A live intent received from a peer (R246). -/
structure PeerIntent where
  dev : Nat := 0
  cls : Nat := 0
  fall : Nat := 0
  lead : Nat := 0
  since : Nat := 0
  deriving DecidableEq, Repr, Inhabited

/-- The Weir and the power registers (Table 11-1, R239 to R251). Power in W, energy in J. -/
structure Power where
  bcap : Nat := 3400
  pcap : Nat := 2800
  floor : Nat := 0
  slew : Nat := 400
  gramp : Nat := 400000
  boosten : Bool := false
  hyst : Nat := 3
  thrw : Nat := 1800
  tbcap : Nat := 1500
  stepact : Bool := false
  pincap : Nat := 1400
  stepcap : Nat := 2800
  /-- PDRAW and R in mW; the registers show them in W. -/
  pdraw : Nat := 0
  rate : Nat := 0
  /-- R as RATE shows it: that of the last period that has ended (R239). -/
  rateShown : Nat := 0
  /-- The thermal bucket in nJ; TB shows it in J. -/
  tb : Nat := 1500000000000
  tstate : Nat := 0
  stage : Nat := 0
  booston : Bool := false
  /-- Boost ended with an empty bucket and has not resumed (R247). -/
  boostOut : Bool := false
  sensor : Nat := 0
  tmax : Int := 0
  /-- Ramp stagger in µs, fused as the last byte of the SHA-384 hash of the FED's DIEID (R244): that of the
  DIEID 0 which the model names. -/
  phase : Nat := 106
  npeer : Nat := 0
  falls : Nat := 0
  falll : Nat := 0
  events : BitVec 10 := 0
  injn : Nat := 0
  stretch : Nat := 0
  ssn : Nat := 0
  ssaddr : Nat := 0
  src : Nat := 0
  chg : Nat := 0
  /-- The PSTEP pin, and THERM_TRIP_N asserted. -/
  pin : Bool := false
  thermTrip : Bool := false
  /-- FED local time at which the next Weir period, thermal and charge sample are due. -/
  weirDue : Nat := 1000
  thermDue : Nat := 10000
  chargeDue : Nat := 10000
  /-- Caps, ramp and pin level in force, and the changes that wait for the stagger: (time, new value). -/
  capNow : Nat := 2800
  grampNow : Nat := 400000
  pinNow : Bool := false
  capDue : List (Nat × Nat) := []
  grampDue : List (Nat × Nat) := []
  pinDue : List (Nat × Bool) := []
  /-- The step that has been commanded: the time from which it is active and its cap, and whether the pin
  commanded it. -/
  stepDue : Option (Nat × Nat) := none
  stepPin : Bool := false
  /-- Periods of the step within 2% of the cap, and periods below 97% of Tmax. -/
  inBand : Nat := 0
  calm : Nat := 0
  /-- dup, ddn and F of the present Weir period, in mW (R239). -/
  dupK : Nat := 400000
  ddnK : Nat := 400000
  floorK : Nat := 0
  /-- The self-test register (R243). -/
  selftest : Nat := 0
  confRate : Nat := 16
  pathsIdle : Bool := false
  /-- Times of the thermal state changes, the newest first. -/
  changes : List Nat := []
  peers : List PeerIntent := []
  /-- The summed fall last sent, and when. -/
  lastFall : Nat := 0
  lastMsg : Nat := 0
  /-- Power commands of the host and the pin that wait for the FED (Table 4-6). -/
  late : List Instr := []
  deriving DecidableEq, Repr, Inhabited

/-! ## Fabric, Sluices and Confluence (16) -/

/-- A data flit sent and not acknowledged, in the retry pool (R371). -/
structure PoolFlit where
  ssn : Nat := 0
  vc : Nat := 0
  path : Nat := 0
  /-- IOD local time of its last sending; a replay is due. -/
  sent : Nat := 0
  replay : Bool := false
  /-- Its 72 bytes as they were last sent (Table 16-3). -/
  bytes : List Byte := []
  /-- The multicast packet of which it is a branch's (R377). -/
  pkt : Option Nat := none
  /-- It is forwarded for other devices (R373). -/
  fwd : Bool := false
  deriving DecidableEq, Repr, Inhabited

/-- A packet that failed its tag, until its replay has come (R368): its numbers, and its flits that have come again. -/
structure BadPacket where
  ssns : List Nat := []
  got : Tbl (List Byte) := []
  deriving DecidableEq, Repr, Inhabited

/-- The path set and session towards one peer (R364 to R376, Table 16-2). -/
structure Peer where
  sess : Bool := false
  /-- Live paths, one bit each; paths retrained since a time, to rejoin after 10 ms (R370). -/
  live : Nat := 0
  trained : Tbl Nat := []
  crcFails : Tbl (List Nat) := []
  shed1 : Bool := false
  shed4 : Bool := false
  relay : Option Nat := none
  /-- Channels that go by relay, one bit each (R373). -/
  relayed : Nat := 0
  nextSsn : Nat := 0
  /-- Path of the last flit sent, for the round robin (R368). -/
  turn : Nat := 15
  pool : List PoolFlit := []
  /-- The egress (R374, R390): whether VC1 took the last turn between VC0 and VC1, the bandwidth class in service on VC1,
  and the classes' deficits. -/
  alt : Bool := false
  cls : Nat := 8
  deficit : Tbl Nat := []
  /-- Receiving side: the lowest SSN not received, and flits beyond it, held for order. -/
  want : Nat := 0
  stash : Tbl (List Byte) := []
  /-- Flits of packets whose last flit has not come, in order; packets that failed their tags. -/
  inbox : List (List Byte) := []
  bad : List BadPacket := []
  /-- Numbers of the last acknowledgement and of the last NAK that it sent (R368). -/
  ack : Nat := 0
  nak : Option Nat := none
  /-- Packet counter of the key of the sending direction (R105, R372). -/
  ctr : Nat := 0
  /-- IOD local time of the last hold message (R380). -/
  hold : Option Nat := none
  lastHold : Nat := 0
  deriving DecidableEq, Repr, Inhabited

inductive ReqKind where
  | load | store | atomic | rop | unitRead | unitWrite | read
  deriving DecidableEq, Repr, Inhabited

/-- A remote request without its response (R378, R380). -/
structure RemReq where
  id : Nat := 0
  kind : ReqKind := .load
  peer : Nat := 0
  sluice : Nat := 0
  vc : Nat := 1
  num : Nat := 0
  addr : Nat := 0
  size : Nat := 0
  /-- The rill, and its access and lane, or its copy command. -/
  rill : Nat := 0
  acc : Nat := 0
  lane : Nat := 0
  /-- What it carries: the sub-operation and operands of a lane atomic, the data of a write, the block
  of an ROP. -/
  data : List Nat := []
  /-- Of a store of the device's own (R468): its address, its argument in the black box, and, of a DONEF store, the queue
  and the command's count; of a DONEC add, its group as `queue`. -/
  va : Nat := 0
  arg : Nat := 0
  queue : Nat := 0
  cmd : Nat := 0
  /-- Die and core position of the party whose store it is. -/
  die : Nat := 0
  core : Nat := 0
  /-- Its bandwidth class on VC1, 8 for core requests and ROPs (R390). -/
  cls : Nat := 8
  sent : Bool := false
  /-- IOD local time since which it has had no route. -/
  since : Option Nat := none
  deriving DecidableEq, Repr, Inhabited

/-- A packet of Confluence (R377): the collective, its class and flits, and the destinations to which its branches have
still to be sent. The retry pool holds one copy of it. -/
structure Packet where
  id : Nat := 0
  coll : Nat := 0
  cls : Nat := 0
  n : Nat := 1
  todo : List Nat := []
  deriving DecidableEq, Repr, Inhabited

/-- Where an item of the egress comes from: a request, a branch of a packet, or what waits for itself. -/
inductive OutSrc where
  | req (id : Nat)
  | branch (id : Nat)
  | wait (id : Nat)
  deriving DecidableEq, Repr, Inhabited

/-- What waits at the egress (R374): its destination, set, channel and class, the flits still to go, whether none has gone, and,
of a packet forwarded for another device (R373), their bytes. -/
structure Outgoing where
  src : OutSrc := .wait 0
  dst : Nat := 0
  hop : Nat := 0
  vc : Nat := 1
  cls : Nat := 8
  n : Nat := 1
  first : Bool := true
  flits : List (List Byte) := []
  deriving DecidableEq, Repr, Inhabited

/-- A request held at a Sluice for its order (R379). -/
structure HeldReq where
  n : Nat := 0
  op : Nat := 0
  addr : Nat := 0
  data : List Byte := []
  deriving DecidableEq, Repr, Inhabited

/-- One Sluice's window for a source and channel (R379): numbers applied, the last applied in
order, and of each result cached in device memory, by its number, the response's code and length. -/
structure SluiceWin where
  /-- The latest u that a request has carried. -/
  oldest : Nat := 0
  applied : List Nat := []
  last : Nat := 0xFFFF
  cache : Tbl (Nat × Nat) := []
  held : List HeldReq := []
  /-- ENQs between their two line operations, by number: the old tail. -/
  enqs : Tbl Nat := []
  deriving DecidableEq, Repr, Inhabited

/-- One write of a collective's results, within a line: with the saturations and the NaNs produced in it (R70). -/
structure CollWrite where
  va : Nat := 0
  bytes : List Byte := []
  sat : Nat := 0
  nan : Nat := 0
  deriving DecidableEq, Repr, Inhabited

/-- A collective Confluence holds (R385 to R391). -/
structure Coll where
  /-- Its own name. -/
  tag : Nat := 0
  /-- The rill that issued it: group, card and index, room and core, context, and the queue of its launch. -/
  group : Nat := 0
  card : Nat := 0
  rid : Nat := 0
  room : Nat := 0
  core : Nat := 0
  ctx : Nat := 0
  queue : Nat := 0
  block : List Nat := []
  /-- Buckets whose signal has sufficed; the line of a signal word that has not, and whether a store has come to it since
  (R387). -/
  started : Nat := 0
  watch : Option Nat := none
  reread : Bool := false
  /-- Chunks received, by 64 bucket + rank: the rank's elements and exponents of this device's part
  of the exchange. -/
  data : Tbl (List Byte) := []
  exps : Tbl (List Byte) := []
  written : List Nat := []
  /-- What has been read of the source of the next bucket: bytes with their scales. -/
  got : List (Byte × Nat) := []
  /-- Writes of the bucket in hand that are still to be made, and packets still to be sent: flits and destinations. -/
  todo : List CollWrite := []
  sends : List (Nat × List Nat) := []
  /-- Status code and rank, once it is ending (R391); its status word has been stored. -/
  status : Option (Nat × Nat) := none
  told : Bool := false
  /-- IOD local time since which a rank has had no route. -/
  since : Option Nat := none
  susp : Bool := false
  event : Nat := 0
  waiting : Bool := false
  faddr : Nat := 0
  fcause : Nat := 0
  deriving DecidableEq, Repr, Inhabited

/-- Bytes of a peer that a party of this device reads for itself: the party, the context and the address, the request,
and the outcome once it has come: code and bytes. -/
structure PeerBytes where
  who : Nat := 0
  ctx : Nat := 0
  va : Nat := 0
  req : Nat := 0
  code : Option Nat := none
  data : List Byte := []
  deriving DecidableEq, Repr, Inhabited

/-- Fabric registers and state (Table 16-1). -/
structure Fab where
  en : Bool := false
  elmen : Nat := 0xF
  elmlos : Nat := 0
  devno : Nat := 0
  wgt : Nat := 0x11111111
  ferbase : Nat := 0
  ferlog2 : Nat := 8
  ferhead : Nat := 0
  dups : Nat := 0
  replays : Nat := 0
  peers : Tbl Peer := []
  /-- Set states devices announced: by 64 q + p, live paths and shed bits (R373). -/
  announced : Tbl (Nat × Bool × Bool) := []
  reqs : List RemReq := []
  nextReq : Nat := 1
  reads : List PeerBytes := []
  packets : List Packet := []
  /-- Responses, VC3 and VC4 messages and packets forwarded for others, which wait at the egress. -/
  outs : List Outgoing := []
  /-- Next operation sequence number by (peer, Sluice, channel). -/
  seqs : Tbl Nat := []
  wins : Tbl SluiceWin := []
  colls : List Coll := []
  /-- Records of the fabric event ring that the host port does not take yet: address and bytes (R98). -/
  ferwait : List (Nat × List Byte) := []
  /-- IOD local time at which the set states were last announced, and whether one has changed since (R373). -/
  lastAnn : Nat := 0
  annDue : Bool := false
  deriving DecidableEq, Repr, Inhabited

/-! ## Records (19) -/

/-- An event not yet recorded (Table 19-2). -/
structure BoxEvent where
  kind : Nat := 0
  die : Nat := 0
  core : Nat := 0
  part : Nat := 0
  slot : Nat := 0
  code : Nat := 0
  arg0 : Nat := 0
  arg1 : Nat := 0
  deriving DecidableEq, Repr, Inhabited

/-- The recorder (R449, R450). The ring itself is in device memory. -/
structure BlackBox where
  nseq : Nat := 0
  freeze : Bool := false
  drops : Nat := 0
  queue : List BoxEvent := []
  /-- It has found its place in the ring after boot (R451). -/
  ready : Bool := false
  /-- The ring is to be zeroed; an entry is to be returned over MCTP: they wait for the homes of its lines. -/
  clearing : Bool := false
  asked : Option Nat := none
  /-- The entry last returned over MCTP. -/
  mctp : List Byte := []
  deriving DecidableEq, Repr, Inhabited

/-! ## Emergency save (R253 to R256) -/

/-- One item of an emergency save (R253): the black box, control state, a group or neighbour-core card by its
room, a rill by its room and place in its list, an entry of the save set. -/
inductive SaveItem where
  | blackBox | control | group (room : Nat) | rill (room i : Nat) | saveSet (i : Nat)
  deriving DecidableEq, Repr, Inhabited

/-- An item as written through the save port (R256): where its data starts, its length and the CRC-32 of its data, as its
directory record has them; the base of a save-set entry, and the bytes of the items whose bytes the spec gives. -/
structure PortItem where
  item : SaveItem := .blackBox
  first : Nat := 1
  len : Nat := 0
  crc : Nat := 0
  base : Nat := 0
  data : List Byte := []
  deriving DecidableEq, Repr, Inhabited

/-- What the next boot may find of a save beside the bytes of the save region: the save module's directory and complete
items, control state and saved contexts, with the bit of each item. -/
structure Image where
  /-- Its save has come to no boot yet. -/
  fresh : Bool := false
  bits : List (SaveItem × Nat) := []
  dir : List Byte := []
  port : List PortItem := []
  queues : Tbl Queue := []
  launches : Tbl Launch := []
  running : List Nat := []
  active : List Nat := []
  groups : Tbl Group := []
  cards : Tbl Card := []
  rooms : Tbl Room := []
  jobs : Tbl (List Job) := []
  windows : List Window := []
  power : Power := {}
  /-- Sequence state: of requests to peers, of the Sluices, and the requests without an answer. -/
  seqs : Tbl Nat := []
  wins : Tbl SluiceWin := []
  reqs : List RemReq := []
  nextReq : Nat := 1
  /-- CXPBASE at the save. -/
  cxp : Nat := 0
  /-- Rills that the end of the power cut off before their group's item: launch and black-box entry. -/
  cut : List (Nat × BoxEvent) := []
  deriving DecidableEq, Repr, Inhabited

/-- The save in progress, and the image found at boot (R255): 0 none, 1 retained memory, 2 the save module. -/
structure Save where
  active : Bool := false
  /-- Started by SAVE, not by PFAIL_N. -/
  thermal : Bool := false
  pfail : Bool := false
  /-- The FED was not ACTIVE when the power failed: no image reaches the port (Table 11-5). -/
  noPort : Bool := false
  /-- Image sequence number of the last save. -/
  seq : Nat := 0
  /-- The items of the region in the order of R253 with their bits in the completion bitmap, those complete there, and
  whether the marker has been written. -/
  items : List (SaveItem × Nat) := []
  region : List SaveItem := []
  marker : Bool := false
  /-- The save set: index and bit of each entry. -/
  sets : List (SaveItem × Nat) := []
  /-- Items written at the port with their directory records, and how many of them a Flush has made durable. -/
  wrote : List PortItem := []
  flushed : Nat := 0
  /-- SAVED: nothing runs until a package reset. -/
  saved : Bool := false
  /-- Bytes of the black box when its bit was set (R451). -/
  box : List Byte := []
  found : Nat := 0
  image : Image := {}
  /-- The image that the save module holds still when the last save wrote nothing there (R256). -/
  older : Image := {}
  deriving DecidableEq, Repr, Inhabited

/-! ## The package -/

/-- The state of the package. Tables are total: a key with no entry holds the structure's default,
which is its state after reset. -/
structure State where
  /-- Rills by slot key; command processor n at key cpKey n. -/
  rills : Tbl Rill := []
  /-- Extended blocks by half slot key. -/
  xblks : Tbl Xblk := []
  /-- Cores by 24 × die + position. -/
  cores : Tbl Core := []
  /-- Tile units by 2 × core + unit. -/
  tiles : Tbl TileUnit := []
  rooms : Tbl Room := []
  groups : Tbl Group := []
  cards : Tbl Card := []
  /-- Span reservation requests by tower. -/
  spanReqs : Tbl (Option SpanReq) := []
  launches : Tbl Launch := []
  /-- Launches not done, and groups not retired. -/
  running : List Nat := []
  active : List Nat := []
  /-- Next number for a launch, group, card or room. -/
  fresh : Nat := 1
  queues : Tbl Queue := []
  cps : Tbl CmdProc := []
  lastGrant : Tbl (Option Nat) := []
  windows : List Window := []
  dies : Tbl Die := []
  doms : Tbl Dom := []
  links : Tbl LinkDir := []
  boot : Boot := {}
  power : Power := {}
  save : Save := {}
  /-- Device memory, basin store and host memory; an unlisted byte reads 0. -/
  dram : List Host.Cell := []
  basin : List Host.Cell := []
  hostMem : List Host.Cell := []
  /-- BSIZE of each slice, and the sizes to which changes in progress lead (R269). -/
  bsize : Tbl Nat := []
  bnext : Tbl (Option Nat) := []
  /-- Root registers by context: ROOT and EN (R260). -/
  roots : Tbl (Nat × Bool) := []
  towerTlb : Tbl (List TlbEntry) := []
  walker : Walker := {}
  coh : Coh := {}
  /-- What the port last answered the host (R98). -/
  reply : HostReply := {}
  traps : TrapRegs := {}
  /-- GREQ as written, and GBUSY: 1 gating, 2 restoring (R421). -/
  greq : Tbl Bool := []
  gbusy : Tbl Nat := []
  /-- Times each MSI-X vector was raised. -/
  msix : Tbl Nat := []
  /-- MCTP reports to the board management controller: kind and argument (R101, R109, R420). -/
  mctp : List (Nat × Nat) := []
  /-- Staging copy of the price banks, by 4096 × bank + index; PRCTL.BANK; the bank last sent, its entries
  as they were sent, and the cores still to switch to them (R225). -/
  stage : Tbl Nat := []
  prbank : Nat := 0
  prnew : Nat := 0
  prsent : Tbl Nat := []
  prwait : List Nat := []
  fab : Fab := {}
  box : BlackBox := {}
  /-- The model's own: events due, rills granted an issue, the issue in hand, steps taken from the
  stream of events, free values used. -/
  agenda : List Instr := []
  /-- Words of the firmware image that have been placed, by place in words; what the others are is left open. -/
  fw : Tbl Word := []
  grants : List Nat := []
  /-- Those of them that take the energy-price trap (R221). -/
  dear : List Nat := []
  /-- What each of them issues. -/
  granted : Tbl Grant := []
  cur : Issue := {}
  tick : Nat := 0
  free : Nat := 0
  deriving DecidableEq, Repr, Inhabited

/-- The package right after package reset: every register at the value the spec states for it, and
where the spec states none at the value named in the assumption log; every die OFF (R100, R110). -/
def State.reset : State := {}

end Sys2Proof.Machine
end

