-- ==== Sys2Proof/Machine/Ops.lean ====
section
/-! DEFINITION. The named operations over registers, memory and tables, taking a trap, and the ends
of launches that several instructions share. -/
namespace Sys2Proof.Machine

abbrev Res := Host.Outcome State Fault Refusal

/-! ## Keys (R7, R115) -/

def coreKey (die pos : Nat) : Nat := 24 * die + pos
def slotKey (core part slot : Nat) : Nat := 128 * core + 16 * part + slot
def keyCore (k : Nat) : Nat := k / 128
def keyPart (k : Nat) : Nat := k / 16 % 8
def keySlot (k : Nat) : Nat := k % 16
def coreDie (c : Nat) : Nat := c / 24
def corePos (c : Nat) : Nat := c % 24
def keyDie (k : Nat) : Nat := coreDie (keyCore k)
def dieTower (d : Nat) : Nat := (d - 6) / 2
def dieLayer (d : Nat) : Nat := (d - 6) % 2
def otherLayer (d : Nat) : Nat := if dieLayer d = 0 then d + 1 else d - 1
def isCompute (d : Nat) : Bool := decide (6 ≤ d) && decide (d < 14)
/-- The bonded core of core `c` (R7). -/
def bonded (c : Nat) : Nat := if dieLayer (coreDie c) = 0 then c + 24 else c - 24
/-- Command processor `n` runs its prologue as the rill of this key. -/
def cpKey (n : Nat) : Nat := 0x10000 + n
def isCp (k : Nat) : Bool := decide (0x10000 ≤ k)

/-! ## Tables of the state -/

def State.rill (s : State) (k : Nat) : Rill := s.rills.get {} k
def State.setRill (s : State) (k : Nat) (r : Rill) : State := { s with rills := s.rills.set k r }
def State.core (s : State) (c : Nat) : Core := s.cores.get {} c
def State.setCore (s : State) (c : Nat) (x : Core) : State := { s with cores := s.cores.set c x }
def State.tile (s : State) (u : Nat) : TileUnit := s.tiles.get {} u
def State.setTile (s : State) (u : Nat) (x : TileUnit) : State := { s with tiles := s.tiles.set u x }
def State.room (s : State) (i : Nat) : Room := s.rooms.get {} i
def State.setRoom (s : State) (i : Nat) (x : Room) : State := { s with rooms := s.rooms.set i x }
def State.group (s : State) (i : Nat) : Group := s.groups.get {} i
def State.setGroup (s : State) (i : Nat) (x : Group) : State := { s with groups := s.groups.set i x }
def State.card (s : State) (i : Nat) : Card := s.cards.get {} i
def State.setCard (s : State) (i : Nat) (x : Card) : State := { s with cards := s.cards.set i x }
def State.launch (s : State) (i : Nat) : Launch := s.launches.get {} i
def State.setLaunch (s : State) (i : Nat) (x : Launch) : State := { s with launches := s.launches.set i x }
def State.queue (s : State) (q : Nat) : Queue := s.queues.get {} q
def State.setQueue (s : State) (q : Nat) (x : Queue) : State := { s with queues := s.queues.set q x }
def State.cp (s : State) (n : Nat) : CmdProc := s.cps.get {} n
def State.setCp (s : State) (n : Nat) (x : CmdProc) : State := { s with cps := s.cps.set n x }
def State.die (s : State) (d : Nat) : Die := s.dies.get {} d
def State.setDie (s : State) (d : Nat) (x : Die) : State := { s with dies := s.dies.set d x }
def State.dom (s : State) (n : Nat) : Dom := s.doms.get {} n
def State.setDom (s : State) (n : Nat) (x : Dom) : State := { s with doms := s.doms.set n x }
def State.link (s : State) (i : Nat) : LinkDir := s.links.get {} i
def State.setLink (s : State) (i : Nat) (x : LinkDir) : State := { s with links := s.links.set i x }
def State.peer (s : State) (p : Nat) : Peer := s.fab.peers.get {} p
def State.setPeer (s : State) (p : Nat) (x : Peer) : State :=
  { s with fab := { s.fab with peers := s.fab.peers.set p x } }
def State.xblk (s : State) (k : Nat) : Xblk := s.xblks.get {} (k / 2)
def State.setXblk (s : State) (k : Nat) (x : Xblk) : State := { s with xblks := s.xblks.set (k / 2) x }
def State.line (s : State) (n : Nat) : LineState := s.coh.lines.get {} n
def State.setLine (s : State) (n : Nat) (x : LineState) : State :=
  { s with coh := { s.coh with lines := s.coh.lines.set n x } }

def State.modRill (s : State) (k : Nat) (f : Rill → Rill) : State := s.setRill k (f (s.rill k))
def State.modCore (s : State) (c : Nat) (f : Core → Core) : State := s.setCore c (f (s.core c))
def State.modTile (s : State) (u : Nat) (f : TileUnit → TileUnit) : State := s.setTile u (f (s.tile u))
def State.modRoom (s : State) (i : Nat) (f : Room → Room) : State := s.setRoom i (f (s.room i))
def State.modGroup (s : State) (i : Nat) (f : Group → Group) : State := s.setGroup i (f (s.group i))
def State.modCard (s : State) (i : Nat) (f : Card → Card) : State := s.setCard i (f (s.card i))
def State.modLaunch (s : State) (i : Nat) (f : Launch → Launch) : State := s.setLaunch i (f (s.launch i))
def State.modQueue (s : State) (q : Nat) (f : Queue → Queue) : State := s.setQueue q (f (s.queue q))
def State.modCp (s : State) (n : Nat) (f : CmdProc → CmdProc) : State := s.setCp n (f (s.cp n))
def State.modDie (s : State) (d : Nat) (f : Die → Die) : State := s.setDie d (f (s.die d))
def State.modDom (s : State) (n : Nat) (f : Dom → Dom) : State := s.setDom n (f (s.dom n))
def State.modPeer (s : State) (p : Nat) (f : Peer → Peer) : State := s.setPeer p (f (s.peer p))

/-- The rill of the issue in hand. -/
def State.curRill (s : State) : Rill := s.rill s.cur.rill

/-- Local time of die `d`, in ns (R236). -/
def State.now (s : State) (d : Nat) : Nat := (s.die d).ltime.toNat

/-- A free value: the next one of the stream, and the state that has used it. -/
def State.freeVal (s : State) : Nat := Config.freeNat s.free
def State.useFree (s : State) : State := { s with free := s.free + 1 }

/-! ## Threads -/

def Rill.thread (r : Rill) (l : Nat) : Thread := r.th.get {} l
def Rill.setThread (r : Rill) (l : Nat) (t : Thread) : Rill := { r with th := r.th.set l t }
def Rill.lanes (r : Rill) : List Nat := List.range r.width
/-- Lanes that have not executed EXIT. -/
def Rill.liveLanes (r : Rill) : List Nat := r.lanes.filter (fun l => !(r.thread l).exited)

def Thread.guard (t : Thread) : Nat → Bool
  | 0 => true
  | 1 => t.g1
  | 2 => t.g2
  | _ => t.g3

/-- A write to g0 is discarded (R137). -/
def Thread.setGuard (t : Thread) (g : Nat) (b : Bool) : Thread :=
  match g with
  | 1 => { t with g1 := b }
  | 2 => { t with g2 := b }
  | 3 => { t with g3 := b }
  | _ => t

/-- Applies `f` to the threads of `lanes`. -/
def Rill.mapThreads (r : Rill) (lanes : List Nat) (f : Nat → Thread → Thread) : Rill :=
  lanes.foldl (fun r l => r.setThread l (f l (r.thread l))) r

def State.mapThreads (s : State) (k : Nat) (lanes : List Nat) (f : Nat → Thread → Thread) : State :=
  s.setRill k ((s.rill k).mapThreads lanes f)

/-- The acting lanes of the issue in hand under guard `g` (R137). -/
def State.acting (s : State) (g : Nat) : List Nat :=
  s.cur.lanes.filter (fun l => !(s.curRill.thread l).exited && (s.curRill.thread l).guard g)

/-- The given lanes move to `pc`. -/
def State.moveTo (s : State) (k : Nat) (lanes : List Nat) (pc : DWord) : State :=
  s.mapThreads k lanes (fun _ t => { t with pc := pc })

/-- The cohort moves to PC + 4. -/
def State.advance (s : State) : State := s.moveTo s.cur.rill s.cur.lanes (s.cur.pc + 4)

/-- The region of each given lane ends; it restarts at the following word (R155). -/
def State.endRegion (s : State) (lanes : List Nat) : State :=
  s.mapThreads s.cur.rill lanes (fun _ t => { t with region := s.cur.pc + 4 })

/-- The rill runs: it is live and started, not parked, not dropped, its die issues and no save is in
progress (R418, R427, R434, R253). -/
def State.runs (s : State) (k : Nat) : Bool :=
  let r := s.rill k
  let d := s.die (keyDie k)
  r.live && r.started && !r.dropped && r.trap.isNone && (isCp k || d.st == .active) && !d.hreq && !d.halted &&
    !s.save.active && !s.save.saved

/-! ## Registers (R131 to R136) -/

/-- The vector register a field names, below 96. -/
def Rill.vname (r : Rill) (f : Nat) : Nat := if f < 64 then f else r.wb + f - 64
/-- The uniform register a field of a uniform instruction names. -/
def Rill.kname (r : Rill) (f : Nat) : Nat := if f < 64 then f else r.kb + f - 64

def Rill.kreg (r : Rill) (n : Nat) : Word := r.k.get 0 n
def Rill.setK (r : Rill) (n : Nat) (w : Word) : Rill := { r with k := r.k.set n w }

/-- Value of vector register `n` of lane `l` of rill `k`; v192 to v255 are the extended block. -/
def State.vreg (s : State) (k n l : Nat) : Word :=
  if n < 192 then (s.rill k).v.get 0 (64 * n + l) else (s.xblk k).v.get 0 (64 * n + l)

def State.setVreg (s : State) (k n l : Nat) (w : Word) : State :=
  if n < 192 then s.modRill k (fun r => { r with v := r.v.set (64 * n + l) w })
  else s.setXblk k { s.xblk k with v := (s.xblk k).v.set (64 * n + l) w }

/-- Operand of a vector instruction in lane `l`: a register, or a broadcast (R131); `i` counts the
registers of a pair or quad. -/
def State.src (s : State) (f i l : Nat) : Word :=
  if f < 96 then s.vreg s.cur.rill (s.curRill.vname f + i) l else s.curRill.kreg (f - 96 + i)

/-- A pair operand as a 64-bit value (R133). -/
def State.srcPair (s : State) (f l : Nat) : DWord := s.src f 1 l ++ s.src f 0 l

/-- Operand of a uniform instruction (R132). -/
def State.usrc (s : State) (f i : Nat) : Word := s.curRill.kreg (s.curRill.kname f + i)
def State.usrcPair (s : State) (f : Nat) : DWord := s.usrc f 1 ++ s.usrc f 0

/-- Clears the reuse latches of partition `p` of core `c` that `q` accepts (R139). -/
def State.clearLatches (s : State) (c p : Nat) (q : Nat → Latch → Bool) : State :=
  if (s.core c).latch.isEmpty then s else s.modCore c (fun x => { x with
    latch := (List.range 5).foldl (fun t dp =>
      match t.get none (5 * p + dp) with
      | some h => if q dp h then t.set (5 * p + dp) none else t
      | none => t) x.latch })

/-- Uniform register `n` in a reuse latch. -/
def latchK (n : Nat) : Nat := 1000 + n

/-- Writes uniform register `n` of rill `k`; the latch on it is cleared (R139). -/
def State.kwrite (s : State) (k n : Nat) (w : Word) : State :=
  (s.modRill k (·.setK n w)).clearLatches (keyCore k) (keyPart k)
    (fun _ h => h.rill == k && h.reg == latchK n)

/-- Writes a uniform destination (R132); `i` counts the registers of a pair. -/
def State.udst (s : State) (f i : Nat) (w : Word) : State :=
  s.kwrite s.cur.rill (s.curRill.kname f + i) w

/-- Writes vector register `n` in the lanes given: the latch on it is cleared (R139), and it is held
in uniform form or not (R140). With no lane nothing is written. -/
def State.vwrite (s : State) (k n : Nat) (unif : Bool) (vals : List (Nat × Word)) : State :=
  if vals.isEmpty then s else
  let s := vals.foldl (fun s p => s.setVreg k n p.1 p.2) s
  let s := s.modRill k (fun r =>
    { r with uform := if unif then n :: r.uform.filter (· != n) else r.uform.filter (· != n) })
  s.clearLatches (keyCore k) (keyPart k) (fun _ h => h.rill == k && h.reg == n)

/-- Every source of the issue is in uniform form and all live threads act (R140). -/
def State.uniformWrite (s : State) (lanes srcs : List Nat) : Bool :=
  srcs.all (fun f => decide (96 ≤ f) || s.curRill.uform.contains (s.curRill.vname f)) &&
  decide (lanes = s.curRill.liveLanes)

/-- Writes the value `f` gives in each lane to the destination field `d`. `srcs` are the register
fields read, on which uniform form depends; `none` where the instruction never leaves it. -/
def State.vdst (s : State) (d i : Nat) (srcs : Option (List Nat)) (lanes : List Nat) (f : Nat → Word) : State :=
  s.vwrite s.cur.rill (s.curRill.vname d + i) ((srcs.map (s.uniformWrite lanes)).getD false)
    (lanes.map (fun l => (l, f l)))

/-- A vector operation: in the acting lanes of guard `g`, d := f lane; every source is read before any
lane writes (R6). The cohort moves on. -/
def State.vop (s : State) (g d : Nat) (srcs : List Nat) (f : Nat → Word) : State :=
  (s.vdst d 0 (some srcs) (s.acting g) f).advance

/-! ## Memory -/

/-- The byte at an address; an unlisted byte reads 0 (log entry 1). -/
def memGet : List Host.Cell → Nat → Byte
  | [], _ => 0
  | (j, b) :: t, a => if j = a then b else memGet t a

/-- Writes a byte and keeps the canonical form: rising addresses, no listed zero. -/
def memSet : List Host.Cell → Nat → Byte → List Host.Cell
  | [], a, b => if b = 0 then [] else [(a, b)]
  | (j, c) :: t, a, b =>
    if a < j then (if b = 0 then (j, c) :: t else (a, b) :: (j, c) :: t)
    else if j = a then (if b = 0 then t else (a, b) :: t)
    else (j, c) :: memSet t a b

/-- The canonical form. -/
def memWf : List Host.Cell → Bool
  | [] => true
  | [(_, b)] => b != 0
  | (j, b) :: (i, c) :: t => b != 0 && decide (j < i) && memWf ((i, c) :: t)

def memRead (m : List Host.Cell) (a n : Nat) : List Byte := (List.range n).map (fun i => memGet m (a + i))

def memWrite (m : List Host.Cell) : Nat → List Byte → List Host.Cell
  | _, [] => m
  | a, b :: t => memWrite (memSet m a b) (a + 1) t

/-- Little-endian values (R46). -/
def memNat (m : List Host.Cell) (a n : Nat) : Nat := ofBytes (memRead m a n)
def memSetNat (m : List Host.Cell) (a n w : Nat) : List Host.Cell := memWrite m a (toBytes n w)

/-- All bytes from `lo` up to `hi` become 0. -/
def memZero (m : List Host.Cell) (lo hi : Nat) : List Host.Cell :=
  m.filter (fun c => decide (c.1 < lo) || decide (hi ≤ c.1))

/-! ## Waits (R152) -/

/-- The wait that the issue in hand would begin, with the values it read. -/
def State.mkWait (s : State) (i : Instr) (vals : List Nat) : Wait :=
  { ins := i, pc := s.cur.pc, lanes := s.cur.lanes, seq := s.curRill.seq, vals := vals }

/-- Lanes of rill `k` that a wait held move to the word after it. -/
def State.release (s : State) (k : Nat) (w : Wait) : State := s.moveTo k w.lanes (w.pc + 4)

/-- The cohort is held by `w` until `ready`, and `fin` completes it: at once where `ready` holds now. -/
def State.holdOr (s : State) (w : Wait) (ready : State → Nat → Wait → Bool) (fin : State → Nat → Wait → State) :
    State :=
  let k := s.cur.rill
  let s := s.modRill k (fun r => { r with seq := r.seq + 1 })
  if ready s k w then fin s k w else s.modRill k (fun r => { r with waits := r.waits ++ [w] })

/-! ## Reports -/

/-- Raises MSI-X vector `n` (R97). -/
def State.raise (s : State) (n : Nat) : State := { s with msix := s.msix.set n (s.msix.get 0 n + 1) }

/-- An event on its way to the recorder (R449). -/
def State.record (s : State) (e : BoxEvent) : State :=
  { s with box := { s.box with queue := s.box.queue ++ [e] } }

/-- A report over MCTP. -/
def State.report (s : State) (kind arg : Nat) : State := { s with mctp := s.mctp ++ [(kind, arg)] }

/-- A black-box event of the place of rill `k`. -/
def boxAt (k kind code arg0 arg1 : Nat) : BoxEvent :=
  { kind := kind, die := keyDie k, core := corePos (keyCore k), part := keyPart k, slot := keySlot k
    code := code, arg0 := arg0, arg1 := arg1 }

/-! ## Queues that halt (R73, R81, R449) -/

/-- The queue halts: HALT, ERRC and ERRI are set, with QFADDR where the code has an address, vector q is raised, an
entry of kind 0x0B is recorded. A queue that is halted already keeps its earlier code (log). -/
def State.haltMark (s : State) (q code erri : Nat) (qfaddr : Option Nat) : State :=
  let x := s.queue q
  let s := if x.halt then s else s.setQueue q { x with
    halt := true, errc := code, erri := erri
    qfaddr := qfaddr.getD x.qfaddr }
  (s.raise q).record
    { kind := 0x0B, code := code, arg0 := (s.queue q).qfaddr, arg1 := q * 65536 + erri % 65536 }

/-- The head command is given up; QHEAD stays at it (R81). -/
def State.dropHead (s : State) (q : Nat) : State :=
  s.modQueue q (fun x => { x with
    waitf := false, waitw := false, waitr := false
    run := false, held := false, head := none, rep := 0, again := false })

/-- The command with count `cmd` is at the head still: QHEAD may have been written meanwhile (R81). -/
def State.atHead (s : State) (q cmd : Nat) : Bool := (s.queue q).held && (s.queue q).qhead == cmd

/-- A halt that ends command `erri`, at the head where it has not left it (R76, R81). -/
def State.haltQueue (s : State) (q code erri : Nat) (qfaddr : Option Nat) : State :=
  (if (s.queue q).qhead = erri then s.dropHead q else s).haltMark q code erri qfaddr

/-- The party no longer waits for bytes of peers. -/
def State.dropReads (s : State) (who : Nat) : State :=
  { s with fab := { s.fab with reads := s.fab.reads.filter (fun r => r.who != who) } }

/-- The processor is free and its prologue is over. -/
def State.freeCp (s : State) (n : Nat) : State :=
  ((s.modCp n (fun x => { x with busy := false })).setRill (cpKey n) {}).dropReads (cpKey n)

/-- A prologue ends with a halt code (R80, R82). -/
def State.failPrologue (s : State) (n code : Nat) (qfaddr : Option Nat) : State :=
  (s.freeCp n).haltQueue (s.cp n).queue code (s.cp n).cmd qfaddr

/-! ## Taking a trap (R418 to R420) -/

/-- Disposition 'Host' of Table 18-1: software, breakpoint and translation faults. -/
def trapToHost (cause : Nat) : Bool := cause == 0x08 || cause == 0x09 || cause == 0x11

/-- A rill parks with trap record `t`: its latches are cleared, its reservation passes on, and the
firmware agent is given a task, but for a BRK with DBGEN 1 (R435); a trap with disposition Host joins
the events to be recorded. A trap kept for its next issue stays kept. A trap of the agent itself stops the agent. -/
def State.park (s : State) (k : Nat) (t : TrapRec) : State :=
  let c := keyCore k
  let s := s.clearLatches c (keyPart k) (fun _ _ => true)
  let s := s.modCore c (fun x => { x with rsv := x.rsv.filter (· != k) })
  let host := trapToHost t.cause && !(s.rill k).agent
  let s := s.modRill k (fun r => { r with trap := some { t with waiting := host }, denials := 0 })
  if (s.rill k).agent then
    (s.record (boxAt k 0x07 t.cause ((t.pc.toNat - (s.rill k).kcode) % 2 ^ 32) 0)).report 0x07 k
  else
    let dbg := t.cause == 0x09 && (s.die (keyDie k)).dbgen
    let s := if dbg then s else s.modCore c (fun x => { x with agentTask := true })
    if host then { s with traps := { s.traps with waiting := s.traps.waiting ++ [.rill k] } } else s

/-- The issue in hand raises a trap: the cohort stays at its PC and nothing else has an effect. In a
prologue it ends the prologue with code 0x0A (R82). -/
def State.trapWith (s : State) (cause fcause : Nat) (addr : DWord) (aux : Word) (resume : DWord) : State :=
  if isCp s.cur.rill then
    s.failPrologue (s.cur.rill - 0x10000) 0x0A (if cause = 0x11 then some addr.toNat else none)
  else
    s.park s.cur.rill
      { cause := cause, fcause := fcause, pc := s.cur.pc, resume := resume, word := s.cur.word
        addr := addr, cohort := s.cur.lanes, aux := aux }

def State.trap (s : State) (cause : Nat) : State := s.trapWith cause 0 0 0 s.cur.pc

/-- A fault of lane `l` at address `addr` (Table 18-2). -/
def State.laneTrap (s : State) (cause fcause : Nat) (addr : DWord) (l : Nat) : State :=
  s.trapWith cause fcause addr (BitVec.ofNat 32 (l % 64)) s.cur.pc

/-- The rill is unparked with the cohort of its trap at `pc` (R438), or, once it has been restored, with every
thread at its region start (R431). Its event is resolved and its record is cleared. -/
def State.unpark (s : State) (k : Nat) (t : TrapRec) (pc : DWord) : State :=
  let s := s.modRill k (fun r => { r with trap := none })
  let s := if t.restart then s else s.moveTo k t.cohort pc
  { s with traps := { s.traps with
      waiting := s.traps.waiting.filter (· != .rill k)
      events := s.traps.events.filter (fun e => e.2 != .rill k) } }

end Sys2Proof.Machine
end

