-- ==== Sys2Proof/Machine/Formats.lean ====
section
/-! DEFINITION. Number formats and exact arithmetic (02): decoding, rounding, saturation, sums. -/
namespace Sys2Proof.Machine

/-- A floating-point format (Table 2-2): widths of exponent and mantissa, bias, largest finite
encoding, infinity (none in F8E4) and canonical NaN (Table 2-3). -/
structure FFmt where
  ew : Nat
  mw : Nat
  bias : Nat
  maxFin : Nat
  inf : Option Nat
  nan : Nat
  deriving DecidableEq, Repr

def fp32 : FFmt := ⟨8, 23, 127, 0x7F7FFFFF, some 0x7F800000, 0x7FC00000⟩
def fp16 : FFmt := ⟨5, 10, 15, 0x7BFF, some 0x7C00, 0x7E00⟩
def bf16 : FFmt := ⟨8, 7, 127, 0x7F7F, some 0x7F80, 0x7FC0⟩
def f8e5 : FFmt := ⟨5, 2, 15, 0x7B, some 0x7C, 0x7E⟩
def f8e4 : FFmt := ⟨4, 3, 7, 0x7E, none, 0x7F⟩

/-- The format of a floating-point type. -/
def tyFmt : NumTy → FFmt
  | .f16 => fp16
  | .bf16 => bf16
  | .f8e5 => f8e5
  | .f8e4 => f8e4
  | _ => fp32

def FFmt.signBit (f : FFmt) : Nat := 2 ^ (f.ew + f.mw)

/-- A decoded element: NaN (signalling or not), infinity, or (−1)^neg × m × 2^e. -/
inductive FVal where
  | nan (sig : Bool)
  | inf (neg : Bool)
  | fin (neg : Bool) (m : Nat) (e : Int)
  deriving DecidableEq, Repr, Inhabited

/-- The value of an element (R43, R44). -/
def FFmt.decode (f : FFmt) (w : Nat) : FVal :=
  let neg := bitOf (f.ew + f.mw) w
  let e := w / 2 ^ f.mw % 2 ^ f.ew
  let m := w % 2 ^ f.mw
  let special := e == 2 ^ f.ew - 1 && (f.inf.isSome || m == 2 ^ f.mw - 1)
  if special then
    if f.inf.isSome && m == 0 then .inf neg
    else .nan (f.inf.isSome && !bitOf (f.mw - 1) m)
  else if e = 0 then .fin neg m (1 - (f.bias : Int) - f.mw)
  else .fin neg (2 ^ f.mw + m) ((e : Int) - f.bias - f.mw)

def FVal.isNan : FVal → Bool
  | .nan _ => true
  | _ => false
def FVal.isSig : FVal → Bool
  | .nan b => b
  | _ => false
def FVal.isInf : FVal → Bool
  | .inf _ => true
  | _ => false
def FVal.isZero : FVal → Bool
  | .fin _ m _ => m == 0
  | _ => false
def FVal.neg : FVal → Bool
  | .nan _ => false
  | .inf n => n
  | .fin n _ _ => n
/-- The value with its sign changed. -/
def FVal.negate : FVal → FVal
  | .nan b => .nan b
  | .inf n => .inf (!n)
  | .fin n m e => .fin (!n) m e

/-- An exact dyadic number m × 2^e. -/
structure Dy where
  m : Int
  e : Int
  deriving DecidableEq, Repr, Inhabited

def FVal.dy : FVal → Dy
  | .fin n m e => ⟨if n then -(m : Int) else m, e⟩
  | _ => ⟨0, 0⟩

def Dy.add (a b : Dy) : Dy :=
  let e := min a.e b.e
  ⟨a.m * 2 ^ (a.e - e).toNat + b.m * 2 ^ (b.e - e).toNat, e⟩
def Dy.mul (a b : Dy) : Dy := ⟨a.m * b.m, a.e + b.e⟩
/-- a < b. -/
def Dy.lt (a b : Dy) : Bool := decide ((a.add ⟨-b.m, b.e⟩).m < 0)
def Dy.sum : List Dy → Dy := List.foldl Dy.add ⟨0, 0⟩

/-- Rounds the magnitude a / 2^k to an integer by a mode (0 RNE, 1 RTZ, 2 RDN, 3 RUP; R51). -/
def roundMag (mode : Nat) (neg : Bool) (a k : Nat) : Nat :=
  let k := min k (Nat.log2 a + 3)
  let q := a / 2 ^ k
  let r := a % 2 ^ k
  let up := match mode with
    | 0 => decide (2 ^ k < 2 * r) || (2 * r == 2 ^ k && q % 2 == 1 && r != 0)
    | 1 => false
    | 2 => neg && r != 0
    | _ => !neg && r != 0
  if up then q + 1 else q

/-- Rounds a × 2^e to the multiples of 2^q: the multiple. -/
def roundTo (mode : Nat) (neg : Bool) (a : Nat) (e q : Int) : Nat :=
  if q ≤ e then a * 2 ^ (e - q).toNat else roundMag mode neg a (q - e).toNat

/-- a × 2^e is that multiple of 2^q exactly. -/
def exactAt (a : Nat) (e q : Int) : Bool :=
  decide (q ≤ e) || decide (a % 2 ^ (min (q - e).toNat (Nat.log2 a + 3)) = 0)

/-! Flag bits (R57). -/
def fNV : BitVec 5 := 16
def fDZ : BitVec 5 := 8
def fOF : BitVec 5 := 4
def fUF : BitVec 5 := 2
def fNX : BitVec 5 := 1

/-- An element delivered with the flags it raises. -/
abbrev FRes := Nat × BitVec 5

def FFmt.withSign (f : FFmt) (neg : Bool) (w : Nat) : Nat := if neg then f.signBit + w else w

/-- The result of an overflow (Table 2-4; R53 for F8E4). -/
def FFmt.overflow (f : FFmt) (mode : Nat) (neg : Bool) : FRes :=
  let toInf := mode == 0 || (mode == 2 && neg) || (mode == 3 && !neg)
  match f.inf with
  | some i => (f.withSign neg (if toInf then i else f.maxFin), fOF ||| fNX)
  | none => if toInf then (f.nan, fNV ||| fOF ||| fNX) else (f.withSign neg f.maxFin, fOF ||| fNX)

/-- round(fmt, x, mode) for a nonzero x of magnitude a × 2^e (R53), with its flags (R58). The
encoding of q × 2^x in a binade is linear, so a carry out of the mantissa moves to the next one. -/
def FFmt.round (f : FFmt) (mode : Nat) (neg : Bool) (a : Nat) (e : Int) : FRes :=
  let top : Int := Nat.log2 a + e
  let emin : Int := 1 - f.bias
  let qs : Int := emin - f.mw
  let qn : Int := top - f.mw
  let q := max qs qn
  let w := (q - qs).toNat * 2 ^ f.mw + roundTo mode neg a e q
  let nx := if exactAt a e q then 0 else fNX
  let tiny := decide (top < emin) && decide (qn + Nat.log2 (roundTo mode neg a e qn) < emin)
  if w > f.maxFin then f.overflow mode neg
  else (f.withSign neg w, if tiny && nx != 0 then fUF ||| nx else nx)

/-- A real number rounded; an exact zero takes the sign given. -/
def FFmt.roundDy (f : FFmt) (mode : Nat) (x : Dy) (zeroNeg : Bool) : FRes :=
  if x.m = 0 then (f.withSign zeroNeg 0, 0)
  else f.round mode (decide (x.m < 0)) x.m.natAbs x.e

/-- A product, and whether it is 0 × ∞ (R58). -/
def FVal.mul (a b : FVal) : FVal × Bool :=
  match a, b with
  | .nan s, _ => (.nan s, false)
  | _, .nan s => (.nan s, false)
  | .inf n, y => if y.isZero then (.nan false, true) else (.inf (xor n y.neg), false)
  | x, .inf n => if x.isZero then (.nan false, true) else (.inf (xor n x.neg), false)
  | .fin n m e, .fin n' m' e' => (.fin (xor n n') (m * m') (e + e'), false)

/-- The sign of an exact zero sum of terms (R53). -/
def zeroSign (mode : Nat) (terms : List FVal) : Bool :=
  if terms.all FVal.isZero then
    terms.all FVal.neg || (mode == 2 && terms.any FVal.neg)
  else mode == 2

/-- The sum of terms, settled by R180. `sig`: an operand is a signalling NaN; `bad`: a product is
0 × ∞. -/
def FFmt.settle (f : FFmt) (mode : Nat) (sig bad : Bool) (terms : List FVal) : FRes :=
  if bad then (f.nan, fNV)
  else if terms.any FVal.isNan then (f.nan, if sig then fNV else 0)
  else if terms.any (fun t => t.isInf && t.neg) && terms.any (fun t => t.isInf && !t.neg) then (f.nan, fNV)
  else if terms.any FVal.isInf then
    (match f.inf with
     | some i => (f.withSign (terms.any (fun t => t.isInf && t.neg)) i, 0)
     | none => (f.nan, fNV))
  else f.roundDy mode (Dy.sum (terms.map FVal.dy)) (zeroSign mode terms)

/-- Rounds a real to an integer by mode (roundint of R197). -/
def roundInt (mode : Nat) (x : Dy) : Int :=
  let n := roundTo mode (decide (x.m < 0)) x.m.natAbs x.e 0
  if x.m < 0 then -(n : Int) else n

def Dy.isInt (x : Dy) : Bool := exactAt x.m.natAbs x.e 0

/-- The range of an integer type (R47). -/
def tyLo (t : NumTy) : Int := if t.isSigned then -(2 ^ (t.width - 1) : Int) else 0
def tyHi (t : NumTy) : Int := if t.isSigned then 2 ^ (t.width - 1) - 1 else 2 ^ t.width - 1
def tyClamp (t : NumTy) (x : Int) : Int := max (tyLo t) (min (tyHi t) x)

/-- The largest finite value of a format. -/
def FFmt.maxDy (f : FFmt) : Dy := (f.decode f.maxFin).dy

/-- |x| exceeds the largest finite value. -/
def FFmt.exceeds (f : FFmt) (x : Dy) : Bool := f.maxDy.lt ⟨x.m.natAbs, x.e⟩

/-- The plain conversion to a floating-point format (CVT column of Table 2-5). -/
def FFmt.cvt (f : FFmt) (mode : Nat) (x : FVal) : FRes :=
  match x with
  | .nan s => (f.nan, if s then fNV else 0)
  | .inf n =>
    (match f.inf with
     | some i => (f.withSign n i, 0)
     | none => (f.nan, fNV))
  | .fin n m e => f.roundDy mode ⟨if n then -(m : Int) else m, e⟩ n

/-- The narrowing conversion with saturation (CVTN column of Table 2-5): the element, its flags, and
whether it was clamped. -/
def FFmt.cvtn (f : FFmt) (mode : Nat) (x : FVal) : Nat × BitVec 5 × Bool :=
  match x with
  | .nan s => (f.nan, if s then fNV else 0, false)
  | .inf n => (f.withSign n f.maxFin, fNX, true)
  | .fin n m e =>
    if f.exceeds ⟨m, e⟩ then (f.withSign n f.maxFin, fOF ||| fNX, true)
    else
      let r := f.roundDy mode ⟨if n then -(m : Int) else m, e⟩ n
      (r.1, r.2, false)

/-! ## Residues (R62 to R64) -/

/-- The residue triple of R62 packed as R63 gives: c2, c1, c0 from the high byte. -/
def tmPack (c0 c1 c2 : Nat) : BitVec 24 := BitVec.ofNat 24 (c2 * 65536 + c1 * 256 + c0)
def tm0 (t : BitVec 24) : Nat := t.toNat % 256
def tm1 (t : BitVec 24) : Nat := t.toNat / 256 % 256
def tm2 (t : BitVec 24) : Nat := t.toNat / 65536 % 256
def tmValid (t : BitVec 24) : Bool := decide (tm0 t < 253) && decide (tm1 t < 255)

/-- Adds an integer, channel by channel. -/
def tmAdd (t : BitVec 24) (p : Int) : BitVec 24 :=
  tmPack ((tm0 t + p) % 253).toNat ((tm1 t + p) % 255).toNat ((tm2 t + p) % 256).toNat

/-- crt of R64. -/
def crt (t : BitVec 24) : Int :=
  let y : Int := (tm0 t * 13774080 + tm1 t * 8225536 + tm2 t * 11032065) % 16515840
  if 8257920 ≤ y then y - 16515840 else y

end Sys2Proof.Machine
end

