-- ==== Sys2Proof/Machine/Uniform.lean ====
section
/-! DEFINITION. Uniform integer instructions (R169 to R171), once for each issue. -/
namespace Sys2Proof.Machine

/-- ext24 of R169: the low 24 bits, sign- or zero-extended. -/
def ext24 (m : BitVec 1) (a : Word) : Int :=
  if m = 1 then (a.truncate 24).toInt else ((a.truncate 24).toNat : Int)

/-- Comparison with the signedness of m. -/
def ltBy (m : BitVec 1) (a b : Word) : Bool := if m = 1 then a.slt b else a.ult b

/-- A value of KCMP's condition (R169): EQ, NE, LT, LE. -/
def kcmpCond (c : BitVec 2) (m : BitVec 1) (a b : Word) : Bool :=
  match c.toNat with
  | 0 => a == b
  | 1 => a != b
  | 2 => ltBy m a b
  | _ => !ltBy m b a

/-- Shifts by b[5:0] (R169). -/
def shl32 (a b : Word) : Word := a <<< (b.toNat % 64)
def shr32 (a b : Word) : Word := a >>> (b.toNat % 64)
def sar32 (a b : Word) : Word := a.sshiftRight (b.toNat % 64)

/-- d := f a b on the rill's uniform registers; the cohort moves on. -/
def State.kop (s : State) (d a b : BitVec 7) (f : Word → Word → Word) : State :=
  (s.udst d.toNat 0 (f (s.usrc a.toNat 0) (s.usrc b.toNat 0))).advance

def execKadd (d a b : BitVec 7) (_r : BitVec 1) (s : State) : Res := .next (s.kop d a b (· + ·))
def execKsub (d a b : BitVec 7) (_r : BitVec 1) (s : State) : Res := .next (s.kop d a b (· - ·))
def execKmul24 (d a b : BitVec 7) (_r m : BitVec 1) (s : State) : Res :=
  .next (s.kop d a b (fun x y => BitVec.ofInt 32 (ext24 m x * ext24 m y)))
def execKmul32 (d a b : BitVec 7) (_r : BitVec 1) (s : State) : Res := .next (s.kop d a b (· * ·))
def execKand (d a b : BitVec 7) (_r : BitVec 1) (s : State) : Res := .next (s.kop d a b (· &&& ·))
def execKor (d a b : BitVec 7) (_r : BitVec 1) (s : State) : Res := .next (s.kop d a b (· ||| ·))
def execKxor (d a b : BitVec 7) (_r : BitVec 1) (s : State) : Res := .next (s.kop d a b (· ^^^ ·))
def execKshl (d a b : BitVec 7) (_r : BitVec 1) (s : State) : Res := .next (s.kop d a b shl32)
def execKshr (d a b : BitVec 7) (_r : BitVec 1) (s : State) : Res := .next (s.kop d a b shr32)
def execKsar (d a b : BitVec 7) (_r : BitVec 1) (s : State) : Res := .next (s.kop d a b sar32)
def execKmin (d a b : BitVec 7) (_r m : BitVec 1) (s : State) : Res :=
  .next (s.kop d a b (fun x y => if ltBy m y x then y else x))
def execKmax (d a b : BitVec 7) (_r m : BitVec 1) (s : State) : Res :=
  .next (s.kop d a b (fun x y => if ltBy m x y then y else x))
/-- KSEL reads d as its condition before it writes it. -/
def execKsel (d a b : BitVec 7) (_r : BitVec 1) (s : State) : Res :=
  .next (s.kop d a b (fun x y => if s.usrc d.toNat 0 != 0 then x else y))
def execKcmp (d a b : BitVec 7) (_r m : BitVec 1) (c : BitVec 2) (s : State) : Res :=
  .next (s.kop d a b (fun x y => if kcmpCond c m x y then 1 else 0))

def execKli (d : BitVec 7) (i : BitVec 18) (s : State) : Res :=
  .next (s.udst d.toNat 0 (i.signExtend 32)).advance
/-- KLIH keeps the low 18 bits of d (R170). -/
def execKlih (d : BitVec 7) (i : BitVec 14) (s : State) : Res :=
  .next (s.udst d.toNat 0 (i ++ (s.usrc d.toNat 0).truncate 18)).advance

/-- The lane VTOK reads: b, or the lowest-numbered lane of the cohort (R171). -/
def State.vtokLane (s : State) (b : BitVec 7) : Nat :=
  if b.toNat = 127 then s.cur.lanes.headD 0 else b.toNat

/-- VTOK (R171): the value is read at the issue and written by VTOK_WRITE. -/
def execVtok (d a b : BitVec 7) (s : State) : Res :=
  let l := s.vtokLane b
  if l < s.curRill.width then
    let p : VtokPend := { dst := s.curRill.kname d.toNat, val := s.src a.toNat 0 l }
    .next (s.modRill s.cur.rill (fun r => { r with vtoks := r.vtoks ++ [p] })).advance
  else .next (s.trap 0x04)

/-- VTOK_WRITE (R171): the oldest VTOK of the rill writes its destination. -/
def execVtokWrite (rill : Nat) (s : State) : Res :=
  match (s.rill rill).vtoks with
  | [] => .next s
  | p :: rest => .next ((s.modRill rill (fun r => { r with vtoks := rest })).kwrite rill p.dst p.val)

end Sys2Proof.Machine
end

