-- ==== Sys2Proof/Machine/VecInt.lean ====
section
/-! DEFINITION. Vector integer instructions, bit fields and immediates (R175 to R179). -/
namespace Sys2Proof.Machine

/-- d := f a b in the acting lanes (R175). -/
def State.iop (s : State) (d a b : BitVec 7) (g : BitVec 2) (f : Word → Word → Word) : State :=
  s.vop g.toNat d.toNat [a.toNat, b.toNat] (fun l => f (s.src a.toNat 0 l) (s.src b.toNat 0 l))

/-- d := f d a b in the acting lanes, where d is read before it is written. -/
def State.iop3 (s : State) (d a b : BitVec 7) (g : BitVec 2) (f : Word → Word → Word → Word) : State :=
  s.vop g.toNat d.toNat [a.toNat, b.toNat, d.toNat]
    (fun l => f (s.src d.toNat 0 l) (s.src a.toNat 0 l) (s.src b.toNat 0 l))

/-- Bits [47:32] of the 48-bit product, extended to 32 bits by m. -/
def mul24h (m : BitVec 1) (a b : Word) : Word :=
  let p : BitVec 48 := BitVec.ofInt 48 (ext24 m a * ext24 m b)
  let h : BitVec 16 := p.extractLsb' 32 16
  if m = 1 then h.signExtend 32 else h.zeroExtend 32

/-- Bits [63:32] of the 64-bit product. -/
def mulh (m : BitVec 1) (a b : Word) : Word :=
  let p : Int := if m = 1 then a.toInt * b.toInt else a.toNat * b.toNat
  (BitVec.ofInt 64 p).extractLsb' 32 32

def mul24 (m : BitVec 1) (a b : Word) : Word := BitVec.ofInt 32 (ext24 m a * ext24 m b)

def execIadd (d a b : BitVec 7) (_r : BitVec 1) (g : BitVec 2) (s : State) : Res := .next (s.iop d a b g (· + ·))
def execIsub (d a b : BitVec 7) (_r : BitVec 1) (g : BitVec 2) (s : State) : Res := .next (s.iop d a b g (· - ·))
/-- IADD64: the sum of two pairs, both registers of d from the old sources. -/
def execIadd64 (d a b : BitVec 7) (_r : BitVec 1) (g : BitVec 2) (s : State) : Res :=
  let sum := fun l => s.srcPair a.toNat l + s.srcPair b.toNat l
  let fs := [a.toNat, a.toNat + 1, b.toNat, b.toNat + 1]
  let lanes := s.acting g.toNat
  let u := s.uniformWrite lanes fs
  let s' := s.vdst d.toNat 0 (some fs) lanes (fun l => (sum l).truncate 32)
  .next (s'.vwrite s.cur.rill (s.curRill.vname d.toNat + 1) u
    (lanes.map (fun l => (l, (sum l).extractLsb' 32 32)))).advance
def execImul24 (d a b : BitVec 7) (_r m : BitVec 1) (g : BitVec 2) (s : State) : Res := .next (s.iop d a b g (mul24 m))
def execImul24h (d a b : BitVec 7) (_r m : BitVec 1) (g : BitVec 2) (s : State) : Res := .next (s.iop d a b g (mul24h m))
def execImul32 (d a b : BitVec 7) (_r : BitVec 1) (g : BitVec 2) (s : State) : Res := .next (s.iop d a b g (· * ·))
def execImulh (d a b : BitVec 7) (_r m : BitVec 1) (g : BitVec 2) (s : State) : Res := .next (s.iop d a b g (mulh m))
def execImad24 (d a b : BitVec 7) (_r m : BitVec 1) (g : BitVec 2) (s : State) : Res :=
  .next (s.iop3 d a b g (fun z x y => z + mul24 m x y))
def execIand (d a b : BitVec 7) (_r : BitVec 1) (g : BitVec 2) (s : State) : Res := .next (s.iop d a b g (· &&& ·))
def execIor (d a b : BitVec 7) (_r : BitVec 1) (g : BitVec 2) (s : State) : Res := .next (s.iop d a b g (· ||| ·))
def execIxor (d a b : BitVec 7) (_r : BitVec 1) (g : BitVec 2) (s : State) : Res := .next (s.iop d a b g (· ^^^ ·))
def execIshl (d a b : BitVec 7) (_r : BitVec 1) (g : BitVec 2) (s : State) : Res := .next (s.iop d a b g shl32)
def execIrot (d a b : BitVec 7) (_r : BitVec 1) (g : BitVec 2) (s : State) : Res :=
  .next (s.iop d a b g (fun x y => x.rotateLeft (y.toNat % 32)))
def execIshr (d a b : BitVec 7) (_r : BitVec 1) (g : BitVec 2) (s : State) : Res := .next (s.iop d a b g shr32)
def execIsar (d a b : BitVec 7) (_r : BitVec 1) (g : BitVec 2) (s : State) : Res := .next (s.iop d a b g sar32)
def execImin (d a b : BitVec 7) (_r m : BitVec 1) (g : BitVec 2) (s : State) : Res :=
  .next (s.iop d a b g (fun x y => if ltBy m y x then y else x))
def execImax (d a b : BitVec 7) (_r m : BitVec 1) (g : BitVec 2) (s : State) : Res :=
  .next (s.iop d a b g (fun x y => if ltBy m x y then y else x))
def execIsel (d a b : BitVec 7) (_r : BitVec 1) (g : BitVec 2) (s : State) : Res :=
  .next (s.iop3 d a b g (fun z x y => if z != 0 then x else y))

/-- A condition of ICMP (R176): EQ, NE, LT, LE, GT, GE. -/
def icmpCond (c : BitVec 3) (m : BitVec 1) (a b : Word) : Bool :=
  match c.toNat with
  | 0 => a == b
  | 1 => a != b
  | 2 => ltBy m a b
  | 3 => !ltBy m b a
  | 4 => ltBy m b a
  | _ => !ltBy m a b

/-- Writes guard `e` in the lanes given. -/
def State.writeGuard (s : State) (k e : Nat) (lanes : List Nat) (f : Nat → Bool) : State :=
  s.mapThreads k lanes (fun l t => t.setGuard e (f l))

def execIcmp (c : BitVec 3) (e : BitVec 2) (a b : BitVec 7) (_r m : BitVec 1) (g : BitVec 2) (s : State) : Res :=
  .next (s.writeGuard s.cur.rill e.toNat (s.acting g.toNat)
    (fun l => icmpCond c m (s.src a.toNat 0 l) (s.src b.toNat 0 l))).advance

/-- d := f a in every lane of the cohort (R177). -/
def State.iun (s : State) (d a : BitVec 7) (f : Word → Word) : State :=
  s.vop 0 d.toNat [a.toNat] (fun l => f (s.src a.toNat 0 l))

/-- The number of 1 bits among the low `n` bits. -/
def popCount : Nat → Nat → Nat
  | 0, _ => 0
  | n + 1, w => w % 2 + popCount n (w / 2)

/-- The number of leading 0 bits among the low `n` bits. -/
def leadZeros : Nat → Nat → Nat
  | 0, _ => 0
  | n + 1, w => if w / 2 ^ n % 2 = 1 then 0 else 1 + leadZeros n w

def execMov (d a : BitVec 7) (s : State) : Res := .next (s.iun d a id)
def execPopc (d a : BitVec 7) (s : State) : Res := .next (s.iun d a (fun x => BitVec.ofNat 32 (popCount 32 x.toNat)))
def execClz (d a : BitVec 7) (s : State) : Res := .next (s.iun d a (fun x => BitVec.ofNat 32 (leadZeros 32 x.toNat)))
def execBrev (d a : BitVec 7) (s : State) : Res := .next (s.iun d a BitVec.reverse)
def execIabs (d a : BitVec 7) (s : State) : Res := .next (s.iun d a (fun x => if x.msb then -x else x))

/-- Position and length of a bit field (R178). -/
def fieldPos (b : Word) : Nat := b.toNat % 32
def fieldLen (b : Word) : Nat := min (b.toNat / 256 % 64) (32 - fieldPos b)

/-- The field of a, zero-extended. -/
def bfe (a b : Word) : Word := BitVec.ofNat 32 (a.toNat / 2 ^ fieldPos b % 2 ^ fieldLen b)
/-- The field sign-extended from its top bit; 0 when it is empty. -/
def bfeS (a b : Word) : Word :=
  let n := fieldLen b
  let f := (bfe a b).toNat
  if n ≠ 0 ∧ f / 2 ^ (n - 1) = 1 then BitVec.ofInt 32 ((f : Int) - 2 ^ n) else BitVec.ofNat 32 f
/-- d with the field replaced from a. -/
def bfi (d a b : Word) : Word :=
  let mask : Word := BitVec.ofNat 32 ((2 ^ fieldLen b - 1) * 2 ^ fieldPos b)
  (d &&& ~~~mask) ||| ((a <<< fieldPos b) &&& mask)

/-- Byte `i` of a register, sign- or zero-extended. -/
def byteOf (signed : Bool) (w : Word) (i : Nat) : Int :=
  let b : BitVec 8 := w.extractLsb' (8 * i) 8
  if signed then b.toInt else b.toNat
def dot4 (signed : Bool) (d a b : Word) : Word :=
  d + BitVec.ofInt 32 (((List.range 4).map (fun i => byteOf signed a i * byteOf signed b i)).foldl (· + ·) 0)

def execBfeZ32 (d a b : BitVec 7) (s : State) : Res := .next (s.iop d a b 0 bfe)
def execBfeS32 (d a b : BitVec 7) (s : State) : Res := .next (s.iop d a b 0 bfeS)
def execBfi (d a b : BitVec 7) (s : State) : Res := .next (s.iop3 d a b 0 bfi)
def execIdot4S8 (d a b : BitVec 7) (s : State) : Res := .next (s.iop3 d a b 0 (dot4 true))
def execIdot4Z8 (d a b : BitVec 7) (s : State) : Res := .next (s.iop3 d a b 0 (dot4 false))

def execLi (d : BitVec 7) (i : BitVec 18) (s : State) : Res :=
  .next (s.vop 0 d.toNat [] (fun _ => i.signExtend 32))
/-- LIH keeps the low 18 bits of d (R179). -/
def execLih (d : BitVec 7) (i : BitVec 14) (s : State) : Res :=
  .next (s.vop 0 d.toNat [d.toNat] (fun l => i ++ (s.src d.toNat 0 l).truncate 18))

end Sys2Proof.Machine
end

