-- ==== Sys2Proof/Machine/Flags.lean ====
section
/-! DEFINITION. Raising %flags (R57, R58) and the shared forms of floating-point instructions. -/
namespace Sys2Proof.Machine

/-- A raised flag sets its bit; nothing clears one (R58). -/
def State.raiseFlags (s : State) (k : Nat) (lanes : List Nat) (f : Nat → BitVec 5) : State :=
  s.mapThreads k lanes (fun l t => { t with flags := t.flags ||| f l })

/-- %rmode of the issuing rill. -/
def State.mode (s : State) : Nat := s.curRill.rmode.toNat

/-- d := the element f delivers in each acting lane, with its flags unless NF is 1; the cohort moves on. -/
def State.fop (s : State) (d : BitVec 7) (srcs : List Nat) (n : BitVec 1) (g : Nat) (f : Nat → FRes) : State :=
  let lanes := s.acting g
  let s' := s.vdst d.toNat 0 (some srcs) lanes (fun l => BitVec.ofNat 32 (f l).1)
  (if n = 1 then s' else s'.raiseFlags s.cur.rill lanes (fun l => (f l).2)).advance

end Sys2Proof.Machine
end

