-- ==== Sys2Proof/Machine/VecFloat.lean ====
section
/-! DEFINITION. Vector floating-point instructions (R180 to R188). -/
namespace Sys2Proof.Machine

/-- Decoded FP32 operand in lane `l`. -/
def State.fsrc (s : State) (f : BitVec 7) (l : Nat) : FVal := fp32.decode (s.src f.toNat 0 l).toNat
/-- Element `e` of a packed operand (R46). -/
def State.hsrc (s : State) (fmt : FFmt) (f : BitVec 7) (e l : Nat) : FVal :=
  fmt.decode ((s.src f.toNat 0 l).toNat / 65536 ^ e % 65536)

/-- a + b. -/
def fAdd (f : FFmt) (mode : Nat) (a b : FVal) : FRes := f.settle mode (a.isSig || b.isSig) false [a, b]
/-- a × b. -/
def fMul (f : FFmt) (mode : Nat) (a b : FVal) : FRes :=
  let p := a.mul b
  f.settle mode (a.isSig || b.isSig) p.2 [if a.isNan || b.isNan then .nan false else p.1]
/-- a × b + d with one rounding. -/
def fFma (f : FFmt) (mode : Nat) (a b d : FVal) : FRes :=
  let p := a.mul b
  f.settle mode (a.isSig || b.isSig || d.isSig) p.2 [p.1, d]
/-- d + a0 × b0 + a1 × b1 with one rounding to FP32 (R188). -/
def fDot (mode : Nat) (a0 b0 a1 b1 d : FVal) : FRes :=
  let p := a0.mul b0
  let q := a1.mul b1
  fp32.settle mode (a0.isSig || b0.isSig || a1.isSig || b1.isSig || d.isSig) (p.2 || q.2) [d, p.1, q.1]

/-- a < b of two numbers, −0 below +0 when `zeros` (R182, R209). -/
def fLt (zeros : Bool) (a b : FVal) : Bool :=
  match a, b with
  | .nan _, _ => false
  | _, .nan _ => false
  | .inf n, .inf n' => n && !n'
  | .inf n, _ => n
  | _, .inf n => !n
  | x, y => if x.isZero && y.isZero then zeros && x.neg && !y.neg else x.dy.lt y.dy

/-- FMIN and FMAX (R182) on stored bits. -/
def fMinMax (isMin : Bool) (x y : Word) : FRes :=
  let a := fp32.decode x.toNat
  let b := fp32.decode y.toNat
  let fl := if a.isSig || b.isSig then fNV else 0
  if a.isNan && b.isNan then (fp32.nan, fl)
  else if a.isNan then (y.toNat, fl)
  else if b.isNan then (x.toNat, fl)
  else if isMin then (if fLt true b a then y.toNat else x.toNat, fl)
  else (if fLt true a b then y.toNat else x.toNat, fl)

/-- FCMP (R183): the outcome and whether NV is raised. -/
def fCmp (c : Nat) (a b : FVal) : Bool × Bool :=
  let un := a.isNan || b.isNan
  let sig := a.isSig || b.isSig
  let lt := fLt false a b
  let gt := fLt false b a
  match c with
  | 0 => (!un && !lt && !gt, sig)
  | 1 => (un || lt || gt, sig)
  | 2 => (lt, un)
  | 3 => (!un && !gt, un)
  | 4 => (gt, un)
  | 5 => (!un && !lt, un)
  | 6 => (un, sig)
  | _ => (!un, sig)

/-- The class mask of an FP32 value (R184). -/
def fClass (w : Word) : Word :=
  match fp32.decode w.toNat with
  | .inf true => 1
  | .inf false => 128
  | .nan true => 256
  | .nan false => 512
  | .fin n m _ =>
    if m = 0 then (if n then 8 else 16)
    else if m < 2 ^ 23 then (if n then 4 else 32)
    else if n then 2 else 64

/-- FRND (R185). -/
def fRnd (mode : Nat) (w : Word) : FRes :=
  match fp32.decode w.toNat with
  | .nan s => (fp32.nan, if s then fNV else 0)
  | .inf _ => (w.toNat, 0)
  | .fin n m e =>
    if m = 0 then (w.toNat, 0)
    else ((fp32.roundDy 0 ⟨roundInt mode ⟨if n then -(m : Int) else m, e⟩, 0⟩ n).1, 0)

/-- FSCALE (R186): a × 2^n. -/
def fScale (mode : Nat) (w n : Word) : FRes :=
  match fp32.decode w.toNat with
  | .nan s => (fp32.nan, if s then fNV else 0)
  | .inf _ => (w.toNat, 0)
  | .fin ng m e => if m = 0 then (w.toNat, 0) else fp32.round mode ng m (e + n.toInt)

/-- Two elements packed (R46), with the union of their flags. -/
def pack2 (x y : FRes) : FRes := (x.1 % 65536 + 65536 * y.1, x.2 ||| y.2)

def execFadd (d a b : BitVec 7) (_r n : BitVec 1) (g : BitVec 2) (s : State) : Res :=
  .next (s.fop d [a.toNat, b.toNat] n g.toNat (fun l => fAdd fp32 s.mode (s.fsrc a l) (s.fsrc b l)))
def execFsub (d a b : BitVec 7) (_r n : BitVec 1) (g : BitVec 2) (s : State) : Res :=
  .next (s.fop d [a.toNat, b.toNat] n g.toNat (fun l => fAdd fp32 s.mode (s.fsrc a l) (s.fsrc b l).negate))
def execFmul (d a b : BitVec 7) (_r n : BitVec 1) (g : BitVec 2) (s : State) : Res :=
  .next (s.fop d [a.toNat, b.toNat] n g.toNat (fun l => fMul fp32 s.mode (s.fsrc a l) (s.fsrc b l)))
def execFfma (d a b : BitVec 7) (_r n : BitVec 1) (g : BitVec 2) (s : State) : Res :=
  .next (s.fop d [a.toNat, b.toNat, d.toNat] n g.toNat
    (fun l => fFma fp32 s.mode (s.fsrc a l) (s.fsrc b l) (s.fsrc d l)))
def execFmin (d a b : BitVec 7) (_r n : BitVec 1) (g : BitVec 2) (s : State) : Res :=
  .next (s.fop d [a.toNat, b.toNat] n g.toNat (fun l => fMinMax true (s.src a.toNat 0 l) (s.src b.toNat 0 l)))
def execFmax (d a b : BitVec 7) (_r n : BitVec 1) (g : BitVec 2) (s : State) : Res :=
  .next (s.fop d [a.toNat, b.toNat] n g.toNat (fun l => fMinMax false (s.src a.toNat 0 l) (s.src b.toNat 0 l)))
/-- FCMP writes guard e (R183). -/
def execFcmp (c : BitVec 3) (e : BitVec 2) (a b : BitVec 7) (_r n : BitVec 1) (g : BitVec 2) (s : State) : Res :=
  let lanes := s.acting g.toNat
  let f := fun l => fCmp c.toNat (s.fsrc a l) (s.fsrc b l)
  let s' := s.writeGuard s.cur.rill e.toNat lanes (fun l => (f l).1)
  .next (if n = 1 then s' else
    s'.raiseFlags s.cur.rill lanes (fun l => if (f l).2 then fNV else 0)).advance
def execFclass (d a : BitVec 7) (_r : BitVec 1) (g : BitVec 2) (s : State) : Res :=
  .next (s.vop g.toNat d.toNat [a.toNat] (fun l => fClass (s.src a.toNat 0 l)))
/-- FRND: b is a mode code, 4 for %rmode (R185). -/
def execFrnd (d a b : BitVec 7) (_r n : BitVec 1) (g : BitVec 2) (s : State) : Res :=
  let mode := if b.toNat < 4 then b.toNat else s.mode
  .next (s.fop d [a.toNat] n g.toNat (fun l => fRnd mode (s.src a.toNat 0 l)))
def execFscale (d a b : BitVec 7) (_r n : BitVec 1) (g : BitVec 2) (s : State) : Res :=
  .next (s.fop d [a.toNat, b.toNat] n g.toNat (fun l => fScale s.mode (s.src a.toNat 0 l) (s.src b.toNat 0 l)))

/-- Packed add (R187). -/
def State.fadd2 (s : State) (fmt : FFmt) (d a b : BitVec 7) (n : BitVec 1) (g : BitVec 2) : State :=
  let e := fun i l => fAdd fmt s.mode (s.hsrc fmt a i l) (s.hsrc fmt b i l)
  s.fop d [a.toNat, b.toNat] n g.toNat (fun l => pack2 (e 0 l) (e 1 l))
/-- Packed fused multiply-add (R187). -/
def State.ffma2 (s : State) (fmt : FFmt) (d a b : BitVec 7) (n : BitVec 1) (g : BitVec 2) : State :=
  let e := fun i l => fFma fmt s.mode (s.hsrc fmt a i l) (s.hsrc fmt b i l) (s.hsrc fmt d i l)
  s.fop d [a.toNat, b.toNat, d.toNat] n g.toNat (fun l => pack2 (e 0 l) (e 1 l))
/-- Two-element dot product (R188). -/
def State.fdot2 (s : State) (fmt : FFmt) (d a b : BitVec 7) (n : BitVec 1) (g : BitVec 2) : State :=
  s.fop d [a.toNat, b.toNat, d.toNat] n g.toNat (fun l =>
    fDot s.mode (s.hsrc fmt a 0 l) (s.hsrc fmt b 0 l) (s.hsrc fmt a 1 l) (s.hsrc fmt b 1 l) (s.fsrc d l))

def execFadd2F16 (d a b : BitVec 7) (_r n : BitVec 1) (g : BitVec 2) (s : State) : Res := .next (s.fadd2 fp16 d a b n g)
def execFadd2Bf16 (d a b : BitVec 7) (_r n : BitVec 1) (g : BitVec 2) (s : State) : Res := .next (s.fadd2 bf16 d a b n g)
def execFfma2F16 (d a b : BitVec 7) (_r n : BitVec 1) (g : BitVec 2) (s : State) : Res := .next (s.ffma2 fp16 d a b n g)
def execFfma2Bf16 (d a b : BitVec 7) (_r n : BitVec 1) (g : BitVec 2) (s : State) : Res := .next (s.ffma2 bf16 d a b n g)
def execFdot2F16 (d a b : BitVec 7) (_r n : BitVec 1) (g : BitVec 2) (s : State) : Res := .next (s.fdot2 fp16 d a b n g)
def execFdot2Bf16 (d a b : BitVec 7) (_r n : BitVec 1) (g : BitVec 2) (s : State) : Res := .next (s.fdot2 bf16 d a b n g)

end Sys2Proof.Machine
end

