-- ==== Sys2Proof/Machine/Convert.lean ====
section
/-! DEFINITION. Conversions and FP8 packing (R189 to R194). -/
namespace Sys2Proof.Machine

/-- The source element of a conversion in lane `l`, as stored bits (R191). -/
def State.cvtSrc (s : State) (st : NumTy) (a : BitVec 7) (sel l : Nat) : Nat :=
  if st.width = 64 then (s.srcPair a.toNat l).toNat
  else (s.src a.toNat 0 l).toNat / 2 ^ (st.width * sel) % 2 ^ st.width

/-- An integer element at its value. -/
def tyInt (t : NumTy) (w : Nat) : Int :=
  if t.isSigned && decide (2 ^ (t.width - 1) ≤ w) then (w : Int) - 2 ^ t.width else w

/-- The two's-complement bits of an integer in `n` bits. -/
def intBits (n : Nat) (x : Int) : Nat := (x % 2 ^ n).toNat

/-- Integer element of an SBI type (R48). -/
def sbiVal (st : NumTy) (w : Nat) : Int :=
  if 2 ^ (st.width - 1) ≤ w then (w : Int) - 2 ^ st.width else w

/-- Table 2-5, where an SBI element that CVTN clamps raises NX (log 30): the bits delivered for a source element `w` of type `st`, and the flags. `x` is the block
exponent of an SBI element. -/
def convert (narrow : Bool) (mode : Nat) (dt st : NumTy) (w x : Nat) : Nat × BitVec 5 :=
  if st.isFloat then
    let v := (tyFmt st).decode w
    if dt.isFloat then
      if narrow then
        let r := (tyFmt dt).cvtn mode v
        (r.1, r.2.1)
      else (tyFmt dt).cvt mode v
    else
      match v with
      | .nan _ => (0, fNV)
      | .inf n => (intBits dt.width (if n then tyLo dt else tyHi dt), fNV)
      | .fin n m e =>
        let d : Dy := ⟨if n then -(m : Int) else m, e⟩
        let i := roundInt mode d
        (intBits dt.width (tyClamp dt i), if tyClamp dt i != i then fNV else if d.isInt then 0 else fNX)
  else if st.isSbi then
    if x = 0xFF then ((tyFmt dt).nan, 0)
    else
      let d : Dy := ⟨sbiVal st w, (x : Int) - 127⟩
      if narrow && (tyFmt dt).exceeds d then ((tyFmt dt).withSign (decide (d.m < 0)) (tyFmt dt).maxFin, fNX)
      else (tyFmt dt).roundDy mode d false
  else
    let i := tyInt st w
    if dt.isFloat then (tyFmt dt).roundDy mode ⟨i, 0⟩ false
    else (intBits dt.width (if narrow && decide (dt.width ≤ st.width) then tyClamp dt i else i), 0)

/-- How a result is placed: .s8 and .s16 are extended by their sign to 32 bits, and every other type
narrower than 32 bits by zeros (R191). -/
def placed (dt : NumTy) (w : Nat) : DWord :=
  if dt.isSigned && decide (dt.width < 32) then BitVec.ofInt 64 (tyInt dt w) else BitVec.ofNat 64 w

/-- CVT and CVTN (R192). -/
def State.cvtOp (s : State) (narrow : Bool) (d a : BitVec 7) (t st sel : Nat) : State :=
  let dt := NumTy.ofCode (BitVec.ofNat 4 t)
  let sty := NumTy.ofCode (BitVec.ofNat 4 st)
  let lanes := s.acting 0
  let srcs := if sty.isSbi then [a.toNat, d.toNat] else if sty.width = 64 then [a.toNat, a.toNat + 1] else [a.toNat]
  let f := fun l => convert narrow s.mode dt sty (s.cvtSrc sty a sel l) ((s.src d.toNat 0 l).toNat % 256)
  let u := s.uniformWrite lanes srcs
  let n := s.curRill.vname d.toNat
  let s' := s.vwrite s.cur.rill n u (lanes.map (fun l => (l, (placed dt (f l).1).truncate 32)))
  let s' := if dt.width = 64 then
      s'.vwrite s.cur.rill (n + 1) u (lanes.map (fun l => (l, (placed dt (f l).1).extractLsb' 32 32)))
    else s'
  (s'.raiseFlags s.cur.rill lanes (fun l => (f l).2)).advance

def execCvt (d a : BitVec 7) (t s' : BitVec 4) (e : BitVec 3) (s : State) : Res :=
  .next (s.cvtOp false d a t.toNat s'.toNat e.toNat)
def execCvtn (d a : BitVec 7) (t s' : BitVec 4) (e : BitVec 3) (s : State) : Res :=
  .next (s.cvtOp true d a t.toNat s'.toNat e.toNat)

/-- PACK (R193): two elements by the CVTN rule into the half of d that m selects. -/
def State.packOp (s : State) (fmt : FFmt) (d a b : BitVec 7) (h : BitVec 1) (g : BitVec 2) : State :=
  let e := fun f l => fmt.cvtn s.mode (s.fsrc f l)
  s.fop d [a.toNat, b.toNat, d.toNat] 0 g.toNat (fun l =>
    let half := (e a l).1 + 256 * (e b l).1
    let old := (s.src d.toNat 0 l).toNat
    (if h = 0 then old / 65536 * 65536 + half else half * 65536 + old % 65536,
     (e a l).2.1 ||| (e b l).2.1))

def execPackF8e4 (d a b : BitVec 7) (_r h : BitVec 1) (g : BitVec 2) (s : State) : Res := .next (s.packOp f8e4 d a b h g)
def execPackF8e5 (d a b : BitVec 7) (_r h : BitVec 1) (g : BitVec 2) (s : State) : Res := .next (s.packOp f8e5 d a b h g)

/-- UNPACK (R194): four FP8 elements, exactly, to a quad of FP32 or a packed pair. -/
def execUnpack (d a b : BitVec 7) (z : BitVec 1) (s : State) : Res :=
  let src := if z = 0 then f8e4 else f8e5
  let dst := tyFmt (NumTy.ofCode (b.truncate 4))
  let wide := b.toNat == 8
  let lanes := s.acting 0
  let el := fun i l => dst.cvt 0 (src.decode ((s.src a.toNat 0 l).toNat / 256 ^ i % 256))
  let reg := fun i l =>
    if wide then (el i l).1 else (el (2 * i) l).1 % 65536 + 65536 * (el (2 * i + 1) l).1
  let u := s.uniformWrite lanes [a.toNat]
  let s' := (List.range (if wide then 4 else 2)).foldl (fun t i =>
    t.vwrite s.cur.rill (s.curRill.vname d.toNat + i) u
      (lanes.map (fun l => (l, BitVec.ofNat 32 (reg i l))))) s
  .next (s'.raiseFlags s.cur.rill lanes (fun l =>
    (List.range 4).foldl (fun x i => x ||| (el i l).2) 0)).advance

end Sys2Proof.Machine
end

