-- ==== Sys2Proof/Machine/Control.lean ====
section
/-! DEFINITION. Control instructions (07): branches, calls, NOP, YIELD, REGN, TRAP, BRK and WAITC.
EXIT is in Launch, with the end of a prologue pass; SPAWN is in Spawn. -/
namespace Sys2Proof.Machine

/-- PC + 4 × sext(off21), as an integer. -/
def branchTarget (pc : DWord) (o : BitVec 21) : Int := pc.toNat + 4 * o.toInt

/-- The target lies outside the code span (R156, R157). -/
def outsideSpan (kcode : Nat) (t : Int) : Bool := decide (t < kcode) || decide (t > kcode + 0x00FFFFFC)

/-- The lanes a control nibble takes (R129, R157). -/
def State.taken (s : State) (c : BitVec 4) : List Nat :=
  s.cur.lanes.filter (fun l => (s.curRill.thread l).guard (c.toNat % 4) == (decide (c.toNat / 4 = 0)))

/-- Moves the lanes `take` each to its target and the rest of the cohort on. With `push`, the return
offset is pushed in each lane taken and its region ends at its target (R155). -/
def State.branch (s : State) (take : List Nat) (push : Bool) (target : Nat → DWord) : State :=
  let ret : Word := BitVec.ofNat 32 (s.cur.pc.toNat + 4 - s.curRill.kcode)
  s.advance.mapThreads s.cur.rill take (fun l t =>
    if push then { t with pc := target l, stack := ret :: t.stack, region := target l }
    else { t with pc := target l })

/-- Some lane taken has a full call stack (R156). -/
def State.stackFull (s : State) (take : List Nat) : Bool :=
  take.any (fun l => decide (32 ≤ (s.curRill.thread l).stack.length))

/-- BRA and CALL (R157). A CALL acts in its whole cohort: a lane it does not take ends its region at the following
word (R130, R155). -/
def State.relBranch (s : State) (c : BitVec 4) (o : BitVec 21) (push : Bool) : State :=
  let take := s.taken c
  let t := branchTarget s.cur.pc o
  if !take.isEmpty && outsideSpan s.curRill.kcode t then s.trap 0x05
  else if push && s.stackFull take then s.trap 0x06
  else (if push then s.endRegion s.cur.lanes else s).branch take push (fun _ => BitVec.ofInt 64 t)

def execBra (c : BitVec 4) (o : BitVec 21) (s : State) : Res := .next (s.relBranch c o false)
def execCall (c : BitVec 4) (o : BitVec 21) (s : State) : Res := .next (s.relBranch c o true)

/-- KBRA (R158): the whole cohort on the value of one of k0 to k7. A prologue has no code span. -/
def execKbra (n : BitVec 1) (k : BitVec 3) (o : BitVec 21) (s : State) : Res :=
  let v := s.curRill.kreg k.toNat
  let take := if n = 0 then v != 0 else v == 0
  let t := branchTarget s.cur.pc o
  .next (if !take then s.advance
    else if !isCp s.cur.rill && outsideSpan s.curRill.kcode t then s.trap 0x05
    else s.moveTo s.cur.rill s.cur.lanes (BitVec.ofInt 64 t))

/-- BRX and CALLX (R159): each acting lane to KCODE plus its offset. -/
def State.regBranch (s : State) (a g : Nat) (push : Bool) : State :=
  let take := s.acting g
  let off := fun l => (s.src a 0 l).toNat
  if take.any (fun l => decide (off l > 0x00FFFFFC) || off l % 4 != 0) then s.trap 0x05
  else if push && s.stackFull take then s.trap 0x06
  else s.branch take push (fun l => BitVec.ofNat 64 (s.curRill.kcode + off l))

def execBrx (a : BitVec 7) (_r : BitVec 1) (g : BitVec 2) (s : State) : Res :=
  .next (s.regBranch a.toNat g.toNat false)
def execCallx (a : BitVec 7) (_r : BitVec 1) (g : BitVec 2) (s : State) : Res :=
  .next (s.regBranch a.toNat g.toNat true)

/-- RET (R160): each acting lane continues at the offset it pops, and its region ends there. The checks come in the order of
Table 7-1. -/
def execRet (g : BitVec 2) (s : State) : Res :=
  let take := s.acting g.toNat
  if take.any (fun l => (s.curRill.thread l).stack.head?.any (fun o => decide (o.toNat > 0x00FFFFFC) || o.toNat % 4 != 0)) then .next (s.trap 0x05)
  else if take.any (fun l => (s.curRill.thread l).stack.isEmpty) then .next (s.trap 0x07)
  else
    let target := fun (t : Thread) => BitVec.ofNat 64 (s.curRill.kcode + (t.stack.headD 0).toNat)
    .next (s.advance.mapThreads s.cur.rill take (fun _ t =>
      { t with pc := target t, stack := t.stack.tail, region := target t }))

def execNop (s : State) : Res := .next s.advance

/-- YIELD (R162): the mark remembers the rill's count of issues, this one included. -/
def execYield (s : State) : Res :=
  .next (s.advance.mapThreads s.cur.rill s.cur.lanes (fun _ t => { t with yieldAt := some s.curRill.issues }))

def execRegn (s : State) : Res := .next (s.endRegion s.cur.lanes).advance

/-- TRAP and BRK (R164): the code and the following word are recorded, and the region of the cohort
ends at the following word. -/
def State.softTrap (s : State) (cause : Nat) (i : BitVec 18) : State :=
  (s.endRegion s.cur.lanes).trapWith cause 0 0 (i.zeroExtend 32) (s.cur.pc + 4)

def execTrap (i : BitVec 18) (s : State) : Res := .next (s.softTrap 0x08 i)
def execBrk (i : BitVec 18) (s : State) : Res := .next (s.softTrap 0x09 i)

/-- The waited counters are at or below their limits (R165). The values are TAGM, NLD, NST, NCP, NTL. -/
def waitcReady (s : State) (k : Nat) (w : Wait) : Bool :=
  let r := s.rill k
  let v := fun i => w.vals.getD i 0
  (v 1 == 15 || decide (r.nld ≤ v 1)) && (v 2 == 15 || decide (r.nst ≤ v 2)) &&
  (List.range 4).all (fun t => !bitOf t (v 0) || decide (r.ncp.get 0 t ≤ v 3)) &&
  (v 4 == 15 || decide (r.ntl ≤ v 4))

def waitcDone (s : State) (k : Nat) (w : Wait) : State := s.release k w

def execWaitc (t l n c m : BitVec 4) (s : State) : Res :=
  .next (s.holdOr (s.mkWait (.waitc t l n c m) [t.toNat, l.toNat, n.toNat, c.toNat, m.toNat])
    waitcReady waitcDone)

end Sys2Proof.Machine
end

