-- ==== Sys2Proof/Machine/Operands.lean ====
section
/-! DEFINITION. The registers an instruction names (R131 to R135), for the bounds check, for the
readiness of a thread and for the price of an issue. -/
namespace Sys2Proof.Machine

/-- A register field: how many registers it names from its value on, in the vector or the uniform
space, and whether they are written. -/
structure Use where
  f : Nat
  n : Nat
  vec : Bool
  wr : Bool
  deriving DecidableEq, Repr

def Use.v (f : BitVec 7) (n : Nat) : Use := ⟨f.toNat, n, true, false⟩
def Use.vw (f : BitVec 7) (n : Nat) : Use := ⟨f.toNat, n, true, true⟩
def Use.k (f : BitVec 7) (n : Nat) : Use := ⟨f.toNat, n, false, false⟩
def Use.kw (f : BitVec 7) (n : Nat) : Use := ⟨f.toNat, n, false, true⟩

/-- The uniform pair of a member mask (R201). -/
def maskUse (b : BitVec 7) : List Use := if b.toNat < 96 then [] else [.v b 2]

/-- Registers of an atomic's d (Table 13-3). -/
def atomRegs (wide : Bool) (s : BitVec 4) : Nat :=
  (if s.toNat = 7 ∨ s.toNat = 9 then 2 else 1) * (if wide then 2 else 1)

/-- MFS and MTS: a vector register, or a uniform one in the firmware agent (R437); a pair for a 64-bit
special register. -/
def specialUse (agent rd : Bool) (d : BitVec 7) (i : BitVec 12) : List Use :=
  match specialInfo i with
  | some x => [⟨d.toNat, if x.width = 64 then 2 else 1, !agent, rd⟩]
  | none => []

/-- The register fields of an instruction. -/
def uses (agent : Bool) : Instr → List Use
  | .kbra _ k _ => [⟨k.toNat, 1, false, false⟩]
  | .brx a _ _ => [.v a 1]
  | .callx a _ _ => [.v a 1]
  | .spawn a b _ _ => [.k a 2, .k b 1]
  | .kadd d a b _ => [.kw d 1, .k a 1, .k b 1]
  | .ksub d a b _ => [.kw d 1, .k a 1, .k b 1]
  | .kmul24 d a b _ _ => [.kw d 1, .k a 1, .k b 1]
  | .kmul32 d a b _ => [.kw d 1, .k a 1, .k b 1]
  | .kand d a b _ => [.kw d 1, .k a 1, .k b 1]
  | .kor d a b _ => [.kw d 1, .k a 1, .k b 1]
  | .kxor d a b _ => [.kw d 1, .k a 1, .k b 1]
  | .kshl d a b _ => [.kw d 1, .k a 1, .k b 1]
  | .kshr d a b _ => [.kw d 1, .k a 1, .k b 1]
  | .ksar d a b _ => [.kw d 1, .k a 1, .k b 1]
  | .kmin d a b _ _ => [.kw d 1, .k a 1, .k b 1]
  | .kmax d a b _ _ => [.kw d 1, .k a 1, .k b 1]
  | .ksel d a b _ => [.kw d 1, .k a 1, .k b 1]
  | .kcmp d a b _ _ _ => [.kw d 1, .k a 1, .k b 1]
  | .kli d _ => [.kw d 1]
  | .klih d _ => [.kw d 1]
  | .vtok d a _ => [.kw d 1, .v a 1]
  | .iadd d a b _ _ => [.vw d 1, .v a 1, .v b 1]
  | .isub d a b _ _ => [.vw d 1, .v a 1, .v b 1]
  | .iadd64 d a b _ _ => [.vw d 2, .v a 2, .v b 2]
  | .imul24 d a b _ _ _ => [.vw d 1, .v a 1, .v b 1]
  | .imul24h d a b _ _ _ => [.vw d 1, .v a 1, .v b 1]
  | .imul32 d a b _ _ => [.vw d 1, .v a 1, .v b 1]
  | .imulh d a b _ _ _ => [.vw d 1, .v a 1, .v b 1]
  | .imad24 d a b _ _ _ => [.vw d 1, .v a 1, .v b 1]
  | .iand d a b _ _ => [.vw d 1, .v a 1, .v b 1]
  | .ior d a b _ _ => [.vw d 1, .v a 1, .v b 1]
  | .ixor d a b _ _ => [.vw d 1, .v a 1, .v b 1]
  | .ishl d a b _ _ => [.vw d 1, .v a 1, .v b 1]
  | .irot d a b _ _ => [.vw d 1, .v a 1, .v b 1]
  | .ishr d a b _ _ => [.vw d 1, .v a 1, .v b 1]
  | .isar d a b _ _ => [.vw d 1, .v a 1, .v b 1]
  | .imin d a b _ _ _ => [.vw d 1, .v a 1, .v b 1]
  | .imax d a b _ _ _ => [.vw d 1, .v a 1, .v b 1]
  | .icmp _ _ a b _ _ _ => [.v a 1, .v b 1]
  | .isel d a b _ _ => [.vw d 1, .v a 1, .v b 1]
  | .mov d a => [.vw d 1, .v a 1]
  | .popc d a => [.vw d 1, .v a 1]
  | .clz d a => [.vw d 1, .v a 1]
  | .brev d a => [.vw d 1, .v a 1]
  | .iabs d a => [.vw d 1, .v a 1]
  | .bfeZ32 d a b => [.vw d 1, .v a 1, .v b 1]
  | .bfeS32 d a b => [.vw d 1, .v a 1, .v b 1]
  | .bfi d a b => [.vw d 1, .v a 1, .v b 1]
  | .idot4S8 d a b => [.vw d 1, .v a 1, .v b 1]
  | .idot4Z8 d a b => [.vw d 1, .v a 1, .v b 1]
  | .li d _ => [.vw d 1]
  | .lih d _ => [.vw d 1]
  | .fadd d a b _ _ _ => [.vw d 1, .v a 1, .v b 1]
  | .fsub d a b _ _ _ => [.vw d 1, .v a 1, .v b 1]
  | .fmul d a b _ _ _ => [.vw d 1, .v a 1, .v b 1]
  | .ffma d a b _ _ _ => [.vw d 1, .v a 1, .v b 1]
  | .fmin d a b _ _ _ => [.vw d 1, .v a 1, .v b 1]
  | .fmax d a b _ _ _ => [.vw d 1, .v a 1, .v b 1]
  | .fcmp _ _ a b _ _ _ => [.v a 1, .v b 1]
  | .fclass d a _ _ => [.vw d 1, .v a 1]
  | .frnd d a _ _ _ _ => [.vw d 1, .v a 1]
  | .fscale d a b _ _ _ => [.vw d 1, .v a 1, .v b 1]
  | .fadd2F16 d a b _ _ _ => [.vw d 1, .v a 1, .v b 1]
  | .fadd2Bf16 d a b _ _ _ => [.vw d 1, .v a 1, .v b 1]
  | .ffma2F16 d a b _ _ _ => [.vw d 1, .v a 1, .v b 1]
  | .ffma2Bf16 d a b _ _ _ => [.vw d 1, .v a 1, .v b 1]
  | .fdot2F16 d a b _ _ _ => [.vw d 1, .v a 1, .v b 1]
  | .fdot2Bf16 d a b _ _ _ => [.vw d 1, .v a 1, .v b 1]
  | .cvt d a t s _ => [.vw d (if (NumTy.ofCode t).width = 64 then 2 else 1), .v a (if (NumTy.ofCode s).width = 64 then 2 else 1)]
  | .cvtn d a t s _ => [.vw d (if (NumTy.ofCode t).width = 64 then 2 else 1), .v a (if (NumTy.ofCode s).width = 64 then 2 else 1)]
  | .packF8e4 d a b _ _ _ => [.vw d 1, .v a 1, .v b 1]
  | .packF8e5 d a b _ _ _ => [.vw d 1, .v a 1, .v b 1]
  | .unpack d a b _ => [.vw d (if b.toNat = 8 then 4 else 2), .v a 1]
  | .qblk d a _ => [.vw d 1, .v a 1]
  | .sfn d a _ _ _ _ => [.vw d 1, .v a 1]
  | .vote d a b s => (if s.toNat = 2 then [.vw d 2] else []) ++ [.v a 1] ++ maskUse b
  | .shfl d a b _ => [.vw d 1, .v a 1, .v b 1]
  | .perm d a _ _ => [.vw d 1, .v a 1]
  | .redx d a b _ => [.vw d 1, .v a 1] ++ maskUse b
  | .scanx d a b _ => [.vw d 1, .v a 1] ++ maskUse b
  | .matchx d a b _ => [.vw d 1, .v a 1] ++ maskUse b
  | .elect _ b => maskUse b
  | .ld8 d a _ _ _ _ => [.vw d 1, .v a 2]
  | .ld16 d a _ _ _ _ => [.vw d 1, .v a 2]
  | .ld32 d a _ _ _ _ => [.vw d 1, .v a 2]
  | .ld64 d a _ _ _ _ => [.vw d 2, .v a 2]
  | .ld128 d a _ _ _ _ => [.vw d 4, .v a 2]
  | .st8 d a _ _ _ _ => [.v d 1, .v a 2]
  | .st16 d a _ _ _ _ => [.v d 1, .v a 2]
  | .st32 d a _ _ _ _ => [.v d 1, .v a 2]
  | .st64 d a _ _ _ _ => [.v d 2, .v a 2]
  | .st128 d a _ _ _ _ => [.v d 4, .v a 2]
  | .ldk d a _ _ _ z => [.kw d (1 + z.toNat), .k a 2]
  | .stk d a _ _ _ z => [.k d (1 + z.toNat), .k a 2]
  | .ldl d a z _ _ => [.vw d (2 ^ z.toNat), .v a 1]
  | .stl d a z _ _ => [.v d (2 ^ z.toNat), .v a 1]
  | .atom32 d a _ s _ _ => [.vw d (atomRegs false s), .v a 2]
  | .atom64 d a _ s _ _ => [.vw d (atomRegs true s), .v a 2]
  | .red32 d a _ _ _ _ => [.v d 1, .v a 2]
  | .red64 d a _ _ _ _ => [.v d 2, .v a 2]
  | .acopy _ d a b _ _ _ => [.v d 1, .v a 2, .v b 1]
  | .rcopy a _ _ => [.v a 2]
  | .pref a _ _ => [.v a 2]
  | .prefSc d a _ _ => [.vw d 4, .v a 2]
  | .invl1 a _ _ => [.v a 2]
  | .setobs _ a _ _ => [.v a 1]
  | .tmma a _ _ _ => [.v a 2]
  | .tlda _ _ a _ _ _ => [.v a 4]
  | .tsta _ _ a _ _ _ => [.v a 4]
  | .tcvt _ _ a _ _ _ => [.v a 4]
  | .tprog d _ _ => [.vw d 1]
  | .barInit a b => [.v a 1, .v b 1]
  | .arrive d a b => [.vw d 1, .v a 1, .v b 1]
  | .arriveD _ a b => [.v a 1, .v b 1]
  | .bwait a b => [.v a 1, .v b 1]
  | .ringWait _ a => [.v a 1]
  | .vfsend a => [.v a 1]
  | .vfrecv d => [.vw d 1]
  | .coll a _ _ => [.v a 2]
  | .rop a _ _ => [.v a 2]
  | .pint a b => [.k a 2, .k b 1]
  | .eqres d a => [.kw d 1, .k a 1]
  | .mfs d i _ => specialUse agent true d i
  | .mts d i _ => specialUse agent false d i
  | .cctlClean d => [.k d 4]
  | .cctlEvict d => [.k d 4]
  | .tlbinvCtx d => [.k d 1]
  | .tlbinvPage d => [.k d 4]
  | .bra .. => []
  | .call .. => []
  | .ret .. => []
  | .exit .. => []
  | .nop => []
  | .yield => []
  | .regn => []
  | .trap .. => []
  | .brk .. => []
  | .waitc .. => []
  | .crossLaneComplete .. => []
  | .invl1All .. => []
  | .fence .. => []
  | .tzero .. => []
  | .twait .. => []
  | .ringPost .. => []
  | .ringPostSize .. => []
  | .xacq => []
  | .xrel => []
  | .wbase .. => []
  | .eretRetry => []
  | .eretCont => []
  | .eretKill => []
  | .tlbinvAll => []
  | .halt => []
  | .waitEnd .. => []
  | .issueDrawCycle .. => []
  | .reservationJoin .. => []
  | .epochRefill .. => []
  | .priceCommit .. => []
  | .corePriceSwitch .. => []
  | .dcapWrite .. => []
  | .qtailWrite .. => []
  | .qheadWrite .. => []
  | .haltClear .. => []
  | .abort .. => []
  | .registerWrite .. => []
  | .arbiterGrant .. => []
  | .fenceObjectRead .. => []
  | .prologueLimit .. => []
  | .windowInstall => []
  | .completionCountReport .. => []
  | .launchRetire .. => []
  | .placementEvaluation .. => []
  | .candidateWaitLimit .. => []
  | .groupStart .. => []
  | .spanReservationRequest .. => []
  | .spanReservationReply .. => []
  | .unitPlacedReport .. => []
  | .maskReport .. => []
  | .loadReturn .. => []
  | .storeVisible .. => []
  | .atomicPerform .. => []
  | .vtokWrite .. => []
  | .copyLineWrite .. => []
  | .deferredArrivalCount .. => []
  | .rcopyUnit .. => []
  | .rcopyComplete .. => []
  | .tileOperandLine .. => []
  | .tileKstep .. => []
  | .tileOpComplete .. => []
  | .barrierDoneMessage .. => []
  | .flumeEntryDelivery .. => []
  | .flumeCredit .. => []
  | .eventRecordWrite => []
  | .eventResolve .. => []
  | .rillRetire .. => []
  | .preemptQueue .. => []
  | .preemptRestore .. => []
  | .contextSaveComplete .. => []
  | .deferredPreemption => []
  | .gateLayer .. => []
  | .restoreLayer .. => []
  | .gatePowerOff .. => []
  | .restoreComplete .. => []
  | .debugHaltRequest .. => []
  | .debugHalted .. => []
  | .debugRun .. => []
  | .linkResponseWatchdog .. => []
  | .packageReset => []
  | .attestationAttempt .. => []
  | .attestationTimeout .. => []
  | .linkkey .. => []
  | .dieOpen .. => []
  | .rollRequest .. => []
  | .keyRolloverCount .. => []
  | .oldKeyErase .. => []
  | .linkTagFail .. => []
  | .dieResetRequest .. => []
  | .drainComplete .. => []
  | .drainLimit .. => []
  | .doeRequest .. => []
  | .peerAttestation .. => []
  | .pstepAssert => []
  | .pstepRelease => []
  | .powerStepGo .. => []
  | .pcapWrite .. => []
  | .weirPeriod .. => []
  | .peerIntentMessage .. => []
  | .peerIntentLapse .. => []
  | .fselWrite .. => []
  | .relockDone .. => []
  | .droopTrip .. => []
  | .chargeUpdate .. => []
  | .thermalSample .. => []
  | .powerFail => []
  | .saveItemComplete .. => []
  | .saveResume => []
  | .saveDiscard => []
  | .pageWalk .. => []
  | .bsizeWrite .. => []
  | .bsizeChangeDone .. => []
  | .treqs .. => []
  | .treqx .. => []
  | .tok .. => []
  | .transientRequestTimeout .. => []
  | .preq .. => []
  | .pact .. => []
  | .pack .. => []
  | .pdone .. => []
  | .pdeact .. => []
  | .lineEvict .. => []
  | .coherenceRetransmit .. => []
  | .hostMemRead .. => []
  | .hostMemWrite .. => []
  | .hostWriteback .. => []
  | .birspi .. => []
  | .elmLossOfLight .. => []
  | .elmLightReturn .. => []
  | .elmenWrite .. => []
  | .dataFlit .. => []
  | .ackFlit .. => []
  | .pathControlFlit .. => []
  | .pathRejoin .. => []
  | .replayTimeout .. => []
  | .setAnnouncement => []
  | .holdMessage .. => []
  | .remoteRequestAbandon .. => []
  | .sluiceRequest .. => []
  | .remoteResponse .. => []
  | .collectiveSignalRead .. => []
  | .collectiveChunk .. => []
  | .collectiveEnd .. => []
  | .blackboxRecord => []
  | .blackboxClear => []
  | .blackboxMctpRead .. => []
  | .bootRecordClear => []
  | .powerRemoved => []

/-- The guard under which the instruction acts (R130, R137); g0 where it has none. -/
def guardOf : Instr → Nat
  | .brx _ _ g => g.toNat
  | .callx _ _ g => g.toNat
  | .ret g => g.toNat
  | .exit g => g.toNat
  | .spawn _ _ _ g => g.toNat
  | .iadd _ _ _ _ g => g.toNat
  | .isub _ _ _ _ g => g.toNat
  | .iadd64 _ _ _ _ g => g.toNat
  | .imul24 _ _ _ _ _ g => g.toNat
  | .imul24h _ _ _ _ _ g => g.toNat
  | .imul32 _ _ _ _ g => g.toNat
  | .imulh _ _ _ _ _ g => g.toNat
  | .imad24 _ _ _ _ _ g => g.toNat
  | .iand _ _ _ _ g => g.toNat
  | .ior _ _ _ _ g => g.toNat
  | .ixor _ _ _ _ g => g.toNat
  | .ishl _ _ _ _ g => g.toNat
  | .irot _ _ _ _ g => g.toNat
  | .ishr _ _ _ _ g => g.toNat
  | .isar _ _ _ _ g => g.toNat
  | .imin _ _ _ _ _ g => g.toNat
  | .imax _ _ _ _ _ g => g.toNat
  | .icmp _ _ _ _ _ _ g => g.toNat
  | .isel _ _ _ _ g => g.toNat
  | .fadd _ _ _ _ _ g => g.toNat
  | .fsub _ _ _ _ _ g => g.toNat
  | .fmul _ _ _ _ _ g => g.toNat
  | .ffma _ _ _ _ _ g => g.toNat
  | .fmin _ _ _ _ _ g => g.toNat
  | .fmax _ _ _ _ _ g => g.toNat
  | .fcmp _ _ _ _ _ _ g => g.toNat
  | .fclass _ _ _ g => g.toNat
  | .frnd _ _ _ _ _ g => g.toNat
  | .fscale _ _ _ _ _ g => g.toNat
  | .fadd2F16 _ _ _ _ _ g => g.toNat
  | .fadd2Bf16 _ _ _ _ _ g => g.toNat
  | .ffma2F16 _ _ _ _ _ g => g.toNat
  | .ffma2Bf16 _ _ _ _ _ g => g.toNat
  | .fdot2F16 _ _ _ _ _ g => g.toNat
  | .fdot2Bf16 _ _ _ _ _ g => g.toNat
  | .packF8e4 _ _ _ _ _ g => g.toNat
  | .packF8e5 _ _ _ _ _ g => g.toNat
  | .sfn _ _ _ _ _ g => g.toNat
  | .ld8 _ _ _ _ _ g => g.toNat
  | .ld16 _ _ _ _ _ g => g.toNat
  | .ld32 _ _ _ _ _ g => g.toNat
  | .ld64 _ _ _ _ _ g => g.toNat
  | .ld128 _ _ _ _ _ g => g.toNat
  | .st8 _ _ _ _ _ g => g.toNat
  | .st16 _ _ _ _ _ g => g.toNat
  | .st32 _ _ _ _ _ g => g.toNat
  | .st64 _ _ _ _ _ g => g.toNat
  | .st128 _ _ _ _ _ g => g.toNat
  | .ldl _ _ _ _ g => g.toNat
  | .stl _ _ _ _ g => g.toNat
  | .atom32 _ _ _ _ _ g => g.toNat
  | .atom64 _ _ _ _ _ g => g.toNat
  | .red32 _ _ _ _ _ g => g.toNat
  | .red64 _ _ _ _ _ g => g.toNat
  | .acopy _ _ _ _ _ _ g => g.toNat
  | .rcopy _ _ g => g.toNat
  | .pref _ _ g => g.toNat
  | .prefSc _ _ _ g => g.toNat
  | .invl1 _ _ g => g.toNat
  | .invl1All g => g.toNat
  | .setobs _ _ _ g => g.toNat
  | .tmma _ _ _ g => g.toNat
  | .tzero _ _ g => g.toNat
  | .tlda _ _ _ _ _ g => g.toNat
  | .tsta _ _ _ _ _ g => g.toNat
  | .tcvt _ _ _ _ _ g => g.toNat
  | .twait _ g => g.toNat
  | .tprog _ _ g => g.toNat
  | .coll _ _ g => g.toNat
  | .rop _ _ g => g.toNat
  | .mfs _ _ g => g.toNat
  | .mts _ _ g => g.toNat
  | .bra c _ => c.toNat % 4
  | .call c _ => c.toNat % 4
  | _ => 0

/-- The guard it writes; g0 where it writes none. -/
def guardDest : Instr → Nat
  | .icmp _ e _ _ _ _ _ => e.toNat
  | .fcmp _ e _ _ _ _ _ => e.toNat
  | .elect e _ => e.toNat
  | .vote d _ _ s => if s.toNat = 2 then 0 else d.toNat % 4
  | _ => 0

/-- The guards g1 to g3 an instruction names. -/
def guardUses (i : Instr) : List Nat := [guardOf i, guardDest i].filter (· != 0)

/-- Guard `g` as a register that an instruction names (Table 6-2). -/
def guardReg (g : Nat) : Nat := 2000 + g

/-- The register a use names, `j` registers on, numbered with uniform registers from `latchK 0`. -/
def Rill.useReg (r : Rill) (u : Use) (j : Nat) : Nat :=
  if u.vec then (if u.f < 96 then r.vname u.f + j else latchK (u.f - 96 + j)) else latchK (r.kname u.f + j)

/-- The rill owns the register (R135): the base block, the extended block while it holds it, and its
uniform registers. -/
def Rill.ownsReg (r : Rill) (n : Nat) : Bool :=
  if n < 1000 then decide (n < r.nvec) || (r.holdsX && decide (192 ≤ n) && decide (n < 256))
  else decide (n - 1000 < r.nuni)

/-- Every register an instruction names. -/
def Rill.regsOf (r : Rill) (i : Instr) : List Nat :=
  ((uses r.agent i).map (fun u => (List.range u.n).map (r.useReg u))).flatten

/-- Every register and guard an instruction names (Table 6-2). -/
def Rill.names (r : Rill) (i : Instr) : List Nat := r.regsOf i ++ (guardUses i).map guardReg

/-- The registers it writes when it issues or returns. -/
def Rill.destsOf (r : Rill) (i : Instr) : List Nat :=
  (((uses r.agent i).filter (·.wr)).map (fun u => (List.range u.n).map (r.useReg u))).flatten

/-- Check 4 of R145. The firmware agent owns no guard but g0 (R115, Table 7-4). -/
def Rill.inBounds (r : Rill) (i : Instr) : Bool := (r.regsOf i).all r.ownsReg && (!r.agent || (guardUses i).isEmpty)

/-- The vector sources of a vector instruction are all broadcasts or in uniform form (R140). -/
def Rill.uniformSources (r : Rill) (i : Instr) : Bool :=
  ((uses r.agent i).filter (fun u => !u.wr)).all (fun u =>
    !u.vec || decide (96 ≤ u.f) || (List.range u.n).all (fun j => r.uform.contains (r.vname u.f + j)))

/-- The field a, in which space it names a register, and the reuse bit, of an instruction whose a field is a register
(R138). Only format A has a reuse bit; in the other formats it is taken as 0, so that a hit releases the latch. -/
def reuseField : Instr → Option (Use × Bool)
  | .brx a r _ => some (.v a 1, r == 1)
  | .callx a r _ => some (.v a 1, r == 1)
  | .spawn a _ r _ => some (.k a 2, r == 1)
  | .kadd _ a _ r => some (.k a 1, r == 1)
  | .ksub _ a _ r => some (.k a 1, r == 1)
  | .kmul24 _ a _ r _ => some (.k a 1, r == 1)
  | .kmul32 _ a _ r => some (.k a 1, r == 1)
  | .kand _ a _ r => some (.k a 1, r == 1)
  | .kor _ a _ r => some (.k a 1, r == 1)
  | .kxor _ a _ r => some (.k a 1, r == 1)
  | .kshl _ a _ r => some (.k a 1, r == 1)
  | .kshr _ a _ r => some (.k a 1, r == 1)
  | .ksar _ a _ r => some (.k a 1, r == 1)
  | .kmin _ a _ r _ => some (.k a 1, r == 1)
  | .kmax _ a _ r _ => some (.k a 1, r == 1)
  | .ksel _ a _ r => some (.k a 1, r == 1)
  | .kcmp _ a _ r _ _ => some (.k a 1, r == 1)
  | .iadd _ a _ r _ => some (.v a 1, r == 1)
  | .isub _ a _ r _ => some (.v a 1, r == 1)
  | .iadd64 _ a _ r _ => some (.v a 2, r == 1)
  | .imul24 _ a _ r _ _ => some (.v a 1, r == 1)
  | .imul24h _ a _ r _ _ => some (.v a 1, r == 1)
  | .imul32 _ a _ r _ => some (.v a 1, r == 1)
  | .imulh _ a _ r _ _ => some (.v a 1, r == 1)
  | .imad24 _ a _ r _ _ => some (.v a 1, r == 1)
  | .iand _ a _ r _ => some (.v a 1, r == 1)
  | .ior _ a _ r _ => some (.v a 1, r == 1)
  | .ixor _ a _ r _ => some (.v a 1, r == 1)
  | .ishl _ a _ r _ => some (.v a 1, r == 1)
  | .irot _ a _ r _ => some (.v a 1, r == 1)
  | .ishr _ a _ r _ => some (.v a 1, r == 1)
  | .isar _ a _ r _ => some (.v a 1, r == 1)
  | .imin _ a _ r _ _ => some (.v a 1, r == 1)
  | .imax _ a _ r _ _ => some (.v a 1, r == 1)
  | .icmp _ _ a _ r _ _ => some (.v a 1, r == 1)
  | .isel _ a _ r _ => some (.v a 1, r == 1)
  | .fadd _ a _ r _ _ => some (.v a 1, r == 1)
  | .fsub _ a _ r _ _ => some (.v a 1, r == 1)
  | .fmul _ a _ r _ _ => some (.v a 1, r == 1)
  | .ffma _ a _ r _ _ => some (.v a 1, r == 1)
  | .fmin _ a _ r _ _ => some (.v a 1, r == 1)
  | .fmax _ a _ r _ _ => some (.v a 1, r == 1)
  | .fcmp _ _ a _ r _ _ => some (.v a 1, r == 1)
  | .fclass _ a r _ => some (.v a 1, r == 1)
  | .frnd _ a _ r _ _ => some (.v a 1, r == 1)
  | .fscale _ a _ r _ _ => some (.v a 1, r == 1)
  | .fadd2F16 _ a _ r _ _ => some (.v a 1, r == 1)
  | .fadd2Bf16 _ a _ r _ _ => some (.v a 1, r == 1)
  | .ffma2F16 _ a _ r _ _ => some (.v a 1, r == 1)
  | .ffma2Bf16 _ a _ r _ _ => some (.v a 1, r == 1)
  | .fdot2F16 _ a _ r _ _ => some (.v a 1, r == 1)
  | .fdot2Bf16 _ a _ r _ _ => some (.v a 1, r == 1)
  | .packF8e4 _ a _ r _ _ => some (.v a 1, r == 1)
  | .packF8e5 _ a _ r _ _ => some (.v a 1, r == 1)
  | .sfn _ a _ r _ _ => some (.v a 1, r == 1)
  | .acopy _ _ a _ r _ _ => some (.v a 2, r == 1)
  | .rcopy a r _ => some (.v a 2, r == 1)
  | .pref a r _ => some (.v a 2, r == 1)
  | .prefSc _ a r _ => some (.v a 2, r == 1)
  | .invl1 a r _ => some (.v a 2, r == 1)
  | .setobs _ a r _ => some (.v a 1, r == 1)
  | .tmma a r _ _ => some (.v a 2, r == 1)
  | .tlda _ _ a r _ _ => some (.v a 4, r == 1)
  | .tsta _ _ a r _ _ => some (.v a 4, r == 1)
  | .tcvt _ _ a r _ _ => some (.v a 4, r == 1)
  | .coll a r _ => some (.v a 2, r == 1)
  | .rop a r _ => some (.v a 2, r == 1)
  | .vtok _ a _ => some (.v a 1, false)
  | .mov _ a => some (.v a 1, false)
  | .popc _ a => some (.v a 1, false)
  | .clz _ a => some (.v a 1, false)
  | .brev _ a => some (.v a 1, false)
  | .iabs _ a => some (.v a 1, false)
  | .bfeZ32 _ a _ => some (.v a 1, false)
  | .bfeS32 _ a _ => some (.v a 1, false)
  | .bfi _ a _ => some (.v a 1, false)
  | .idot4S8 _ a _ => some (.v a 1, false)
  | .idot4Z8 _ a _ => some (.v a 1, false)
  | .cvt _ a _ s _ => some (.v a (if (NumTy.ofCode s).width = 64 then 2 else 1), false)
  | .cvtn _ a _ s _ => some (.v a (if (NumTy.ofCode s).width = 64 then 2 else 1), false)
  | .unpack _ a _ _ => some (.v a 1, false)
  | .qblk _ a _ => some (.v a 1, false)
  | .vote _ a _ _ => some (.v a 1, false)
  | .shfl _ a _ _ => some (.v a 1, false)
  | .perm _ a _ _ => some (.v a 1, false)
  | .redx _ a _ _ => some (.v a 1, false)
  | .scanx _ a _ _ => some (.v a 1, false)
  | .matchx _ a _ _ => some (.v a 1, false)
  | .ld8 _ a _ _ _ _ => some (.v a 2, false)
  | .ld16 _ a _ _ _ _ => some (.v a 2, false)
  | .ld32 _ a _ _ _ _ => some (.v a 2, false)
  | .ld64 _ a _ _ _ _ => some (.v a 2, false)
  | .ld128 _ a _ _ _ _ => some (.v a 2, false)
  | .st8 _ a _ _ _ _ => some (.v a 2, false)
  | .st16 _ a _ _ _ _ => some (.v a 2, false)
  | .st32 _ a _ _ _ _ => some (.v a 2, false)
  | .st64 _ a _ _ _ _ => some (.v a 2, false)
  | .st128 _ a _ _ _ _ => some (.v a 2, false)
  | .ldk _ a _ _ _ _ => some (.k a 2, false)
  | .stk _ a _ _ _ _ => some (.k a 2, false)
  | .ldl _ a _ _ _ => some (.v a 1, false)
  | .stl _ a _ _ _ => some (.v a 1, false)
  | .atom32 _ a _ _ _ _ => some (.v a 2, false)
  | .atom64 _ a _ _ _ _ => some (.v a 2, false)
  | .red32 _ a _ _ _ _ => some (.v a 2, false)
  | .red64 _ a _ _ _ _ => some (.v a 2, false)
  | .barInit a _ => some (.v a 1, false)
  | .arrive _ a _ => some (.v a 1, false)
  | .arriveD _ a _ => some (.v a 1, false)
  | .bwait a _ => some (.v a 1, false)
  | .ringWait _ a => some (.v a 1, false)
  | .vfsend a => some (.v a 1, false)
  | .pint a _ => some (.k a 2, false)
  | .eqres _ a => some (.k a 1, false)
  | _ => none

end Sys2Proof.Machine
end

