-- ==== Sys2Proof/Machine/Energy.lean ====
section
/-! DEFINITION. Datapaths and occupancy (R174, R200, R217), the default price table (R224, R228) and
the price of an issue (R220 to R223). -/
namespace Sys2Proof.Machine

/-! ## Datapaths -/

def dpUS : Nat := 0
def dpLS : Nat := 1
def dpVA : Nat := 2
def dpVF : Nat := 3
def dpSF : Nat := 4

def majorOf (w : Word) : Nat := bitsOf 31 25 w.toNat

/-- The datapath of a word (Table 10-1, Table 8-1). -/
def datapath (w : Word) : Nat :=
  let m := majorOf w
  let sub := bitsOf 3 0 w.toNat
  if m = 0x0E then dpLS
  else if m = 0x1F then dpSF
  else if m < 0x1F then dpUS
  else if m ∈ [0x23, 0x24, 0x25, 0x26, 0x27] then dpVF
  else if m = 0x31 then (if sub = 8 ∨ sub = 9 then dpVF else dpVA)
  else if m ∈ [0x34, 0x35, 0x36, 0x37] then dpVF
  else if 0x3E ≤ m ∧ m ≤ 0x43 then dpVF
  else if m < 0x51 then dpVA
  else if m < 0x60 then dpSF
  else if m < 0x7D then dpLS
  else dpUS

/-- Passes at width 32 (Table 8-1, Table 9-1). -/
def passes32 (w : Word) : Nat :=
  let m := majorOf w
  let sub := bitsOf 3 0 w.toNat
  let ty := fun c => (NumTy.ofCode (fld 4 c w.toNat)).width
  if m = 0x22 then 2
  else if m = 0x25 ∨ m = 0x26 then 4
  else if m = 0x4C ∨ m = 0x4D then (if ty 7 = 64 ∨ ty 3 = 64 then 2 else 1)
  else if m = 0x50 then (if bitsOf 10 4 w.toNat = 8 then 2 else 1)
  else if m = 0x51 then 5
  else if m = 0x54 then 4
  else if m = 0x5B ∨ m = 0x5C then (if sub % 8 < 5 then 5 else 6)
  else if m = 0x5D then 8
  else if 0x58 ≤ m ∧ m < 0x60 then 4
  else 1

/-- Clocks for which an issue occupies its datapath (R217). -/
def occupancy (w : Word) (width : Nat) : Nat :=
  let dp := datapath w
  if dp = dpUS ∨ majorOf w = 0x1F then 1
  else if dp = dpLS then (if width = 64 then 2 else 1)
  else if width = 64 then 2 * passes32 w
  else if width = 16 then ceilDiv (passes32 w) 2
  else passes32 w

/-! ## Prices -/

/-- The variant of the instruction index (Table 10-2). -/
def variant (w : Word) : Nat :=
  let m := majorOf w
  let n := w.toNat
  if m ∈ [0x0A, 0x1F, 0x31, 0x50, 0x51, 0x58, 0x59, 0x5A, 0x5B, 0x5C, 0x5D, 0x5E, 0x78, 0x79, 0x7A, 0x7B, 0x7D]
  then bitsOf 3 0 n
  else if m ∈ [0x54, 0x72, 0x75, 0x7C] then bitsOf 7 4 n
  else if 0x6C ≤ m ∧ m ≤ 0x6F then bitsOf 7 4 n
  else if m = 0x4C ∨ m = 0x4D then bitsOf 10 7 n
  else if m = 0x18 ∨ m = 0x2B ∨ m = 0x2C then bitsOf 2 2 n
  else if m = 0x6A then bitsOf 1 0 n
  else if m = 0x6B then bitsOf 10 8 n
  else if m = 0x7E then (if bitsOf 17 16 n = 0 then bitsOf 2 2 n else 2 + bitsOf 7 4 n)
  else 0

def priceIndex (w : Word) : Nat := 16 * majorOf w + variant w

/-- An entry's bits from its fields (R223). -/
def priceWord (p rdisc unsc : Nat) : Nat := unsc * 2 ^ 31 + rdisc * 2 ^ 16 + p

/-- The default table (Table 10-3). -/
def defaultInsn (m x : Nat) : Nat :=
  let u := fun p => priceWord p 0 1
  if m ∈ [0x08, 0x09, 0x0A, 0x07, 0x0D, 0x0B, 0x0C] then u 1
  else if m ≤ 0x06 ∧ 1 ≤ m then u 2
  else if m = 0x0E then u 8
  else if 0x10 ≤ m ∧ m ≤ 0x1E then u 1
  else if m = 0x1F then u 2
  else if m = 0x22 then priceWord 12 2 0
  else if m ∈ [0x23, 0x24, 0x27] then priceWord 10 2 0
  else if m = 0x25 ∨ m = 0x26 then priceWord 36 4 0
  else if m = 0x31 then (if x = 8 ∨ x = 9 then priceWord 10 2 0 else priceWord 6 2 0)
  else if 0x20 ≤ m ∧ m ≤ 0x33 then priceWord 6 2 0
  else if m ∈ [0x34, 0x35, 0x36] then priceWord 10 2 0
  else if m = 0x37 ∨ (0x3E ≤ m ∧ m ≤ 0x43) then priceWord 12 2 0
  else if 0x38 ≤ m ∧ m ≤ 0x3D then priceWord 6 2 0
  else if m = 0x4C ∨ m = 0x4D then (if x = 3 ∨ x = 7 then priceWord 14 2 0 else priceWord 8 2 0)
  else if m = 0x4E ∨ m = 0x4F ∨ m = 0x50 then priceWord 8 2 0
  else if m = 0x51 then priceWord 40 0 0
  else if m = 0x54 then priceWord 24 2 0
  else if m ∈ [0x58, 0x59, 0x5A, 0x5E] then priceWord 16 0 0
  else if m = 0x5B ∨ m = 0x5C then (if x % 8 < 5 then priceWord 20 0 0 else priceWord 24 0 0)
  else if m = 0x5D then priceWord 32 0 0
  else if m ∈ [0x60, 0x61, 0x62, 0x65, 0x66, 0x67] then priceWord 16 0 0
  else if m = 0x63 ∨ m = 0x68 then priceWord 20 0 0
  else if m = 0x64 ∨ m = 0x69 then priceWord 28 0 0
  else if m = 0x6A then u 4
  else if m = 0x6B then priceWord ([8, 10, 14].getD (x % 4) 0) 0 0
  else if m = 0x6C then priceWord 24 0 0
  else if m = 0x6D then priceWord 28 0 0
  else if m = 0x6E then priceWord 20 0 0
  else if m = 0x6F then priceWord 24 0 0
  else if m = 0x70 ∨ m = 0x71 then priceWord 6 0 0
  else if m = 0x72 then [u 8, priceWord 6 0 0, priceWord 4 0 0, u 1].getD x 0
  else if m = 0x73 then u 2
  else if m = 0x74 then u 8
  else if m = 0x75 then u 2
  else if m = 0x78 then (if x = 3 then u 1 else u 4)
  else if m = 0x79 then (if x = 1 then u 1 else u 4)
  else if m = 0x7A then priceWord 12 0 0
  else if m = 0x7B then u 1
  else if m = 0x7C then u 8
  else if m = 0x7D then u 1
  else if m = 0x7E then (if x < 2 then priceWord 2 0 0 else u 4)
  else 0

/-- The default engine entries (Table 10-5) and the surcharge word (R223). -/
def defaultEngine (i : Nat) : Nat :=
  if i = 0x809 ∨ i = 0x80A then 90
  else if i = 0x80B ∨ i = 0x80C then 88
  else if i = 0x80D then 84
  else if i = 0x80E then 80
  else if i = 0x819 ∨ i = 0x81A then 98
  else if i = 0x81B ∨ i = 0x81C then 96
  else if i = 0x81D then 92
  else if i = 0x81E then 88
  else if i = 0x820 ∨ i = 0x821 then 3
  else if i = 0x822 then 2
  else if i = 0x830 then 4
  else if i = 0x840 then 5
  else if i = 0x841 then 3
  else if i = 0x8F0 then 6
  else 0

/-- The default table of a bank by index (R224). -/
def defaultPrice (i : Nat) : Nat := if i < 0x800 then defaultInsn (i / 16) (i % 16) else defaultEngine i

/-- The entry of bank `b` at index `i` in a core's copy; a bank never committed holds the default. -/
def Core.price (x : Core) (b i : Nat) : Nat := (x.prices.find (4096 * b + i)).getD (defaultPrice i)

/-- The staging copy (R225). -/
def State.staged (s : State) (b i : Nat) : Nat := (s.stage.find (4096 * b + i)).getD (defaultPrice i)

def entryP (e : Nat) : Nat := bitsOf 15 0 e
def entryRdisc (e : Nat) : Nat := bitsOf 23 16 e
def entryUnsc (e : Nat) : Bool := bitOf 31 e

/-- The arithmetic of R220. -/
def priceOf (entry xsur width : Nat) (hit partialWrite : Bool) : Nat :=
  let p := entryP entry
  let p := if hit then p - entryRdisc entry else p
  let p := if partialWrite then p + entryP xsur else p
  if entryUnsc entry then p else if width = 64 then 2 * p else if width = 16 then ceilDiv p 2 else p

/-- The a operand of the candidate hits the latch of its datapath (R138). -/
def State.latchHit (s : State) (key : Nat) (i : Instr) (w : Word) : Bool :=
  match reuseField i, (s.core (keyCore key)).latch.get none (5 * keyPart key + datapath w) with
  | some (u, _), some h => h.rill == key && h.reg == (s.rill key).useReg u 0
  | _, _ => false

/-- The instructions whose results are left in uniform form (R140), which the device always does where it may. The
arithmetic and conversion instructions on SF are taken to be SFN; QBLK and the cross-lane instructions are not among
them. DESIGN CHOICE: log entry 98. -/
def leavesUniform (w : Word) : Bool :=
  let m := majorOf w
  decide (0x20 ≤ m) && decide (m ≤ 0x54) && m != 0x51

/-- The lanes of a cohort in which an instruction acts (R137). -/
def Rill.actingOf (r : Rill) (i : Instr) (cohort : List Nat) : List Nat :=
  cohort.filter (fun l => !(r.thread l).exited && (r.thread l).guard (guardOf i))

/-- The issue is a partial write to a register in uniform form (R140). An issue in which no lane acts writes none. -/
def State.partialWrite (s : State) (key : Nat) (i : Instr) (w : Word) (cohort : List Nat) : Bool :=
  let r := s.rill key
  let lanes := r.actingOf i cohort
  !lanes.isEmpty && (r.destsOf i).any r.uform.contains &&
    !(leavesUniform w && r.uniformSources i && decide (lanes = r.liveLanes))

/-- The price of a candidate, EQRES's transfer apart (R220). -/
def State.issuePrice (s : State) (key : Nat) (i : Instr) (w : Word) (cohort : List Nat) : Nat :=
  let r := s.rill key
  let c := s.core (keyCore key)
  priceOf (c.price r.pclass (priceIndex w)) (c.price r.pclass 0x8F0) r.width (s.latchHit key i w)
    (s.partialWrite key i w cohort)

/-- The price of an engine unit of a command that rill `key` issued (R228). -/
def State.enginePrice (s : State) (key i : Nat) : Nat :=
  entryP ((s.core (keyCore key)).price (s.rill key).pclass i)

/-- The domain of a core (R226). -/
def coreDom (c : Nat) : Nat := 2 * dieTower (coreDie c) + dieLayer (coreDie c)
def State.coreCcap (s : State) (c : Nat) : Nat := (s.dom (coreDom c)).ccap

/-- The transfer EQRES needs (R234). -/
def State.eqresWant (s : State) (key a : Nat) : Nat := min a (s.coreCcap (keyCore key) - 1)

end Sys2Proof.Machine
end

