-- ==== Sys2Proof/Machine/Tokens.lean ====
section
/-! DEFINITION. The storage behind a place (R262, R270), poison (R331), and the tokens a party needs to read or write a
line (R322 to R326). Lines are named by number: address / 128. -/
namespace Sys2Proof.Machine

/-- Size of device memory, and of the basin address space (R262, R270). -/
def dramTop : Nat := 0xC000000000
def basinTop : Nat := 0x8000000

/-- Basin size of slice `i` in 512 KiB (R269). -/
def State.bsizeOf (s : State) (i : Nat) : Nat := s.bsize.get (if i = 0 then 1 else 0) i

/-- A size change holds the slice's basin (R269). -/
def State.basinBusy (s : State) (pa : Nat) : Bool := (s.bnext.get none (pa / 2 ^ 21)).isSome

/-- Bytes of a target of the package: device memory, basin store or host memory. -/
def State.peek (s : State) (tgt pa n : Nat) : List Byte :=
  match tgt with
  | 0 => memRead s.dram pa n
  | 1 => memRead s.basin pa n
  | _ => memRead s.hostMem pa n

def State.poke (s : State) (tgt pa : Nat) (bs : List Byte) : State :=
  match tgt with
  | 0 => { s with dram := memWrite s.dram pa bs }
  | 1 => { s with basin := memWrite s.basin pa bs }
  | _ => { s with hostMem := memWrite s.hostMem pa bs }

/-- The home controller of a line (R266), the base die it lies on, 0 to 3, and where its block lies on its stack. -/
def homeCtl (line : Nat) : Nat := line / 32 % 12
def homeBd (line : Nat) : Nat := homeCtl line / 3
def stackOffset (a : Nat) : Nat := a / 4096 / 12 * 4096 + a % 4096
/-- The base die of a holder: 0 to 3 are the towers' slices, 4 is the home. -/
def holderBd (line h : Nat) : Nat := if h < 4 then h else homeBd line
def bdDie (b : Nat) : Nat := 2 + b

/-- The slice of tower `t` for an address (R267). -/
def sliceOf (t line : Nat) : Nat := 16 * t + (line % 16 ^^^ line / 16 % 16)

def LineState.holder (l : LineState) (h : Nat) : Holder := l.hs.getD h {}
def State.holder (s : State) (line h : Nat) : Holder := (s.line line).holder h
def State.setHolder (s : State) (line h : Nat) (x : Holder) : State :=
  s.setLine line { s.line line with hs := setNth (s.line line).hs h x }

/-- A holder may read, and write, the line (R323), which is not lent (R332). -/
def State.canRead (s : State) (line h : Nat) : Bool :=
  (s.line line).lent == 0 && decide (1 ≤ (s.holder line h).cnt) && (s.holder line h).val
def State.canWrite (s : State) (line h : Nat) : Bool :=
  (s.line line).lent == 0 && (s.holder line h).cnt == 64 && (s.holder line h).val

/-- Lines of 128 bytes that a slice of 8 MiB has room for beside its basin (R267, R269). -/
def State.sliceRoom (s : State) (i : Nat) : Nat := 65536 - 4096 * s.bsizeOf i

/-- The lines of which a slice holds tokens. -/
def State.sliceLines (s : State) (i : Nat) : List Nat :=
  (s.coh.lines.filter (fun p => sliceOf (i / 16) p.1 == i && (p.2.holder (i / 16)).cnt != 0)).map (·.1)

/-! ## Poison (R331) -/

/-- Bits of the halves of a line that `n` bytes from `pa` on touch. -/
def halfBits (pa n : Nat) : BitVec 2 :=
  BitVec.ofNat 2 ((if pa % 128 < 64 then 1 else 0) + (if 64 < pa % 128 + n then 2 else 0))

/-- A read of these bytes meets a poisoned half (R281, R331): of the copy that holder `h` has of the line, or of the
basin. -/
def State.poisoned (s : State) (h tgt pa n : Nat) : Bool :=
  match tgt with
  | 0 => ((s.holder (pa / 128) h).psn &&& halfBits pa n) != 0
  | 1 => !s.coh.bpoison.isEmpty && (List.range (ceilDiv (pa % 64 + n) 64)).any (fun i => s.coh.bpoison.contains (pa / 64 + i))
  | _ => false

/-- Bits of the halves of a line whose every byte is written. -/
def wholeHalves (line : Nat) (written : Nat → Bool) : BitVec 2 :=
  let whole := fun (h : Nat) => (List.range 64).all (fun i => written (128 * line + 64 * h + i))
  BitVec.ofNat 2 ((if whole 0 then 1 else 0) + (if whole 1 then 2 else 0))

/-- A line operation of holder `h`, or of a basin slice, that writes the bytes `written` accepts: the halves it writes
whole are no longer poisoned. -/
def State.clearPoison (s : State) (h tgt pa : Nat) (written : Nat → Bool) : State :=
  match tgt with
  | 0 =>
    let line := pa / 128
    let x := s.holder line h
    if x.psn = 0 then s else s.setHolder line h { x with psn := x.psn &&& ~~~(wholeHalves line written) }
  | 1 => { s with coh := { s.coh with bpoison := s.coh.bpoison.filter (fun h => !(List.range 64).all (fun i => written (64 * h + i))) } }
  | _ => s

/-- An uncorrectable error is found in half `half` of what holder `h` holds of a line, or, for `h` 5, in half `half` of
the basin store (R331). -/
def State.upset (s : State) (h half : Nat) : State :=
  if h = 5 then
    if half < basinTop / 64 && !s.coh.bpoison.contains half then { s with coh := { s.coh with bpoison := half :: s.coh.bpoison } } else s
  else
    let line := half / 2
    let x := s.holder line h
    if h < 5 && decide (half < dramTop / 64) && x.val then s.setHolder line h { x with psn := x.psn ||| BitVec.ofNat 2 (1 + half % 2) }
    else s

/-! ## Messages -/

/-- A relay die that is ACTIVE, the FED before the IOD (R330). -/
def State.relayDie (s : State) : Nat := if (s.die 0).st = .active then 0 else 1

/-- The relay of a message can deliver it: a die that is not ACTIVE delivers none (R330). -/
def State.relayOpen (s : State) (m : CohMsg) : Bool :=
  match m.relay with
  | none => true
  | some r => (s.die r).st == .active

/-- Sends a message from base die `a` to base die `b`: over a relay, numbered and kept until it is
acknowledged, where they differ (R330). -/
def State.sendMsg (s : State) (a b : Nat) (m : CohMsg) : State :=
  let c := s.coh
  if a = b then { s with coh := { c with msgs := c.msgs ++ [m] } }
  else
    let key := 4 * a + b
    let n := c.numOut.get 0 key
    let m := { m with relay := some s.relayDie, num := n }
    { s with coh := { c with
        msgs := c.msgs ++ [m], resend := c.resend ++ [m], numOut := c.numOut.set key ((n + 1) % 2 ^ 32) } }

/-- The base dies between which a message goes: tables name theirs directly. -/
def CohMsg.ends (m : CohMsg) : Nat × Nat :=
  match m.kind with
  | .pact | .pdeact => (homeBd m.line, m.dst)
  | .pack => (m.src, homeBd m.line)
  | _ => (holderBd m.line m.src, holderBd m.line m.dst)

def State.post (s : State) (m : CohMsg) : State := s.sendMsg m.ends.1 m.ends.2 m

/-- The same message, whichever relay carries it. -/
def CohMsg.same (a b : CohMsg) : Bool := a == { b with relay := a.relay }

/-- Takes message `i`, if it is of the kind and its relay delivers it: the message, unless its number was accepted
before (R330), and the state without it. -/
def State.takeMsg (s : State) (i : Nat) (kind : CohKind) : Option (CohMsg × Bool × State) :=
  match s.coh.msgs[i]? with
  | none => none
  | some m =>
    if m.kind != kind || !s.relayOpen m then none
    else
      let c := s.coh
      let s1 := { s with coh := { c with msgs := dropNth c.msgs i } }
      if m.relay.isNone then some (m, true, s1)
      else
        let key := 4 * m.ends.1 + m.ends.2
        let seen := c.numIn.get [] key
        if seen.contains m.num then some (m, false, s1)
        else some (m, true, { s1 with coh := { s1.coh with
          numIn := c.numIn.set key (m.num :: seen), resend := c.resend.filter (fun x => !m.same x) } })

/-- The persistent entry for a line in a base die's table, if any (R327). -/
def State.persFor (s : State) (b line : Nat) : Option PersReq :=
  ((List.range 60).findSome? (fun e => match s.coh.ptab.get none (64 * b + e) with
    | some p => if p.line = line then some p else none
    | none => none))

/-- Holder `h` sends `n` tokens, the owner token among them or not, to `dst` (R325, R329). Poison travels with the
data; DRAM keeps that of its own copy (R331). -/
def State.sendTokens (s : State) (line h dst n : Nat) (own data : Bool) : State :=
  let x := s.holder line h
  let left := x.cnt - n
  let y : Holder := { cnt := left, own := x.own && !own, val := x.val && left != 0, dirty := x.dirty && !own
                      psn := if left = 0 ∧ h < 4 then 0 else x.psn }
  (s.setHolder line h y).post
    { kind := .tok, line := line, src := h, dst := dst, cnt := n, own := own, dirty := x.dirty && own
      psn := if data || own then x.psn else 0, data := data || own }

/-- Holder `h` sends all its tokens to `dst`. -/
def State.sendAll (s : State) (line h dst : Nat) : State :=
  let x := s.holder line h
  if x.cnt = 0 ∨ h = dst then s else s.sendTokens line h dst x.cnt x.own false

/-- A holder on a base die whose table names another requester gives everything up (R327); the home of
a lent line asks the host for it first (R333). -/
def State.yieldTokens (s : State) (line h : Nat) : State :=
  match s.persFor (holderBd line h) line with
  | none => s
  | some p =>
    if p.req = h then s
    else if h = 4 && (s.line line).lent != 0 then
      if s.coh.snoops.contains line then s else { s with coh := { s.coh with snoops := line :: s.coh.snoops } }
    else s.sendAll line h p.req

/-! ## Requests -/

/-- Sends a transient request to the line's other holders (R325). -/
def State.sendTreq (s : State) (line h : Nat) (write : Bool) : State :=
  ([0, 1, 2, 3, 4].filter (· != h)).foldl (fun s d =>
    s.post { kind := if write then .treqx else .treqs, line := line, src := h, dst := d, req := h, write := write }) s

/-- Holder `h` wants the line: one request for it is outstanding at a time, and a slice has at most 32
(R327). -/
def State.wantLine (s : State) (line h : Nat) (write : Bool) : State :=
  let mine := s.coh.trans.filter (fun t => t.holder == h)
  let full := decide (h < 4) && decide (32 ≤ (mine.filter (fun t => sliceOf h t.line == sliceOf h line)).length)
  match mine.find? (fun t => t.line == line) with
  | some t =>
    if t.write || !write || t.pers then s
    else
      let up : TransReq := { t with write := true, fails := 0, since := s.now (bdDie (holderBd line h)) }
      let s := { s with coh := { s.coh with trans := s.coh.trans.map (fun u => if u == t then up else u) } }
      s.sendTreq line h true
  | none =>
    if full then s
    else
      let t : TransReq := { line := line, holder := h, write := write, since := s.now (bdDie (holderBd line h)) }
      ({ s with coh := { s.coh with trans := s.coh.trans ++ [t] } }).sendTreq line h write

def State.satisfied (s : State) (t : TransReq) : Bool :=
  if t.write then s.canWrite t.line t.holder else s.canRead t.line t.holder

/-- A satisfied transient request is over; a persistent one stays until its deactivation. -/
def State.settleReqs (s : State) (line h : Nat) : State :=
  if s.coh.trans.isEmpty then s
  else { s with coh := { s.coh with trans := s.coh.trans.filter (fun t =>
    !(t.line == line && t.holder == h && !t.pers && s.satisfied t)) } }

/-- The requester's persistent request is over: it sends PDONE once for the active entry that names it (R327). -/
def State.sendPdone (s : State) (line h : Nat) (p : PersReq) : State :=
  let e := p.entry.getD 0
  let key := 64 * holderBd line h + e
  ({ s with coh := { s.coh with ptab := s.coh.ptab.set key (some { p with closing := true }) } }).post
    { kind := .pdone, line := line, src := h, dst := 4, entry := e }

/-- A store to a line is visible at pkg: the device reads again the fence objects that lie there (R79), and Confluence the signal
words (R387). -/
def State.storeSeen (s : State) (line : Nat) : State :=
  let s := if s.fab.colls.isEmpty then s
    else { s with fab := { s.fab with colls := s.fab.colls.map (fun c => if c.watch = some line then { c with reread := true } else c) } }
  if s.queues.isEmpty then s
  else
    let due := (s.queues.map (fun p => (p.2.head.map (fun h => (h.watch.filter (·.2 == line)).map (fun w => Instr.fenceObjectRead p.1 w.1))).getD [])).flatten
    { s with agenda := s.agenda ++ due.filter (fun e => !s.agenda.contains e) }

/-- A holder has performed a line operation: a write sets DIRTY (R323). A requester whose persistent request it
satisfies sends PDONE, or, where the entry is not active yet, will once it is (R327). -/
def State.lineDone (s : State) (line h : Nat) (write : Bool) : State :=
  let s := if write then (s.setHolder line h { s.holder line h with dirty := true }).storeSeen line else s
  if s.coh.trans.isEmpty then s
  else match s.coh.trans.find? (fun t => t.line == line && t.holder == h && t.pers) with
    | none => s
    | some t =>
      match s.persFor (holderBd line h) line with
      | some p => if p.req = h && s.satisfied t && !p.closing then s.sendPdone line h p else s
      | none =>
        if s.satisfied t then
          { s with coh := { s.coh with trans := s.coh.trans.map (fun u => if u == t then { u with served := true } else u) } }
        else s

/-! ## What the device itself reads and writes in device memory: at the home of each line. DESIGN CHOICE: log entry 132. -/

/-- The lines that hold some of `n` bytes from `pa` on and have left their state at reset. -/
def State.linesAt (s : State) (pa n : Nat) : List Nat :=
  (s.coh.lines.filter (fun p => decide (0 < n) && decide (pa / 128 ≤ p.1) && decide (128 * p.1 < pa + n))).map (·.1)

/-- The home of a line may read, or write, it. -/
def State.homeMay (s : State) (write : Bool) (line : Nat) : Bool := if write then s.canWrite line 4 else s.canRead line 4

/-- The homes may read, or write, these bytes. -/
def State.homeOpen (s : State) (pa n : Nat) (write : Bool) : Bool := (s.linesAt pa n).all (s.homeMay write)

/-- The homes ask for the tokens that they lack; a lent line is asked back (R333). -/
def State.homeAsk (s : State) (pa n : Nat) (write : Bool) : State :=
  ((s.linesAt pa n).filter (fun l => !s.homeMay write l)).foldl (fun s l =>
    if (s.line l).lent = 0 then s.wantLine l 4 write
    else if s.coh.snoops.contains l then s else { s with coh := { s.coh with snoops := l :: s.coh.snoops } }) s

/-- The homes have written the bytes `bs`, which they may (R323, R331). -/
def State.homePut (s : State) (pa : Nat) (bs : List Byte) : State :=
  let written := fun (a : Nat) => decide (pa ≤ a) && decide (a < pa + bs.length)
  let s := { s with dram := memWrite s.dram pa bs }
  let s := (s.linesAt pa bs.length).foldl (fun s l => (s.clearPoison 4 0 (128 * l) written).lineDone l 4 true) s
  let watched := ((s.queues.map (fun p => (p.2.head.map (fun h => h.watch.map (·.2))).getD [])).flatten ++
    s.fab.colls.filterMap (·.watch)).eraseDups
  (watched.filter (fun l => decide (0 < bs.length) && decide (pa / 128 ≤ l) && decide (128 * l < pa + bs.length))).foldl State.storeSeen s

end Sys2Proof.Machine
end

