-- ==== Sys2Proof/Machine/Translate.lean ====
section
/-! DEFINITION. Translation (R258 to R265): the walk, the checks at the leaf, and the TLBs. -/
namespace Sys2Proof.Machine

/-- What an access asks of a leaf. -/
inductive Acc where
  | read | write | atomic | fetch
  deriving DecidableEq, Repr

/-- The result of a translation: the target, the peer, and the address there (with SPACE in bit 40 of
a peer's). -/
structure Place where
  tgt : Nat := 0
  peer : Nat := 0
  pa : Nat := 0
  deriving DecidableEq, Repr, Inhabited

/-- The size by which an access to the basin of slice `i` is judged (R269, R270): while it grows, that to which it grows,
since the access waits for the change. -/
def State.bsizeSoon (s : State) (i : Nat) : Nat := max (s.bsizeOf i) ((s.bnext.get none i).getD 0)

/-- A basin address lies within its slice's basin, and a firmware address is used by an agent (R270). -/
def State.basinOk (s : State) (priv : Bool) (b : Nat) : Bool :=
  decide (b < basinTop) && decide (b % 2 ^ 21 < s.bsizeSoon (b / 2 ^ 21) * 0x80000) && (priv || decide (0x10000 ≤ b))

/-- Bytes mapped by an entry of level `l` (Table 12-1). -/
def pageSize : Nat → Nat
  | 0 => 2 ^ 16
  | 1 => 2 ^ 21
  | 2 => 2 ^ 30
  | 3 => 2 ^ 39
  | _ => 2 ^ 48

/-- Index of level `l` in a virtual address (Table 12-1). -/
def levelIndex (l va : Nat) : Nat := va / pageSize l % (if l = 0 then 32 else 512)

/-- An entry that breaks R261 (code 0x4). -/
def malformed (l e : Nat) : Bool :=
  let leaf := bitOf 1 e
  let tgt := bitsOf 49 48 e
  let addrh := bitsOf 47 40 e
  let addr := bitsOf 39 8 e * 256
  bitsOf 63 56 e != 0 || bitsOf 7 4 e != 0 ||
  (if leaf then
    decide (3 ≤ l) || (addr + (if tgt = 3 then addrh * 2 ^ 40 else 0)) % pageSize l != 0 ||
    (decide (tgt < 2) && addrh != 0) || (tgt == 2 && bitsOf 47 41 e != 0) ||
    (tgt == 0 && decide (dramTop ≤ addr)) || (tgt == 1 && l == 2)
  else
    l == 0 || bitsOf 55 48 e != 0 || addrh != 0 || bitsOf 3 2 e != 0 || (l != 1 && addr % 4096 != 0))

/-- The leaf an entry holds. -/
def leafOf (e : Nat) : Leaf :=
  let tgt := bitsOf 49 48 e
  { tgt := tgt
    peer := if tgt = 2 then bitsOf 55 50 e else 0
    addr := bitsOf 39 8 e * 256 + (if tgt = 3 then bitsOf 47 40 e * 2 ^ 40 else 0)
    space := tgt == 2 && bitOf 40 e
    w := bitOf 2 e
    x := bitOf 3 e }

/-- Not a cause of Table 12-2: the data themselves are poisoned (R281); the party must wait, and nothing has happened;
a peer could not be reached (R380). -/
def poisonCode : Nat := 0x10
def waitCode : Nat := 0x11
def lostCode : Nat := 0x12

/-- Entries a page-walk cache holds. PRESUMED: log entry 101. -/
def pwcSize : Nat := 512

/-- The page-walk cache takes the table of level `l` that serves `va`. -/
def State.pwcFill (s : State) (ctx root l va table : Nat) : State :=
  let e : PwcEntry := { ctx := ctx, root := root, level := l, base := va - va % pageSize (l + 1), table := table }
  if s.walker.pwc.contains e then s
  else
    let old := s.walker.pwc.filter (fun x => !(x.ctx == ctx && x.root == root && x.level == l && x.base == e.base))
    if old.length < pwcSize then { s with walker := { s.walker with pwc := e :: old } }
    else { s with walker := { s.walker with pwc := e :: dropNth old (s.freeVal % pwcSize) } }.useFree

/-- Where a walk begins: at the lowest table that the page-walk cache has for the page, else at the root. -/
def State.walkStart (s : State) (ctx root va : Nat) : Nat × Nat :=
  let at_ := fun (l : Nat) => s.walker.pwc.find? (fun e =>
    e.ctx == ctx && e.root == root && e.level == l && e.base == va - va % pageSize (l + 1))
  match (List.range 4).findSome? at_ with
  | some e => (e.level, e.table)
  | none => (4, root)

/-- The walk from a table of level `l` (R259, R263): a leaf and its page size, or a fault cause, or `waitCode` where the
home-tower slice of the next entry lacks its token, which it then asks for. Each entry is read as a coherent read
(R265, R267). -/
def State.walkFrom (s : State) (ctx root va : Nat) : Nat → Nat → Except Nat (Leaf × Nat) × State
  | l, table =>
    let at_ := table + 8 * levelIndex l va
    let line := at_ / 128
    let h := homeBd line
    if !s.canRead line h then (.error waitCode, s.wantLine line h false)
    else
      let e := memNat s.dram at_ 8
      let psn := s.poisoned h 0 at_ 8
      let s := s.lineDone line h false
      if psn then (.error 7, s)
      else if !bitOf 0 e then (.error 0, s)
      else if malformed l e then (.error 4, s)
      else if bitOf 1 e then (.ok (leafOf e, pageSize l), s)
      else match l with
        | 0 => (.error 4, s)
        | n + 1 => (s.pwcFill ctx root n va (bitsOf 39 8 e * 256)).walkFrom ctx root va n (bitsOf 39 8 e * 256)

/-- The links of a die carry every channel (R100): it is ACTIVE, or still draining. -/
def State.carries (s : State) (d : Nat) : Bool := (s.die d).st == .active || (s.die d).st == .draining

/-- A core's traffic reaches its base die (R99, R100): that of an upper die goes over the lower one, whose links must carry it. -/
def State.reaches (s : State) (c : Nat) : Bool := !isCompute (coreDie c) || dieLayer (coreDie c) == 0 || s.carries (otherLayer (coreDie c))

/-- The walk of a context (R260, R263): its TLB entry, or a fault cause. The walker is on the IOD; while its links carry
nothing of it, the walk is still to come (R107, R264). -/
def State.walk (s : State) (ctx va : Nat) : Except Nat TlbEntry × State :=
  if 2 ^ 57 ≤ va then (.error 3, s)
  else if !s.carries 1 then (.error waitCode, s)
  else
    let root := s.roots.get (0, false) ctx
    if !root.2 then (.error 0, s)
    else
      let b := s.walkStart ctx root.1 va
      match s.walkFrom ctx root.1 va b.1 b.2 with
      | (.error c, s) => (.error c, s)
      | (.ok (leaf, size), s) => (.ok { ctx := ctx, base := va - va % size, size := size, leaf := leaf }, s)

/-- The checks at the leaf, in the order of R263: codes 0x2, 0x1, 0x6, 0x5. -/
def State.leafCheck (s : State) (l : Leaf) (off : Nat) (acc : Acc) (priv : Bool) : Option Nat :=
  if acc = .fetch && (!l.x || l.tgt != 0) then some 2
  else if (acc = .write || acc = .atomic) && !l.w then some 1
  else if l.tgt = 3 && acc = .atomic then some 6
  else if l.tgt = 2 && (l.peer == s.fab.devno || !(s.peer l.peer).sess) then some 6
  else if l.tgt = 1 && !s.basinOk priv (l.addr + off) then some 5
  else none

def TlbEntry.covers (e : TlbEntry) (ctx va : Nat) : Bool :=
  e.ctx == ctx && decide (e.base ≤ va) && decide (va < e.base + e.size)

/-- A full TLB gives up an entry of the device's choice. -/
def State.tlbFill (s : State) (cap : Nat) (t : List TlbEntry) (e : TlbEntry) : List TlbEntry × State :=
  if t.length < cap then (e :: t, s) else (e :: dropNth t (s.freeVal % cap), s.useFree)

/-- Whose TLBs an access uses (R264): a rill's core and tower, an engine's tower, or none. -/
inductive Via where
  | core (c : Nat)
  | engine (c : Nat)
  | direct
  deriving DecidableEq, Repr

def coreTower (c : Nat) : Nat := dieTower (coreDie c)

/-- The code of a party's TLBs in a walk (Walk.who). -/
def Via.code : Via → Nat
  | .core c => c
  | .engine c => 1000 + coreTower c
  | .direct => 2000

/-- Fills the TLBs of one party that missed: its core's, and its tower's (R264). -/
def State.fillFor (s : State) (e : TlbEntry) (who : Nat) : State :=
  if 2000 ≤ who then s
  else
    let t := if who < 1000 then coreTower who else who - 1000
    let old := s.towerTlb.get [] t
    let r := if old.contains e then (old, s) else s.tlbFill 4096 old e
    let s : State := { r.2 with towerTlb := r.2.towerTlb.set t r.1 }
    if 1000 ≤ who ∨ (s.core who).tlb.contains e then s
    else
      let r := s.tlbFill 64 (s.core who).tlb e
      r.2.modCore who (fun x => { x with tlb := r.1 })

/-- Walks in flight at once (R264). -/
def walkLimit : Nat := 512

/-- Walks leave those in flight that `done` accepts; queued ones take their places in order of arrival (R264). -/
def Walker.advance (w : Walker) (done : Walk → Bool) : Walker :=
  let fl := w.flight.filter (fun x => !done x)
  let q := w.queue.filter (fun x => !done x)
  { w with flight := fl ++ q.take (walkLimit - fl.length), queue := q.drop (walkLimit - fl.length) }

/-- A walk has found a leaf: every TLB that missed for it is filled from this walk (R264, Table 12-4). -/
def State.walkFound (s : State) (e : TlbEntry) (who : Nat) : State :=
  let mine := fun (w : Walk) => e.covers w.ctx w.va
  let others := (((s.walker.flight ++ s.walker.queue).filter mine).map (·.who)).flatten.eraseDups
  let s := { s with walker := s.walker.advance mine }
  (others.filter (· != who)).foldl (fun s w => s.fillFor e w) (s.fillFor e who)

/-- Bytes of the page whose leaf, or whose fault, the tables give for `va` below a table of level `l` as they stand. -/
def State.leafSpan (s : State) (va : Nat) : Nat → Nat → Nat
  | 0, _ => pageSize 0
  | l + 1, table =>
    let e := memNat s.dram (table + 8 * levelIndex (l + 1) va) 8
    if !bitOf 0 e || malformed (l + 1) e || bitOf 1 e then pageSize (l + 1) else s.leafSpan va l (bitsOf 39 8 e * 256)

/-- The walk goes to the same leaf as that of `va` in context `ctx` (R264). -/
def State.sameLeaf (s : State) (ctx va : Nat) (w : Walk) : Bool :=
  let span := s.leafSpan va 4 (s.roots.get (0, false) ctx).1
  w.ctx == ctx && decide (w.va / span = va / span)

/-- A miss joins the walk that is in flight or queued for its leaf, or starts one, or waits behind 512 (R264). -/
def State.walkMiss (s : State) (ctx va who : Nat) : State :=
  let mine := s.sameLeaf ctx va
  let join := fun (w : Walk) => if mine w && !w.who.contains who then { w with who := w.who ++ [who] } else w
  let w := s.walker
  let new : Walk := { ctx := ctx, va := va, who := [who] }
  if (w.flight ++ w.queue).any mine then
    { s with walker := { w with flight := w.flight.map join, queue := w.queue.map join } }
  else if w.flight.length < walkLimit then { s with walker := { w with flight := w.flight ++ [new] } }
  else { s with walker := { w with queue := w.queue ++ [new] } }

/-- A miss in the TLBs (R264): the walk, where it can run through at once; else it is in flight, and the party waits. A
failed walk fills no TLB (R265). -/
def State.miss (s : State) (ctx va who : Nat) : Except Nat TlbEntry × State :=
  let w := s.walker
  if w.flight.any (s.sameLeaf ctx va) || decide (w.flight.length < walkLimit) then
    match s.walk ctx va with
    | (.ok e, s) => (.ok e, s.walkFound e who)
    | (.error c, s) => (.error c, if c = waitCode then s.walkMiss ctx va who else s)
  else (.error waitCode, s.walkMiss ctx va who)

/-- The party reaches the tower's TLB and the slices. -/
def State.viaUp (s : State) : Via → Bool
  | .core c | .engine c => s.reaches c
  | .direct => true

/-- Looks a page up in the TLBs of a party (R264). -/
def State.lookup (s : State) (via : Via) (ctx va : Nat) : Except Nat TlbEntry × State :=
  let inCore := match via with
    | .core c => (s.core c).tlb.find? (·.covers ctx va)
    | _ => none
  let inTower := match via with
    | .core c | .engine c => (s.towerTlb.get [] (coreTower c)).find? (·.covers ctx va)
    | .direct => none
  let up := s.viaUp via
  match inCore, inTower with
  | some e, _ => (.ok e, s)
  | none, some e => if up then (.ok e, s.fillFor e via.code) else (.error waitCode, s)
  | none, none => if up then s.miss ctx va via.code else (.error waitCode, s)

/-- The party's TLBs lose what they hold for an address: an access that faulted walks again (R265). -/
def State.forget (s : State) (via : Via) (ctx va : Nat) : State :=
  let drop := fun (l : List TlbEntry) => l.filter (fun e => !e.covers ctx va)
  let tower := fun (s : State) (t : Nat) => { s with towerTlb := s.towerTlb.set t (drop (s.towerTlb.get [] t)) }
  match via with
  | .core c => tower (s.modCore c (fun x => { x with tlb := drop x.tlb })) (coreTower c)
  | .engine c => tower s (coreTower c)
  | .direct => s

/-- Translation of one access (R259 to R263): its place, or a fault cause. No TLB keeps a translation that failed
(R265). -/
def State.translate (s : State) (via : Via) (ctx va : Nat) (acc : Acc) (priv : Bool) : Except Nat Place × State :=
  if 2 ^ 57 ≤ va then (.error 3, s)
  else match s.lookup via ctx va with
    | (.error x, s) => (.error x, s)
    | (.ok e, s) =>
      let off := va - e.base
      match s.leafCheck e.leaf off acc priv with
      | some x => (.error x, s.forget via ctx va)
      | none => (.ok { tgt := e.leaf.tgt, peer := e.leaf.peer
                       pa := e.leaf.addr + off + (if e.leaf.space then 2 ^ 40 else 0) }, s)

/-- PAGE_WALK (R264): the walker goes on with the walk in flight for a page; where none is, it walks for a core and
refreshes its TLBs. A walk that fails fills none and is over: whoever missed meets the fault at its retry (R265). -/
def execPageWalk (core ctx : Nat) (va : DWord) (s : State) : Res :=
  let a := va.toNat
  let mine := s.sameLeaf ctx a
  let drop := fun (l : List TlbEntry) => l.filter (fun e => !e.covers ctx a)
  match s.walker.flight.find? mine, s.walk ctx a with
  | _, (.ok e, s) =>
    let t := coreTower core
    let s := s.modCore core (fun x => { x with tlb := drop x.tlb })
    let s := { s with towerTlb := s.towerTlb.set t (drop (s.towerTlb.get [] t)) }
    .next (s.walkFound e core)
  | some _, (.error c, s) => .next (if c = waitCode then s else { s with walker := s.walker.advance mine })
  | none, (.error _, s) => .next s

/-- The 64-bit words of a list of bytes. -/
def words64 (bs : List Byte) : List Nat :=
  (List.range (bs.length / 8)).map (fun i => ofBytes ((bs.drop (8 * i)).take 8))

end Sys2Proof.Machine
end

