-- ==== Sys2Proof/Machine/Coherence.lean ====
section
/-! DEFINITION. The messages of token counting (R324 to R330), the persistent requests, and lines lent to the host
(R332 to R335). -/
namespace Sys2Proof.Machine

/-- A home with an idle entry activates its oldest request whose line is not active (R327). -/
def State.activate (s : State) (home : Nat) : State :=
  let q := s.coh.pers.get [] home
  let used := q.filterMap (·.entry)
  match (List.range 5).find? (fun j => !used.contains (5 * home + j)),
        q.find? (fun p => p.entry.isNone && !q.any (fun o => o.line == p.line && o.entry.isSome)) with
  | some j, some p =>
    let e := 5 * home + j
    let q := q.map (fun o => if o == p then { o with entry := some e, acks := 0 } else o)
    let s := { s with coh := { s.coh with pers := s.coh.pers.set home q } }
    [0, 1, 2, 3].foldl (fun s d => s.post
      { kind := .pact, line := p.line, src := 4, dst := d, req := p.req, write := p.write, entry := e }) s
  | _, _ => s

/-! ## The events of Table 14-6 -/

/-- What a holder answers to a transient request from the state it holds (R325): nothing while a persistent entry for
the line is active (R327). -/
def State.answerReq (s : State) (m : CohMsg) : State :=
  let x := s.holder m.line m.dst
  if (s.persFor (holderBd m.line m.dst) m.line).isSome then s
  else if m.kind = .treqx then s.sendAll m.line m.dst m.req
  else if !x.own then s
  else if 2 ≤ x.cnt then s.sendTokens m.line m.dst m.req 1 false true
  else s.sendTokens m.line m.dst m.req 1 true true

/-- The home asks the host for a lent line, unless it has (R333). -/
def State.snoop (s : State) (line : Nat) : State :=
  if s.coh.snoops.contains line then s else { s with coh := { s.coh with snoops := line :: s.coh.snoops } }

/-- A transient request at a holder (R325). A lent line is asked back first; the request waits at the home (R333). -/
def State.answer (s : State) (i : Nat) (kind : CohKind) : State :=
  match s.takeMsg i kind with
  | none => s
  | some (_, false, s1) => s1
  | some (m, true, s1) =>
    if m.dst = 4 && (s.line m.line).lent != 0 then
      { s1 with coh := { s1.coh with asked := s1.coh.asked ++ [m] } }.snoop m.line
    else s1.answerReq m

def execTreqs (i : Nat) (s : State) : Res := .next (s.answer i .treqs)
def execTreqx (i : Nat) (s : State) : Res := .next (s.answer i .treqx)

/-- What a receiver holds after a TOK (R323, R329). A receiver takes the poison that comes with data; that of a copy
it had stays, but where dirty data replace what DRAM holds. -/
def Holder.take (x : Holder) (h : Nat) (m : CohMsg) : Holder :=
  { cnt := x.cnt + m.cnt, own := x.own || m.own, val := x.val || m.data, dirty := x.dirty || m.dirty
    psn := if !m.data then x.psn else if h = 4 ∧ m.dirty then m.psn else x.psn ||| m.psn }

/-- A slice gives up a line of its choice other than `line`, where it holds more lines than it has room for (R328). -/
def State.makeRoom (s : State) (i line : Nat) : State :=
  let ls := (s.sliceLines i).filter (· != line)
  if ls.length < s.sliceRoom i then s
  else
    let v := ls.getD (s.freeVal % ls.length) 0
    s.useFree.sendAll v (i / 16) (match s.persFor (i / 16) v with
      | some p => p.req
      | none => 4)

/-- TOK (R329, R327): the receiver adds the tokens, whether or not it waits, and passes them on where a persistent entry
names another requester. At a slice that holds nothing of the line and has no room, the tokens it wants displace another
line, and others go to the home (R328). -/
def execTok (i : Nat) (s : State) : Res :=
  match s.takeMsg i .tok with
  | none => .next s
  | some (_, false, s) => .next s
  | some (m, true, s) =>
    let x := s.holder m.line m.dst
    let new := decide (m.dst < 4) && x.cnt == 0
    let wanted := s.coh.trans.any (fun t => t.line == m.line && t.holder == m.dst)
    let sl := sliceOf m.dst m.line
    let full := new && decide (s.sliceRoom sl ≤ (s.sliceLines sl).length)
    let s := s.setHolder m.line m.dst (x.take m.dst m)
    let s := if full && wanted then s.makeRoom sl m.line else s
    let s := s.yieldTokens m.line m.dst
    .next (if full && !wanted then s.sendAll m.line m.dst 4 else s.settleReqs m.line m.dst)

/-- TRANSIENT_REQUEST_TIMEOUT (R326): 1 µs after it was sent an unsatisfied request is sent again, and
at its third failure becomes persistent. A persistent request that is satisfied and for which no party comes sends
PDONE: the slice holds the line, and its fill counts as the line operation. DESIGN CHOICE: log entry 100. -/
def execTransientRequestTimeout (line holder : Nat) (s : State) : Res :=
  match s.coh.trans.find? (fun t => t.line == line && t.holder == holder) with
  | none => .next s
  | some t =>
    let now := s.now (bdDie (holderBd line holder))
    if now < t.since + 1000 then .next s
    else if t.pers then
      .next (match s.persFor (holderBd line holder) line with
        | some p => if p.req = holder && s.satisfied t && !p.closing then s.sendPdone line holder p else s
        | none => s)
    else if s.satisfied t then .next (s.settleReqs line holder)
    else
      let fails := t.fails + 1
      let u := { t with fails := fails, pers := decide (3 ≤ fails), since := now }
      let s := { s with coh := { s.coh with trans := s.coh.trans.map (fun v => if v == t then u else v) } }
      .next (if u.pers then s.post { kind := .preq, line := line, src := holder, dst := 4, req := holder, write := t.write }
             else s.sendTreq line holder t.write)

/-- PREQ (R327): the home queues it. -/
def execPreq (i : Nat) (s : State) : Res :=
  match s.takeMsg i .preq with
  | none => .next s
  | some (_, false, s) => .next s
  | some (m, true, s) =>
    let h := homeCtl m.line
    let p : PersReq := { line := m.line, req := m.req, write := m.write }
    let s := { s with coh := { s.coh with pers := s.coh.pers.set h (s.coh.pers.get [] h ++ [p]) } }
    .next (s.activate h)

/-- PACT (R327): the table of a base die takes the entry, acknowledges it, and the line's holders on that
die send their tokens to the requester. A requester on that die whose line operation is over already is done. -/
def execPact (i : Nat) (s : State) : Res :=
  match s.takeMsg i .pact with
  | none => .next s
  | some (_, false, s) => .next s
  | some (m, true, s) =>
    let p : PersReq := { line := m.line, req := m.req, write := m.write, entry := some m.entry }
    let s := { s with coh := { s.coh with ptab := s.coh.ptab.set (64 * m.dst + m.entry) (some p) } }
    let s := s.post { kind := .pack, line := m.line, src := m.dst, dst := 4, entry := m.entry, act := true }
    let s := s.yieldTokens m.line m.dst
    let s := if homeBd m.line = m.dst then s.yieldTokens m.line 4 else s
    let served := holderBd m.line m.req == m.dst &&
      !s.coh.trans.any (fun t => t.line == m.line && t.holder == m.req && t.pers && !t.served)
    .next (if served then s.sendPdone m.line m.req p else s)

/-- The home deactivates entry `e` at the four base dies (R327). -/
def State.sendPdeact (s : State) (line e : Nat) : State :=
  [0, 1, 2, 3].foldl (fun s d => s.post { kind := .pdeact, line := line, src := 4, dst := d, entry := e }) s

/-- PACK (R327): with four the entry is active, and is deactivated now if its requester is done already; with
four more it is free for the next request. -/
def execPack (i : Nat) (s : State) : Res :=
  match s.takeMsg i .pack with
  | none => .next s
  | some (_, false, s) => .next s
  | some (m, true, s) =>
    let h := homeCtl m.line
    let q := (s.coh.pers.get [] h).map (fun p => if p.entry = some m.entry then { p with acks := p.acks + 1 } else p)
    let mine := fun (p : PersReq) => p.entry == some m.entry
    let s := { s with coh := { s.coh with pers := s.coh.pers.set h (q.filter (fun p => !(mine p && decide (8 ≤ p.acks)))) } }
    .next (if q.any (fun p => mine p && decide (8 ≤ p.acks)) then s.activate h
      else if q.any (fun p => mine p && p.closing && p.acks == 4) then s.sendPdeact m.line m.entry
      else s)

/-- PDONE (R327): the home deactivates the entry, once it counts as active. -/
def execPdone (i : Nat) (s : State) : Res :=
  match s.takeMsg i .pdone with
  | none => .next s
  | some (_, false, s) => .next s
  | some (m, true, s) =>
    let h := homeCtl m.line
    let q := (s.coh.pers.get [] h).map (fun p => if p.entry = some m.entry then { p with closing := true } else p)
    let s := { s with coh := { s.coh with pers := s.coh.pers.set h q } }
    .next (if q.any (fun p => p.entry == some m.entry && decide (4 ≤ p.acks)) then s.sendPdeact m.line m.entry else s)

/-- PDEACT (R327): the table entry goes, and the requester may send transient requests again. -/
def execPdeact (i : Nat) (s : State) : Res :=
  match s.takeMsg i .pdeact with
  | none => .next s
  | some (_, false, s) => .next s
  | some (m, true, s) =>
    let key := 64 * m.dst + m.entry
    let old := s.coh.ptab.get none key
    let s := { s with coh := { s.coh with ptab := s.coh.ptab.set key none } }
    let s := match old with
      | some p =>
        if holderBd p.line p.req = m.dst then
          { s with coh := { s.coh with trans := s.coh.trans.filter (fun t =>
            !(t.line == p.line && t.holder == p.req && t.pers)) } }
        else s
      | none => s
    .next (s.post { kind := .pack, line := m.line, src := m.dst, dst := 4, entry := m.entry })

/-- LINE_EVICT (R328, R336): a slice gives up a line to the home, or to the requester of an active
persistent entry. A home that holds all the tokens has written dirty data to DRAM. -/
def execLineEvict (line tower : Nat) (s : State) : Res :=
  if tower < 4 then
    match s.persFor tower line with
    | some _ => .next (s.yieldTokens line tower)
    | none => .next (s.sendAll line tower 4)
  else
    let x := s.holder line 4
    .next (if x.own then s.setHolder line 4 { x with dirty := false } else s)

/-- COHERENCE_RETRANSMIT (R330): an unacknowledged message goes again through the other relay, or through the only one
that is ACTIVE. -/
def execCoherenceRetransmit (i : Nat) (s : State) : Res :=
  match s.coh.resend[i]? with
  | none => .next s
  | some m =>
    let m := { m with relay := m.relay.map (fun r =>
      if (s.die (1 - r)).st = .active ∨ (s.die r).st ≠ .active then 1 - r else r) }
    if !s.relayOpen m then .next s
    else .next { s with coh := { s.coh with msgs := s.coh.msgs ++ [m], resend := setNth s.coh.resend i m } }

/-- Messages a relay die held when it left ACTIVE are not delivered by it (R330). -/
def State.dropRelayed (s : State) (die : Nat) : State :=
  { s with coh := { s.coh with msgs := s.coh.msgs.filter (fun m => m.relay != some die) } }

/-! ## The host (R332 to R335) -/

/-- The port takes CXL.cachemem traffic: the IOD is ACTIVE, its link is trained and the streams are keyed (R97, R98). -/
def State.hostOpen (s : State) : Bool := (s.die 1).st == .active && s.boot.rate != 0 && s.boot.width != 0 && s.boot.ide

/-- A line operation on a line by holder `h`, or the request for the tokens it lacks. -/
def State.withLine (s : State) (line h : Nat) (write : Bool) (f : State → State) : State :=
  if (if write then s.canWrite line h else s.canRead line h) then (f s).lineDone line h write
  else s.wantLine line h write

/-- The data of a line, with the poison of holder `h`'s copy, are returned to the host. -/
def State.tellHost (s : State) (line h : Nat) : State :=
  { s with reply := { addr := 128 * line, data := s.peek 0 (128 * line) 128, psn := (s.holder line h).psn } }

/-- What the port answers while it is closed (R98): a CXL.mem request completes with poison. -/
def State.refuseHost (s : State) (addr : Nat) : State := { s with reply := { addr := addr, psn := 3 } }

/-- HOST_MEM_READ: kind 0 reads without caching at the home-tower slice; kinds 1 and 2 gather every token at the home and
lend the line (R332, R335). A line that the host holds shared is lent with write permission at once; one that is being
asked back waits for that. -/
def execHostMemRead (addr kind : Nat) (s : State) : Res :=
  let line := addr / 128
  let me := (line, kind)
  let drop := fun (s : State) => { s with coh := { s.coh with hostReqs := s.coh.hostReqs.filter (· != me) } }
  if dramTop ≤ addr ∨ 3 ≤ kind then .next s
  else if !s.hostOpen then .next (s.refuseHost addr)
  else
    let s := { s with coh := { s.coh with
      hostReqs := if s.coh.hostReqs.contains me then s.coh.hostReqs else s.coh.hostReqs ++ [me] } }
    let lend := fun (s : State) (n : Nat) => (s.setLine line { s.line line with lent := n }).tellHost line 4
    .next (if kind = 0 then s.withLine line (homeBd line) false (fun s => (drop s).tellHost line (homeBd line))
      else if (s.line line).lent != 0 then
        if s.coh.snoops.contains line then s else lend (drop s) (max kind (s.line line).lent)
      else if s.canWrite line 4 then lend ((drop s).lineDone line 4 false) kind
      else s.wantLine line 4 true)

/-- HOST_MEM_WRITE (R335): performed with all 64 tokens at the home-tower slice. Poison it carries marks
the halves it touches; a half it writes whole is otherwise clear (R331). -/
def execHostMemWrite (addr : Nat) (data : List Byte) (poison : Bool) (s : State) : Res :=
  let line := addr / 128
  let h := homeBd line
  if dramTop ≤ addr ∨ 128 < addr % 128 + data.length then .next s
  else if !s.hostOpen then .next (s.refuseHost addr)
  else
    .next (s.withLine line h true (fun s =>
      let s := (s.poke 0 addr data).clearPoison h 0 addr (fun a => decide (addr ≤ a) && decide (a < addr + data.length))
      if poison && !data.isEmpty then
        s.setHolder line h { s.holder line h with psn := (s.holder line h).psn ||| halfBits addr data.length }
      else s))

/-- The data a host write-back carries become the line's, with its poison (R331, R333), and are seen (R79). -/
def State.hostData (s : State) (line : Nat) (data : List Byte) (psn : BitVec 2) : State :=
  ((s.poke 0 (128 * line) (data.take 128)).setHolder line 4 { s.holder line 4 with dirty := true, psn := psn }).storeSeen line

/-- LENT ends: an active persistent request takes the home's tokens, and the requests that waited are served at once, in
the order in which they came (R333, R334). -/
def State.endLent (s : State) (line : Nat) : State :=
  let s := (s.setLine line { s.line line with lent := 0 }).yieldTokens line 4
  let mine := s.coh.asked.filter (fun m => m.line == line)
  mine.foldl State.answerReq { s with coh := { s.coh with asked := s.coh.asked.filter (fun m => m.line != line) } }

/-- HOST_WRITEBACK (R333, R334): the answer to an outstanding BISnpInv, or unprompted. One for a line
that is not lent has no effect. -/
def execHostWriteback (line : Nat) (data : List Byte) (shared : Bool) (poison : BitVec 2) (s : State) : Res :=
  if (s.line line).lent = 0 ∨ !s.hostOpen then .next s
  else
    let s := s.hostData line data poison
    if s.coh.snoops.contains line then
      .next (({ s with coh := { s.coh with
        snoops := s.coh.snoops.filter (· != line), absorb := line :: s.coh.absorb } }).endLent line)
    else if shared then .next (s.setLine line { s.line line with lent := 1 })
    else .next (s.endLent line)

/-- BIRSPI (R333, R334). -/
def execBirspi (line : Nat) (s : State) : Res :=
  if !s.hostOpen then .next s
  else if s.coh.absorb.contains line then
    .next { s with coh := { s.coh with absorb := s.coh.absorb.erase line } }
  else if s.coh.snoops.contains line then
    .next (({ s with coh := { s.coh with snoops := s.coh.snoops.filter (· != line) } }).endLent line)
  else .next s

/-- An IOD reset reclaims every lent line (R335): both halves of one lent with write permission are poisoned, and the
home serves whoever waited for it. -/
def State.reclaimLent (s : State) : State :=
  let lent := s.coh.lines.filter (fun l => l.2.lent != 0)
  let s := { s with coh := { s.coh with snoops := [], absorb := [], hostReqs := [] } }
  lent.foldl (fun s l =>
    let s := if l.2.lent = 2 then s.setHolder l.1 4 { s.holder l.1 4 with psn := 3 } else s
    s.endLent l.1) s

end Sys2Proof.Machine
end

