-- ==== Sys2Proof/Machine/Windows.lean ====
section
/-! DEFINITION. Format windows, sidecars and their counters (R36 to R41, R61, R70, R272, R273), and the
L1 data cache (R268, R319). -/
namespace Sys2Proof.Machine

/-- The grain of a window in bytes; 0 is the whole window (Table 1-9). -/
def WinDesc.grain (w : WinDesc) : Nat :=
  if w.fmt = 6 then 32
  else if w.fmt = 7 then 16
  else match w.sgran with
    | 0 => 128
    | 1 => 4096
    | 2 => 65536
    | _ => 0

/-- The scale address of the byte at `a` (R38). -/
def WinDesc.scaleAddr (w : WinDesc) (a : Nat) : Nat :=
  if w.grain = 0 then w.scalep else w.scalep + (a - w.base) / w.grain

def WinDesc.covers (w : WinDesc) (a : Nat) : Bool := decide (w.base ≤ a) && decide (a < w.limit)

/-- Index of the installed window of a device address (R41). -/
def State.windowAt (s : State) (a : Nat) : Option Nat := s.windows.findIdx? (fun w => w.desc.covers a)

/-- A line's sidecar (Table 12-3). -/
structure Sidecar where
  fmt : Nat := 0
  tid : Nat := 0
  scales : List Nat := [127]
  /-- Address of the line, where a window is installed over it. -/
  at_ : Option Nat := none
  deriving DecidableEq, Repr, Inhabited

def State.sidecar (s : State) (line : Nat) : Sidecar :=
  match s.windowAt (128 * line) with
  | none => {}
  | some i =>
    match s.windows[i]? with
    | none => {}
    | some w =>
      let d := w.desc
      let a := 128 * line
      let scale := fun (x : Nat) => (memGet s.dram (d.scaleAddr x)).toNat
      let scales :=
        if d.fmt = 6 then (List.range 4).map (fun j => scale (a + 32 * j))
        else if d.fmt = 7 then (List.range 8).map (fun j => scale (a + 16 * j))
        else if d.scalep = 0 then [127] else [scale a]
      { fmt := d.fmt, tid := d.tid, scales := scales, at_ := some a }

/-- Changes the counters of the window that is installed over a device address (R70). -/
def State.countWin (s : State) (a : Option Nat) (f : Window → Window) : State :=
  match a.bind s.windowAt with
  | none => s
  | some i =>
    match s.windows[i]? with
    | none => s
    | some w => { s with windows := setNth s.windows i (f w) }

/-- NaN blocks consumed by one access to the parts `rs` of a line, each an offset and a length (R273): the grains touched
whose scale is 0xFF. -/
def State.countGrains (s : State) (c : Sidecar) (rs : List (Nat × Nat)) : State :=
  let g := 128 / c.scales.length
  let n := (c.scales.zipIdx.filter (fun p => p.1 == 255 && rs.any (fun r => decide (r.1 < (p.2 + 1) * g) && decide (p.2 * g < r.1 + r.2)))).length
  if n = 0 then s else s.countWin c.at_ (fun w => { w with nanb := satAdd 64 w.nanb n })

/-- NaN blocks consumed by one access to a whole line (R273). -/
def State.countNanBlocks (s : State) (c : Sidecar) : State := s.countGrains c [(0, 128)]

/-! ## L1 -/

/-- Lines an L1 holds: 128 KiB (R268). -/
def l1Lines : Nat := 1024

def State.l1Find (s : State) (c line : Nat) : Option CacheLine := (s.core c).l1.find line

/-- A line as the slice of a core holds it. -/
def State.sliceLine (s : State) (c line : Nat) : CacheLine :=
  { bytes := memRead s.dram (128 * line) 128, psn := (s.holder line (coreTower c)).psn }

/-- Fills or refreshes a line; a full L1 gives one up. -/
def State.l1Fill (s : State) (c line : Nat) : State :=
  let t := (s.core c).l1
  let x := s.sliceLine c line
  if (t.find line).isSome ∨ t.length < l1Lines then s.modCore c (fun y => { y with l1 := y.l1.set line x })
  else (s.modCore c (fun y => { y with l1 := Tbl.set (dropNth t (s.freeVal % l1Lines)) line x })).useFree

/-- A load served at the slice updates a copy that is present (R319). -/
def State.l1Update (s : State) (c line : Nat) : State :=
  if (s.l1Find c line).isSome then s.l1Fill c line else s

/-- A copy that is present takes the bytes a party of the core writes within its line (R319); a half written whole is
no longer poisoned (R331). -/
def State.l1Store (s : State) (c pa : Nat) (bs : List Byte) : State :=
  match s.l1Find c (pa / 128) with
  | none => s
  | some old =>
    let o := pa % 128
    let whole := wholeHalves (pa / 128) (fun a => decide (pa ≤ a) && decide (a < pa + bs.length))
    let y : CacheLine := { bytes := old.bytes.take o ++ bs ++ old.bytes.drop (o + bs.length), psn := old.psn &&& ~~~whole }
    s.modCore c (fun x => { x with l1 := x.l1.set (pa / 128) y })

def State.l1Drop (s : State) (c line : Nat) : State :=
  if (s.core c).l1.isEmpty then s else s.modCore c (fun x => { x with l1 := x.l1.del line })

def State.l1Clear (s : State) (c : Nat) : State :=
  if (s.core c).l1.isEmpty then s else s.modCore c (fun x => { x with l1 := [] })

/-! ## The instruction cache (Table 0-1) -/

/-- Lines an instruction cache holds: 64 KiB. -/
def icacheLines : Nat := 512

/-- A line that is fetched joins the core's instruction cache; a full one gives one up. -/
def State.icacheFill (s : State) (c line : Nat) : State :=
  let t := (s.core c).icache
  let x := s.sliceLine c line
  if t.length < icacheLines then s.modCore c (fun y => { y with icache := y.icache.set line x })
  else (s.modCore c (fun y => { y with icache := Tbl.set (dropNth t (s.freeVal % icacheLines)) line x })).useFree

/-- The instruction cache of a core gives a line up. -/
def State.icacheDrop (s : State) (c line : Nat) : State :=
  if ((s.core c).icache.find line).isSome then s.modCore c (fun x => { x with icache := x.icache.del line }) else s

end Sys2Proof.Machine
end

