-- ==== Sys2Proof/Machine/Memory.lean ====
section
/-! DEFINITION. Issue of the memory instructions (13): addresses, checks, and the accesses that later
events perform; prefetch, invalidation, fences and observer slots. -/
namespace Sys2Proof.Machine

/-- Own local store and pair pool as targets of a request (LaneReq). -/
def tgtOwn : Nat := 4
def tgtPair : Nat := 5

/-- The observer mask of slot `om` (R283); a prologue uses host and pkg. -/
def State.obsMask (s : State) (om : Nat) : Nat :=
  if isCp s.cur.rill then 0x88 else (s.curRill.obsm.getD om 0).toNat

def viaOf (k : Nat) : Via := if isCp k then .direct else .core (keyCore k)

/-- Keys of what has left a die before its reset: accesses at their slices without a rill. -/
def leftBase : Nat := 2 ^ 60

/-- The tower whose slice serves rill `k` for a line: its own, or the home's for a prologue (R267). -/
def sliceTower (k line : Nat) : Nat :=
  if leftBase ≤ k then coreTower (keyCore k % 4096) else if isCp k then homeBd line else coreTower (keyCore k)

/-- A lane address that is not a multiple of the size: the alignment trap (R280). -/
def misaligned (size : Nat) (addrs : List (Nat × Nat)) : Option (Nat × Nat) :=
  addrs.find? (fun p => p.2 % size != 0)

/-- Translates the lanes in order; the lowest-numbered faulting lane stops it (R280). -/
def State.translateLanes (s : State) (acc : Acc) : List (Nat × Nat) →
    Except (Nat × Nat × Nat) (List (Nat × Nat × Place)) × State
  | [] => (.ok [], s)
  | (l, a) :: t =>
    match s.translate (viaOf s.cur.rill) s.curRill.ctx a acc s.curRill.agent with
    | (.error c, s) => (.error (l, a, c), s)
    | (.ok p, s) =>
      match s.translateLanes acc t with
      | (.error e, s) => (.error e, s)
      | (.ok ps, s) => (.ok ((l, a, p) :: ps), s)

/-- The requests of one lane: 16 bytes to a peer or the host are two halves (R282). -/
def laneReqs (size : Nat) (data : Nat → Nat × Nat) : Nat × Nat × Place → List LaneReq
  | (l, a, p) =>
    let q : LaneReq := { lane := l, va := a, tgt := p.tgt, peer := p.peer, pa := p.pa, n := size
                         data := (data l).1, data2 := (data l).2 }
    if size = 16 ∧ (p.tgt = 2 ∨ p.tgt = 3) then
      [{ q with n := 8, data := q.data % 2 ^ 64 },
       { q with n := 8, off := 8, va := a + 8, pa := p.pa + 8, data := q.data / 2 ^ 64 }]
    else [q]

/-- An access joins the rill's accesses; its counter rises and the cohort moves on. An issue in which no
lane acts counts nothing (R166). -/
def State.pushAccess (s : State) (a : Access) : State :=
  if a.reqs.isEmpty then s.advance
  else
    let a := { a with seq := s.curRill.seq, pc := s.cur.pc, word := s.cur.word, cohort := s.cur.lanes }
    let isLoad := a.kind = .ld ∨ a.kind = .atom ∨ a.kind = .sidecar
    (s.modRill s.cur.rill (fun r => { r with
      seq := r.seq + 1, accs := r.accs ++ [a]
      nld := if isLoad then r.nld + 1 else r.nld
      nst := if isLoad then r.nst else r.nst + 1 })).advance

/-- A global access of the acting lanes (R279, R280): alignment, then translation, then the access. While a walk for a
lane has not ended nothing happens, and the cohort stays. -/
def State.globalAccess (s : State) (a : Access) (acc : Acc) (addrs : List (Nat × Nat)) (data : Nat → Nat × Nat) : State :=
  match misaligned a.size addrs with
  | some (l, x) => s.laneTrap 0x0F 0 (BitVec.ofNat 64 x) l
  | none =>
    match s.translateLanes acc addrs with
    | (.error (l, x, c), s) => if c = waitCode then s else s.laneTrap 0x11 c (BitVec.ofNat 64 x) l
    | (.ok ps, s) => s.pushAccess { a with reqs := (ps.map (laneReqs a.size data)).flatten }

/-- The global address of lane `l` (R279). -/
def State.gaddr (s : State) (a : BitVec 7) (off : Int) (l : Nat) : Nat :=
  (s.srcPair a.toNat l + BitVec.ofInt 64 off).toNat

/-- sext(off4) × size. -/
def scaled (f : BitVec 4) (size : Nat) : Int := f.toInt * size

/-- Registers of an access of `size` bytes. -/
def regsFor (size : Nat) : Nat := max 1 (size / 4)

/-- The value of `n` consecutive registers from field `d` in lane `l`, the lowest register lowest. -/
def State.srcMulti (s : State) (d n l : Nat) : Nat :=
  (List.range n).foldl (fun v i => v + (s.src d i l).toNat * 2 ^ (32 * i)) 0

/-- LD (R286, R287). -/
def State.load (s : State) (size : Nat) (d a : BitVec 7) (o : BitVec 3) (f : BitVec 4) (r g : BitVec 2) : State :=
  let addrs := (s.acting g.toNat).map (fun l => (l, s.gaddr a (scaled f size) l))
  s.globalAccess { kind := .ld, dst := s.curRill.vname d.toNat, nreg := regsFor size, size := size
                   acq := r == 1 && s.obsMask o.toNat != 0, mask := s.obsMask o.toNat }
    .read addrs (fun _ => (0, 0))

/-- ST (R286). -/
def State.store (s : State) (size : Nat) (d a : BitVec 7) (o : BitVec 3) (f : BitVec 4) (r g : BitVec 2) : State :=
  let addrs := (s.acting g.toNat).map (fun l => (l, s.gaddr a (scaled f size) l))
  s.globalAccess { kind := .st, size := size, rel := r == 2 && s.obsMask o.toNat != 0, mask := s.obsMask o.toNat }
    .write addrs (fun l => (s.srcMulti d.toNat (regsFor size) l % 2 ^ (8 * size), 0))

def execLd8 (d a : BitVec 7) (o : BitVec 3) (f : BitVec 4) (r g : BitVec 2) (s : State) : Res := .next (s.load 1 d a o f r g)
def execLd16 (d a : BitVec 7) (o : BitVec 3) (f : BitVec 4) (r g : BitVec 2) (s : State) : Res := .next (s.load 2 d a o f r g)
def execLd32 (d a : BitVec 7) (o : BitVec 3) (f : BitVec 4) (r g : BitVec 2) (s : State) : Res := .next (s.load 4 d a o f r g)
def execLd64 (d a : BitVec 7) (o : BitVec 3) (f : BitVec 4) (r g : BitVec 2) (s : State) : Res := .next (s.load 8 d a o f r g)
def execLd128 (d a : BitVec 7) (o : BitVec 3) (f : BitVec 4) (r g : BitVec 2) (s : State) : Res := .next (s.load 16 d a o f r g)
def execSt8 (d a : BitVec 7) (o : BitVec 3) (f : BitVec 4) (r g : BitVec 2) (s : State) : Res := .next (s.store 1 d a o f r g)
def execSt16 (d a : BitVec 7) (o : BitVec 3) (f : BitVec 4) (r g : BitVec 2) (s : State) : Res := .next (s.store 2 d a o f r g)
def execSt32 (d a : BitVec 7) (o : BitVec 3) (f : BitVec 4) (r g : BitVec 2) (s : State) : Res := .next (s.store 4 d a o f r g)
def execSt64 (d a : BitVec 7) (o : BitVec 3) (f : BitVec 4) (r g : BitVec 2) (s : State) : Res := .next (s.store 8 d a o f r g)
def execSt128 (d a : BitVec 7) (o : BitVec 3) (f : BitVec 4) (r g : BitVec 2) (s : State) : Res := .next (s.store 16 d a o f r g)

/-- The address of a uniform access (R279, R288). -/
def State.kaddr (s : State) (a : BitVec 7) (off : Int) : Nat := (s.usrcPair a.toNat + BitVec.ofInt 64 off).toNat

def execLdk (d a : BitVec 7) (o : BitVec 3) (f : BitVec 4) (r : BitVec 2) (z : BitVec 1) (s : State) : Res :=
  let size := 4 * (1 + z.toNat)
  let m := s.obsMask o.toNat
  .next (s.globalAccess { kind := .ld, uni := true, dst := s.curRill.kname d.toNat, nreg := 1 + z.toNat, size := size
                          acq := r == 1 && m != 0, mask := m }
    .read [(0, s.kaddr a (scaled f size))] (fun _ => (0, 0)))

def execStk (d a : BitVec 7) (o : BitVec 3) (f : BitVec 4) (r : BitVec 2) (z : BitVec 1) (s : State) : Res :=
  let size := 4 * (1 + z.toNat)
  let m := s.obsMask o.toNat
  let v := (s.usrc d.toNat 0).toNat + (if z = 1 then (s.usrc d.toNat 1).toNat * 2 ^ 32 else 0)
  .next (s.globalAccess { kind := .st, uni := true, size := size, rel := r == 2 && m != 0, mask := m }
    .write [(0, s.kaddr a (scaled f size))] (fun _ => (v, 0)))

/-! ## Local store (R274 to R277, R289, R290) -/

/-- The rill is a span member with its group's own store (R125, R274). -/
def State.spanMember (s : State) (k : Nat) : Bool :=
  let r := s.rill k
  (s.group r.group).span && r.room == (s.group r.group).room

/-- The room a local address lies in: the rill's own, or its partner group's. -/
def State.localRoom (s : State) (k : Nat) (pair : Bool) : Nat :=
  let r := s.rill k
  if pair then (s.group (s.group r.group).partner).room else r.room

/-- The bounds of R274: the two groups of a span own stores of one size, so the rill's own gives the pair
pool's bound as well. -/
def State.localBad (s : State) (k size a : Nat) : Bool :=
  let pair := bitOf 18 a
  decide (2 ^ 19 ≤ a) || (pair && !s.spanMember k) ||
    decide ((s.room (s.rill k).room).lsize < a % 2 ^ 18 + size)

def localPlace (a : Nat) : Place := { tgt := if bitOf 18 a then tgtPair else tgtOwn, pa := a % 2 ^ 18 }

/-- The local address of lane `l` (R279). -/
def State.laddr (s : State) (a : BitVec 7) (off : Int) (l : Nat) : Nat :=
  (s.src a.toNat 0 l + BitVec.ofInt 32 off).toNat

def State.localAccess (s : State) (a : Access) (addrs : List (Nat × Nat)) (data : Nat → Nat × Nat) : State :=
  match misaligned a.size addrs with
  | some (l, x) => s.laneTrap 0x0F 0 (BitVec.ofNat 64 x) l
  | none =>
    match addrs.find? (fun p => s.localBad s.cur.rill a.size p.2) with
    | some (l, x) => s.laneTrap 0x10 0 (BitVec.ofNat 64 x) l
    | none => s.pushAccess { a with reqs := (addrs.map (fun p => laneReqs a.size data (p.1, p.2, localPlace p.2))).flatten }

def execLdl (d a : BitVec 7) (z : BitVec 2) (f : BitVec 4) (g : BitVec 2) (s : State) : Res :=
  let size := 4 * 2 ^ z.toNat
  let addrs := (s.acting g.toNat).map (fun l => (l, s.laddr a (scaled f size) l))
  .next (s.localAccess { kind := .ld, dst := s.curRill.vname d.toNat, nreg := regsFor size, size := size }
    addrs (fun _ => (0, 0)))

def execStl (d a : BitVec 7) (z : BitVec 2) (f : BitVec 4) (g : BitVec 2) (s : State) : Res :=
  let size := 4 * 2 ^ z.toNat
  let addrs := (s.acting g.toNat).map (fun l => (l, s.laddr a (scaled f size) l))
  .next (s.localAccess { kind := .st, size := size } addrs
    (fun l => (s.srcMulti d.toNat (regsFor size) l, 0)))

/-- An acquire, and an access of uniform registers, as an instruction. -/
def acquires : Instr → Bool
  | .ld8 _ _ _ _ r _ | .ld16 _ _ _ _ r _ | .ld32 _ _ _ _ r _ | .ld64 _ _ _ _ r _ | .ld128 _ _ _ _ r _ | .ldk _ _ _ _ r _ => r == 1
  | .atom32 _ _ _ _ r _ | .atom64 _ _ _ _ r _ | .red32 _ _ _ _ r _ | .red64 _ _ _ _ r _ => r.getLsbD 0
  | _ => false
def isUniAccess : Instr → Bool
  | .ldk .. | .stk .. => true
  | _ => false

/-- An issue before place `seq` is held before it takes effect. -/
def Rill.heldBefore (r : Rill) (seq : Nat) : Bool := r.waits.any (fun w => w.held.isSome && decide (w.seq < seq))

/-- Such an issue keeps an access from being performed: where it acquires, where the access releases, and where either has
uniform registers (R283, R313). -/
def Rill.heldBlocks (r : Rill) (a : Access) : Bool :=
  r.waits.any (fun w => w.held.isSome && decide (w.seq < a.seq) && (acquires w.ins || isUniAccess w.ins || a.rel || a.uni))

/-- The partner group is on its core, so that its local store is reached (R277). -/
def Group.resident (g : Group) : Bool := (g.st == .placed || g.st == .running) && g.filled

/-- Of a room that is being saved nothing is left to be done but pair-pool stores, which wait for the other room. -/
def State.pairOnly (s : State) (room : Nat) : Bool :=
  (s.rills.filter (fun p => p.2.live && p.2.room == room && decide (p.1 < 0x10000))).all (fun p =>
    p.2.dropped && p.2.arrivals.isEmpty && p.2.accs.all (fun a => a.reqs.all (fun q => q.done || q.tgt == tgtPair)) &&
    p.2.copies.all (fun c => c.kind != .acopy || c.held.isSome))

/-- A pair-pool access may reach the partner's store: while it is resident and neither die is halted (R434), or, for the
store of a dropped rill, once the partner has been saved (R277). Where each of two partners that are being saved has such
stores, they are made as soon as nothing else of the partner is left. DESIGN CHOICE: log entry 133. -/
def State.pairOpen (s : State) (k : Nat) (write : Bool) : Bool :=
  let r := s.rill k
  let p := s.group (s.group r.group).partner
  (p.resident && !(s.die (keyDie k)).halted && !(s.die p.die).halted) ||
    (write && r.dropped && (p.st == .saved || (p.st == .saving && s.pairOnly p.room)))

/-! ## Atomics (R291 to R295) -/

/-- ATOM and RED at the issue: the operands of Table 13-3 are read, and the region of the acting lanes
ends (R285). -/
def State.atomic (s : State) (wide red : Bool) (d a : BitVec 7) (o : BitVec 3) (z : BitVec 4) (r g : BitVec 2) : State :=
  let size := if wide then 8 else 4
  let n := size / 4
  let m := s.obsMask o.toNat
  let lanes := s.acting g.toNat
  let two := z = 7 ∨ z = 9
  let data := fun l =>
    let v := s.srcMulti d.toNat (if two then 2 * n else n) l
    (v % 2 ^ (8 * size), v / 2 ^ (8 * size))
  let t := s.globalAccess
    { kind := if red then .red else .atom, dst := s.curRill.vname d.toNat, nreg := if red then 0 else n, size := size
      sub := z.toNat, guard := g.toNat
      acq := r.getLsbD 0 && m != 0, rel := r.getLsbD 1 && m != 0, mask := m }
    .atomic (lanes.map (fun l => (l, s.gaddr a 0 l))) data
  if (t.curRill).seq = s.curRill.seq then t else t.endRegion lanes

def execAtom32 (d a : BitVec 7) (o : BitVec 3) (z : BitVec 4) (r g : BitVec 2) (s : State) : Res :=
  .next (s.atomic false false d a o z r g)
def execAtom64 (d a : BitVec 7) (o : BitVec 3) (z : BitVec 4) (r g : BitVec 2) (s : State) : Res :=
  .next (s.atomic true false d a o z r g)
def execRed32 (d a : BitVec 7) (o : BitVec 3) (z : BitVec 4) (r g : BitVec 2) (s : State) : Res :=
  .next (s.atomic false true d a o z r g)
def execRed64 (d a : BitVec 7) (o : BitVec 3) (z : BitVec 4) (r g : BitVec 2) (s : State) : Res :=
  .next (s.atomic true true d a o z r g)

/-! ## PREF, INVL1 (R303, R304) -/

/-- The place of each acting lane that translates for a read, faults left out; `none` while a walk has not ended. -/
def State.quietPlaces (s : State) (a g : Nat) : Option (List Place) × State :=
  (s.acting g).foldl (fun acc l =>
    match acc.2.translate (viaOf s.cur.rill) s.curRill.ctx (s.srcPair a l).toNat .read s.curRill.agent with
    | (.ok p, t) => (acc.1.map (· ++ [p]), t)
    | (.error c, t) => (if c = waitCode then none else acc.1, t)) (some [], s)

/-- An effect on the TGT 0 line of each acting lane (R303, R304), after which the cohort moves on. -/
def State.quietLines (s : State) (a g : Nat) (f : State → Nat → State) : State :=
  match s.quietPlaces a g with
  | (none, t) => t
  | (some ps, t) => ((ps.filter (·.tgt == 0)).foldl (fun t p => f t (p.pa / 128)) t).advance

/-- PREF (R303): the slice asks for one token of each TGT 0 line it lacks. -/
def execPref (a : BitVec 7) (_r : BitVec 1) (g : BitVec 2) (s : State) : Res :=
  .next (s.quietLines a.toNat g.toNat (fun t line =>
    let h := sliceTower s.cur.rill line
    if t.canRead line h then t else t.wantLine line h false))

/-- PREF.sc (R303): a weak load of the sidecar. -/
def execPrefSc (d a : BitVec 7) (_r : BitVec 1) (g : BitVec 2) (s : State) : Res :=
  let addrs := (s.acting g.toNat).map (fun l => (l, s.gaddr a 0 l))
  .next (s.globalAccess { kind := .sidecar, dst := s.curRill.vname d.toNat, nreg := 4, size := 1 } .read addrs
    (fun _ => (0, 0)))

/-- INVL1 (R304). -/
def execInvl1 (a : BitVec 7) (_r : BitVec 1) (g : BitVec 2) (s : State) : Res :=
  .next (s.quietLines a.toNat g.toNat (fun t line => t.l1Drop (keyCore s.cur.rill) line))

def execInvl1All (g : BitVec 2) (s : State) : Res :=
  .next (if (s.acting g.toNat).isEmpty then s.advance else (s.l1Clear (keyCore s.cur.rill)).advance)

/-! ## SETOBS, FENCE (R305, R306) -/

def execSetobs (z : BitVec 3) (a : BitVec 7) (_r : BitVec 1) (g : BitVec 2) (s : State) : Res :=
  match s.acting g.toNat with
  | [] => .next s.advance
  | l :: t =>
    let m : BitVec 8 := (s.src a.toNat 0 l).truncate 8
    .next ((s.modRill s.cur.rill (fun r => { r with obsm := setNth r.obsm z.toNat m })).endRegion (l :: t)).advance

/-- An observer mask that waits for an earlier access to this target (Table 14-3). -/
def maskWaits (mask tgt : Nat) : Bool :=
  match tgt with
  | 2 => bitOf 6 mask
  | 3 => bitOf 7 mask
  | 4 => bitOf 0 mask || bitOf 4 mask || bitOf 5 mask
  | 5 => bitOf 1 mask
  | _ => mask != 0

/-- Some request of the access is not performed and the mask waits for it. -/
def Access.holds (a : Access) (mask : Nat) : Bool := a.reqs.any (fun q => !q.done && maskWaits mask q.tgt)

def Access.isLoad (a : Access) : Bool := a.kind == .ld || a.kind == .sidecar
def Access.isWrite (a : Access) : Bool := a.kind == .st || a.kind == .red || a.kind == .atom

/-- FENCE (R305, R317): kinds 0 and 1 wait for every earlier access by the mask, kinds 0 and 2 for every load. -/
def fenceReady (s : State) (k : Nat) (w : Wait) : Bool :=
  let kind := w.vals.getD 0 0
  let mask := w.vals.getD 1 0
  !(s.rill k).heldBefore w.seq && ((s.rill k).accs.filter (fun a => decide (a.seq < w.seq))).all (fun a =>
    (kind == 2 || !a.holds mask) && (kind == 1 || !(a.isLoad || a.kind == .atom) || a.reqs.all (·.done)))

/-- An acquire whose mask holds a bit other than core invalidates the L1 (R268). -/
def State.acquireL1 (s : State) (k mask : Nat) : State :=
  if mask % 256 = 0 ∨ mask % 256 = 1 ∨ isCp k then s else s.l1Clear (keyCore k)

def fenceDone (s : State) (k : Nat) (w : Wait) : State :=
  let s := if w.vals.getD 0 0 = 1 then s else s.acquireL1 k (w.vals.getD 1 0)
  s.release k w

def execFence (z : BitVec 2) (m : BitVec 8) (s : State) : Res :=
  .next (s.holdOr (s.mkWait (.fence z m) [z.toNat, m.toNat]) fenceReady fenceDone)

/-! ## What a thread waits for (R152) -/

/-- The lanes of an access. -/
def Access.lanes (a : Access) : List Nat := (a.reqs.filter (fun q => q.off == 0)).map (·.lane)

/-- Registers that a held issue has still to write: of its lanes, or uniform ones. -/
def Rill.heldDests (r : Rill) (w : Wait) : List (Option Nat × Nat) :=
  match w.held with
  | none => []
  | some h =>
    ((({ r with wb := h.wb, kb := h.kb }).destsOf w.ins).map (fun n =>
      if 1000 ≤ n then [(none, n)] else w.lanes.map (fun l => (some l, n)))).flatten

/-- Registers and guards still to be written: the lane, or every lane, and the register. -/
def Rill.awaited (r : Rill) : List (Option Nat × Nat) :=
  let regs := fun (l : Option Nat) (n m : Nat) => (List.range m).map (fun i => (l, n + i))
  let guard := fun (a : Access) (l : Nat) => if a.kind = .atom ∧ a.sub = 9 ∧ a.guard ≠ 0 then [(some l, guardReg a.guard)] else []
  (r.accs.map (fun a =>
    if a.uni then regs none (latchK a.dst) a.nreg
    else (a.lanes.map (fun l => regs (some l) a.dst a.nreg ++ guard a l)).flatten)).flatten ++
  (r.waits.map r.heldDests).flatten ++
  r.vtoks.map (fun p => (none, latchK p.dst)) ++
  ((r.arrivals.filter (fun x => x.tag.isNone && x.ring.isNone)).map (fun x => x.lanes.map (fun l => (some l, x.dst)))).flatten

/-- Lane `l` has no register among `names` still to be written; `wide`: nor has any other lane. -/
def Rill.settledIn (r : Rill) (names : List Nat) (wide : Bool) (l : Nat) : Bool :=
  !r.awaited.any (fun p => names.contains p.2 && (wide || p.1.isNone || p.1 == some l))

/-- The thread's pair-pool access is held while the partner group is off its core (R277). -/
def State.pairHeld (s : State) (k l : Nat) : Bool :=
  (s.rill k).accs.any (fun a => a.reqs.any (fun q => !q.done && q.tgt == tgtPair && (a.uni || q.lane == l) && !s.pairOpen k a.isWrite))

end Sys2Proof.Machine
end

