-- ==== Sys2Proof/Machine/CrossLane.lean ====
section
/-! DEFINITION. Cross-lane instructions and QBLK (R195 to R212): they are held until every live member
has come, and complete once for all of them. -/
namespace Sys2Proof.Machine

/-- Waits of R202, QBLK's among them (R196). -/
def isCross : Instr → Bool
  | .vote .. | .shfl .. | .perm .. | .redx .. | .scanx .. | .matchx .. | .elect .. | .qblk .. => true
  | _ => false

/-- The member mask of a b field (R201), as it reads at the issue. -/
def State.memberMask (s : State) (b : Nat) : Nat :=
  if b < 96 then 2 ^ 64 - 1 else (s.srcPair b 0).toNat

def Wait.mask (w : Wait) : Nat := w.vals.getD 1 0
def Wait.wb (w : Wait) : Nat := w.vals.getD 0 64

def Rill.members (r : Rill) (mask : Nat) : List Nat := r.lanes.filter (fun l => bitOf l mask)
def Rill.liveMembers (r : Rill) (mask : Nat) : List Nat := r.liveLanes.filter (fun l => bitOf l mask)

/-- Every live member is held by the wait (R202). -/
def Rill.crossCome (r : Rill) (w : Wait) : Bool := (r.liveMembers w.mask).all w.lanes.contains

/-- Every live member has come and is ready apart from this wait: it awaits no register that the instruction names, and no
pair-pool access of it is held (R202, R152). -/
def crossReady (s : State) (k : Nat) (w : Wait) : Bool :=
  let r := s.rill k
  let names := { r with wb := w.wb }.names w.ins
  r.crossCome w && (r.liveMembers w.mask).all (fun l => r.settledIn names false l && !s.pairHeld k l)

/-- Source field `f` of the waiting instruction in lane `l`, through the bases of its issue. -/
def State.xsrc (s : State) (k : Nat) (w : Wait) (f : BitVec 7) (l : Nat) : Word :=
  if f.toNat < 64 then s.vreg k f.toNat l
  else if f.toNat < 96 then s.vreg k (w.wb + f.toNat - 64) l
  else (s.rill k).kreg (f.toNat - 96)

def Wait.vname (w : Wait) (f : BitVec 7) : Nat := if f.toNat < 64 then f.toNat else w.wb + f.toNat - 64

/-- Writes a cross-lane destination; it is never left in uniform form (R140). -/
def State.xdst (s : State) (k : Nat) (w : Wait) (d : BitVec 7) (i : Nat) (lanes : List Nat) (f : Nat → Word) : State :=
  s.vwrite k (w.vname d + i) false (lanes.map (fun l => (l, f l)))

/-- The lane SHFL reads, and whether an edge keeps d (R206). Segment code 7 is taken as 6. DESIGN CHOICE: log entry 144. -/
def shflSource (sub width l sel : Nat) : Nat × Bool :=
  let c := sel / 256 % 8
  let edge := bitOf 12 sel
  let sz := if c = 0 then width else min width (2 ^ min c 6)
  let base := l - l % sz
  let i := l % sz
  let t := sel % 64 % sz
  match sub with
  | 0 => (base + t, false)
  | 1 => (base + (i + sz - t) % sz, edge && decide (i < t))
  | 2 => (base + (i + t) % sz, edge && decide (sz ≤ i + t))
  | _ => (base + (i ^^^ t), false)

/-- The lane PERM reads (R207). -/
def permSource (sub width l p : Nat) : Nat :=
  match sub with
  | 0 => (l + p) % width
  | 1 => p % width
  | 2 => l ^^^ (p % width)
  | _ => width - 1 - l

/-- The identity of a combination (R208). -/
def redIdentity (sub : Nat) : Word :=
  match sub with
  | 1 => 0x7FFFFFFF
  | 2 => 0x80000000
  | 3 => 0xFFFFFFFF
  | 6 => 0x7F800000
  | 7 => 0xFF800000
  | _ => 0

/-- The least or greatest FP32 term, NaNs ignored (R209). -/
def extremeF32 (isMin : Bool) (xs : List Word) : Word :=
  match xs.filter (fun x => !(fp32.decode x.toNat).isNan) with
  | [] => BitVec.ofNat 32 fp32.nan
  | x :: t => t.foldl (fun best y =>
      let a := fp32.decode best.toNat
      let b := fp32.decode y.toNat
      if isMin then (if fLt true b a then y else best) else if fLt true a b then y else best) x

/-- The combination of a list of terms (R208, R209), with its flags; the identity of no terms. -/
def combine (sub mode : Nat) (xs : List Word) : Word × BitVec 5 :=
  let sig := xs.any (fun x => (fp32.decode x.toNat).isSig)
  let pick := fun (f : Word → Word → Bool) => xs.foldl (fun x y => if f y x then y else x) (redIdentity sub)
  if xs.isEmpty then (redIdentity sub, 0) else
  match sub with
  | 0 => (xs.foldl (· + ·) 0, 0)
  | 1 => (pick (fun y x => y.slt x), 0)
  | 2 => (pick (fun y x => x.slt y), 0)
  | 3 => (pick (fun y x => y.ult x), 0)
  | 4 => (pick (fun y x => x.ult y), 0)
  | 5 =>
    let r := fp32.settle mode sig false (xs.map (fun x => fp32.decode x.toNat))
    (BitVec.ofNat 32 r.1, r.2)
  | 6 => (extremeF32 true xs, if sig then fNV else 0)
  | _ => (extremeF32 false xs, if sig then fNV else 0)

/-- The exponent and elements of a block of QBLK, and each element's flags (R197); `none` for a block
with a NaN or an infinity. -/
def quantise (qmax : Int) (mode : Nat) (xs : List FVal) : Option (Nat × List Int) :=
  if xs.any (fun x => x.isNan || x.isInf) then none
  else
    let scaled := fun (e : Nat) (x : FVal) => roundInt mode (x.dy.mul ⟨1, 127 - (e : Int)⟩)
    let e := ((List.range 255).find? (fun e => xs.all (fun x => decide ((scaled e x).natAbs ≤ qmax.natAbs)))).getD 254
    some (e, xs.map (scaled e))

/-- QBLK on the block whose first lane is `b` (R197). -/
def State.qblkBlock (s : State) (k : Nat) (w : Wait) (d a : BitVec 7) (qmax : Int) (b : Nat) : State :=
  let r := s.rill k
  let el := fun l => if (r.thread l).exited then FVal.fin false 0 0 else fp32.decode (s.xsrc k w a l).toNat
  let lanes := (List.range 32).map (b + ·)
  let live := lanes.filter (fun l => !(r.thread l).exited)
  match quantise qmax r.rmode.toNat (lanes.map el) with
  | none =>
    (s.xdst k w d 0 live (fun _ => 0xFF00)).raiseFlags k live
      (fun l => if (el l).isNan || (el l).isInf then fNV else 0)
  | some (e, qs) =>
    let q := fun l => qs.getD (l - b) 0
    let exact := fun l => ((el l).dy.add (Dy.mul ⟨-(q l), (e : Int) - 127⟩ ⟨1, 0⟩)).m == 0
    (s.xdst k w d 0 live (fun l => BitVec.ofNat 32 (e * 256 + intBits 8 (q l)))).raiseFlags k live
      (fun l => if exact l then 0 else fNX)

/-- The effect of a completed wait: its cohort is every thread it holds (R202, R203). -/
def crossDone (s : State) (k : Nat) (w : Wait) : State :=
  let r := s.rill k
  let live := r.liveMembers w.mask
  let act := w.lanes.filter live.contains
  let x := fun a l => s.xsrc k w a l
  let s' := match w.ins with
    | .vote d a _ sub =>
      let p := fun j => !(r.thread j).exited && x a j != 0
      let ms := r.members w.mask
      match sub.toNat with
      | 0 => s.writeGuard k (d.toNat % 4) act (fun _ => ms.any p)
      | 1 => s.writeGuard k (d.toNat % 4) act (fun _ => ms.all p)
      | _ =>
        let n := (ms.filter p).foldl (fun n j => n + 2 ^ j) 0
        (s.xdst k w d 0 act (fun _ => BitVec.ofNat 32 n)).xdst k w d 1 act (fun _ => BitVec.ofNat 32 (n / 2 ^ 32))
    | .shfl d a b sub =>
      let src := fun l => shflSource sub.toNat r.width l (x b l).toNat
      let keep := act.filter (fun l => !(src l).2)
      s.xdst k w d 0 keep (fun l => if (r.thread (src l).1).exited then 0 else x a (src l).1)
    | .perm d a p sub =>
      let src := fun l => permSource sub.toNat r.width l p.toNat
      s.xdst k w d 0 act (fun l => if (r.thread (src l)).exited then 0 else x a (src l))
    | .redx d a _ sub =>
      let c := combine sub.toNat r.rmode.toNat (live.map (x a))
      (s.xdst k w d 0 act (fun _ => c.1)).raiseFlags k act (fun _ => c.2)
    | .scanx d a _ sub =>
      let c := fun l => combine (sub.toNat % 8) r.rmode.toNat
        ((live.filter (fun j => decide (j < l) || (sub.toNat < 8 && j == l))).map (x a))
      (s.xdst k w d 0 act (fun l => (c l).1)).raiseFlags k act (fun l => (c l).2)
    | .matchx d a _ sub =>
      let cls := fun l => live.filter (fun j => x a j == x a l)
      s.xdst k w d 0 act (fun l =>
        if sub.toNat = 0 then BitVec.ofNat 32 ((cls l).headD 0)
        else BitVec.ofNat 32 (((cls l).filter (· < l)).length + 65536 * (cls l).length))
    | .elect e _ => s.writeGuard k e.toNat act (fun l => live.head? == some l)
    | .qblk d a z =>
      let blocks := if r.width = 64 then [0, 32] else [0]
      blocks.foldl (fun t b => t.qblkBlock k w d a (if z = 0 then 127 else 7) b) s
    | _ => s
  s'.release k w

/-- All live lanes are held by cross-lane waits and none is satisfied (R204). -/
def State.mismatch (s : State) (k : Nat) : Bool :=
  let r := s.rill k
  let ws := r.waits.filter (fun w => isCross w.ins)
  !ws.isEmpty && r.liveLanes.all (fun l => ws.any (fun w => w.lanes.contains l)) && ws.all (fun w => !r.crossCome w)

/-- The cross-lane mismatch trap, where it is due: the cross-lane waits end without effect and each
thread stays at its PC. -/
def State.checkMismatch (s : State) : State :=
  let k := s.cur.rill
  if s.mismatch k then
    (s.modRill k (fun r => { r with waits := r.waits.filter (fun w => !isCross w.ins) })).trap 0x0E
  else s

/-- A cross-lane instruction issues: its threads join those held at this PC, and the latest mask governs
(R202). It completes at once where every live member has come. -/
def State.cross (s : State) (i : Instr) (mask : Nat) : State :=
  let k := s.cur.rill
  let r := s.curRill
  let here := fun (w : Wait) => isCross w.ins && w.pc == s.cur.pc
  let old := ((r.waits.filter here).map Wait.lanes).flatten
  let w : Wait := { s.mkWait i [r.wb, mask] with lanes := r.lanes.filter (fun l => old.contains l || s.cur.lanes.contains l) }
  let s := s.modRill k (fun r => { r with waits := r.waits.filter (fun w => !here w) })
  if crossReady s k w then crossDone s k w
  else (s.modRill k (fun r => { r with waits := r.waits ++ [w] })).checkMismatch

/-- Every lane of the rill is a member. -/
def allLanes : Nat := 2 ^ 64 - 1

def execVote (d a b : BitVec 7) (z : BitVec 4) (s : State) : Res := .next (s.cross (.vote d a b z) (s.memberMask b.toNat))
def execShfl (d a b : BitVec 7) (z : BitVec 4) (s : State) : Res := .next (s.cross (.shfl d a b z) allLanes)
def execPerm (d a : BitVec 7) (p : BitVec 6) (z : BitVec 4) (s : State) : Res := .next (s.cross (.perm d a p z) allLanes)
def execRedx (d a b : BitVec 7) (z : BitVec 4) (s : State) : Res := .next (s.cross (.redx d a b z) (s.memberMask b.toNat))
def execScanx (d a b : BitVec 7) (z : BitVec 4) (s : State) : Res := .next (s.cross (.scanx d a b z) (s.memberMask b.toNat))
def execMatchx (d a b : BitVec 7) (z : BitVec 4) (s : State) : Res := .next (s.cross (.matchx d a b z) (s.memberMask b.toNat))
def execElect (e : BitVec 2) (b : BitVec 7) (s : State) : Res := .next (s.cross (.elect e b) (s.memberMask b.toNat))

/-- QBLK (R195, R196): the width trap at width 16. -/
def execQblk (d a : BitVec 7) (z : BitVec 1) (s : State) : Res :=
  .next (if s.curRill.width = 16 then s.trap 0x0D else s.cross (.qblk d a z) allLanes)

/-- CROSS_LANE_COMPLETE (R202): a wait whose last live member has come or exited. -/
def execCrossLaneComplete (rill : Nat) (pc : DWord) (s : State) : Res :=
  match (s.rill rill).waits.find? (fun w => isCross w.ins && w.pc == pc) with
  | none => .next s
  | some w =>
    if s.runs rill && crossReady s rill w then
      .next (crossDone (s.modRill rill (fun r => { r with waits := r.waits.filter (fun v => !(isCross v.ins && v.pc == pc)) })) rill w)
    else .next s

end Sys2Proof.Machine
end

