-- ==== Sys2Proof/Machine/BlackBox.lean ====
section
/-! DEFINITION. CRC-32 (R467), the black box (R449 to R452), and the fabric event ring (R393). -/
namespace Sys2Proof.Machine

/-- One bit of the reflected CRC-32. -/
def crcBit (r : Nat) : Nat := if r % 2 = 1 then (r / 2) ^^^ 0xEDB88320 else r / 2
def crcByte (r : Nat) (b : Byte) : Nat := (List.range 8).foldl (fun r _ => crcBit r) (r ^^^ b.toNat)

/-- CRC-32 (R467). -/
def crc32 (bs : List Byte) : Nat := bs.foldl crcByte 0xFFFFFFFF ^^^ 0xFFFFFFFF

def boxBase : Nat := 0xBFE4001000

/-- The bytes of an entry (Table 19-2). -/
def BoxEvent.bytes (e : BoxEvent) (time seq : Nat) : List Byte :=
  let w1 := seq % 2 ^ 32 * 2 ^ 32 + e.kind * 2 ^ 24 + e.die * 2 ^ 20 + e.core * 2 ^ 15 + e.part * 2 ^ 12 + e.slot * 2 ^ 8 + e.code
  let head := toBytes 8 time ++ toBytes 8 w1 ++ toBytes 8 e.arg0
  let tail := toBytes 4 e.arg1
  head ++ toBytes 4 (crc32 (head ++ tail)) ++ tail

/-- The ring is zeroed and numbers start again (R450), where the homes of its lines let the recorder write. -/
def State.boxClear (s : State) : State :=
  if s.homeOpen boxBase 0x20000 true then
    { s.homePut boxBase (List.replicate 0x20000 0) with box := { s.box with nseq := 0, clearing := false, ready := true } }
  else s.homeAsk boxBase 0x20000 true

/-- An entry is to be returned over MCTP. -/
def State.boxReply (s : State) (idx : Nat) : State :=
  let at_ := boxBase + 32 * (idx % 4096)
  if s.homeOpen at_ 32 false then { s with box := { s.box with asked := none, mctp := memRead s.dram at_ 32 } }
  else s.homeAsk at_ 32 false

/-- BLACKBOX_RECORD (R449): the recorder, once it has found its place in the ring (R451), writes the event it received
first, or counts it while it is frozen. What waits for lines of the ring comes before it. -/
def execBlackboxRecord (s : State) : Res :=
  if (s.die 0).st != .active then .next s
  else if s.box.clearing then .next s.boxClear
  else match s.box.asked, s.box.queue with
    | some idx, _ => .next (s.boxReply idx)
    | none, [] => .next s
    | none, e :: t =>
      let b := { s.box with queue := t }
      let at_ := boxBase + 32 * (b.nseq % 4096)
      if !b.ready then .next s
      else if b.freeze then .next { s with box := { b with drops := satAdd 16 b.drops 1 } }
      else if s.homeOpen at_ 32 true then
        .next { s.homePut at_ (e.bytes (s.now 0) b.nseq) with box := { b with nseq := (b.nseq + 1) % 2 ^ 32 } }
      else .next (s.homeAsk at_ 32 true)

/-- A clear of the ring begins (R450). -/
def State.clearBox (s : State) : State := ({ s with box := { s.box with clearing := true } }).boxClear

def execBlackboxClear (s : State) : Res := .next s.clearBox

/-- BLACKBOX_MCTP_READ (R450): one entry, by index. -/
def execBlackboxMctpRead (idx : Nat) (s : State) : Res :=
  .next (({ s with box := { s.box with asked := some idx } }).boxReply idx)

/-- SEQ of the entry at an index that is not torn (R449). -/
def State.boxSeq (s : State) (i : Nat) : Option Nat :=
  let e := memRead s.dram (boxBase + 32 * i) 32
  if ofBytes ((e.drop 24).take 4) = crc32 (e.take 24 ++ e.drop 28) then some (ofBytes ((e.drop 12).take 4)) else none

/-- After boot the recorder goes on above the highest SEQ that is not torn (R451). -/
def State.resumeBox (s : State) : State :=
  let top := ((List.range 4096).filterMap s.boxSeq).foldl max 0
  { s with box := { s.box with nseq := (top + 1) % 2 ^ 32, ready := true } }

/-! ## Fabric events -/

/-- The records that wait are written, where the host port takes them (R98). -/
def State.flushFer (s : State) : State :=
  if s.hostOpen then
    { s with hostMem := s.fab.ferwait.foldl (fun m p => memWrite m p.1 p.2) s.hostMem, fab := { s.fab with ferwait := [] } }
  else s

/-- Writes a fabric event record to host memory, once its port is open, and a black-box entry (R393, Table 16-9). -/
def State.fabricEvent (s : State) (kind peer path elm count live : Nat) : State :=
  let f := s.fab
  let w := count * 2 ^ 32 + elm * 2 ^ 20 + path * 2 ^ 16 + peer * 2 ^ 8 + kind
  let bs := toBytes 8 (s.now 1) ++ toBytes 8 w ++ toBytes 8 live ++ toBytes 8 0
  let s := { s with fab := { f with
    ferwait := f.ferwait ++ [(f.ferbase + 32 * (f.ferhead % 2 ^ f.ferlog2), bs)]
    ferhead := (f.ferhead + 1) % 2 ^ 16 } }
  s.flushFer.record { kind := 0x05, die := 1, code := kind, arg0 := w, arg1 := live }

end Sys2Proof.Machine
end

