-- ==== Sys2Proof/Machine/Fabric.lean ====
section
/-! DEFINITION. Paths, flits, replay and relay (R364 to R377), and the requests to peers (R378, R380). -/
namespace Sys2Proof.Machine

def popcount (n : Nat) : Nat := ((List.range 64).filter (fun i => bitOf i n)).length

/-- Module that lights path `i` (R364, R365). -/
def pathModule (i : Nat) : Nat := i % 8 / 2
/-- Paths lit by module `k`. -/
def modulePaths (k : Nat) : Nat := ((List.range 16).filter (fun i => pathModule i == k)).foldl (fun m i => m + 2 ^ i) 0

/-- Path `i` of the set at offset `o` (R364): its egress fibre and its wavelength. -/
def pathFibre (o i : Nat) : Nat := (o + 64 - 8 * (i % 8) % 64) % 64 + 64 * (i / 8)
def pathWave (i : Nat) : Nat := i % 8
/-- Offset of device `p` from this one; the pairs of offset 0 come back to the sender, for self-test only. -/
def State.offset (s : State) (p : Nat) : Nat := (p + 64 - s.fab.devno % 64) % 64
/-- Device `p` of the pod has a path set from this one. -/
def State.hasSet (s : State) (p : Nat) : Bool := decide (p < 64) && s.offset p != 0

def Peer.lcnt (p : Peer) : Nat := popcount p.live
/-- The direct set carries channel `vc` (R376). -/
def Peer.carries (p : Peer) (vc : Nat) : Bool :=
  decide (2 ≤ p.lcnt) && !(vc == 1 && p.shed1) && !(vc == 4 && p.shed4)

/-- A relay for channel `vc` to `p` (R373): the lowest-numbered device with both sets of two live paths
that do not shed the channel. -/
def State.relayFor (s : State) (p vc : Nat) : Option Nat :=
  (List.range 64).find? (fun q =>
    let a := s.fab.announced.get (0, false, false) (64 * q + p)
    q != s.fab.devno && q != p && (s.peer q).sess && (s.peer q).carries vc &&
    decide (2 ≤ a.1) && !(vc == 1 && a.2.1) && !(vc == 4 && a.2.2))

/-- The set a channel's flits to `p` travel in: the direct one, or the relay's. -/
def State.nextHop (s : State) (p vc : Nat) : Option Nat :=
  if (s.peer p).carries vc then some p else s.relayFor p vc

/-- Live paths that carry flits: all, or the lowest four while the Weir idles paths (R242, stage 7). -/
def Peer.usable (p : Peer) (idle : Bool) (i : Nat) : Bool :=
  bitOf i p.live && !(idle && decide (4 ≤ popcount (p.live % 2 ^ i)))

/-- The next live path after the one that took the last flit (R368). -/
def Peer.nextPath (p : Peer) (idle : Bool) : Nat :=
  (((List.range 16).map (fun i => (p.turn + 1 + i) % 16)).find? (p.usable idle)).getD p.turn

/-! ## The retry pool (R371) -/

def strictVc (vc : Nat) : Bool := vc == 2 || vc == 3

/-- Flits of the shared part of the pool. -/
def State.poolShared (s : State) : Nat := 262144 - 2048 * (s.fab.peers.filter (fun x => x.2.sess)).length

/-- Flits that a set holds in the pool for itself, of VC2 and VC3 or of the other channels: a branch of a multicast packet shares
the packet's copy (R377). -/
def Peer.held (p : Peer) (strict : Bool) : Nat := (p.pool.filter (fun f => f.pkt.isNone && !f.fwd && strictVc f.vc == strict)).length

/-- Flits of the shared part that a set takes when it holds `w` flits of VC0, VC1 and VC4, `t` of VC2 and VC3, and `f` that it
forwards: what lies beyond its guarantee, of which 128 flits serve VC2 and VC3 only; the guarantee comes with the session. -/
def shareOf (sess : Bool) (w t f : Nat) : Nat := (if sess then (w - 1920) + (t - (2048 - min w 1920)) else w + t) + f

def Peer.share (p : Peer) : Nat := shareOf p.sess (p.held false) (p.held true) (p.pool.filter (·.fwd)).length

def State.poolTaken (s : State) : Nat :=
  s.fab.peers.foldl (fun n x => n + x.2.share) 0 + s.fab.packets.foldl (fun n x => n + x.n) 0

/-- The pool has room for `n` flits more of a channel of the set, beside `extra` that are on their way into it: no more than
32,768 are unacknowledged, and what its guarantee does not cover fits in the shared part. -/
def State.poolRoom (s : State) (p vc n extra : Nat) (fwd : Bool) : Bool :=
  let x := s.peer p
  let w := x.held false + extra + (if fwd || strictVc vc then 0 else n)
  let t := x.held true + (if !fwd && strictVc vc then n else 0)
  let new_ := shareOf x.sess w t ((x.pool.filter (·.fwd)).length + (if fwd then n else 0))
  decide (x.pool.length + extra + n ≤ 32768) &&
    (decide (new_ ≤ x.share) || decide (s.poolTaken + (new_ - x.share) ≤ s.poolShared))

/-! ## Flits (R367, Table 16-3) -/

def flitType (f : List Byte) : Nat := ofBytes (f.take 4) / 2 ^ 30 % 4
def flitVc (f : List Byte) : Nat := ofBytes (f.take 4) / 2 ^ 27 % 8
def flitPhase (f : List Byte) : Bool := bitOf 26 (ofBytes (f.take 4))
def flitSop (f : List Byte) : Bool := bitOf 25 (ofBytes (f.take 4))
def flitEop (f : List Byte) : Bool := bitOf 24 (ofBytes (f.take 4))
def flitDst (f : List Byte) : Nat := ofBytes (f.take 4) / 2 ^ 18 % 64
def flitSsn (f : List Byte) : Nat := ofBytes (f.take 4) % 65536
def flitOk (f : List Byte) : Bool := f.length == 72 && ofBytes (f.drop 68) == crc32 (f.take 68)

/-- A data flit. -/
def dataFlitOf (vc : Nat) (phase sop eop : Bool) (dst ssn : Nat) (payload : List Byte) : List Byte :=
  let w := vc * 2 ^ 27 + phase.toNat * 2 ^ 26 + sop.toNat * 2 ^ 25 + eop.toNat * 2 ^ 24 + dst % 64 * 2 ^ 18 + ssn
  let b := toBytes 4 w ++ payload
  b ++ toBytes 4 (crc32 b)

/-- The payload of the next flit under the set's key: what it holds is encrypted (R368). -/
def Peer.payload (p : Peer) (hop : Nat) : List Byte := (List.range 64).map (Config.flitPayload hop p.ctr)

/-- Key phase of the sending direction towards `p` (R105, R106). -/
def State.keyPhase (s : State) (p : Nat) : Bool := (s.link (34 + 2 * p)).phase

/-- Sends a flit in the set to `hop` with the next stripe sequence number (R368); one that is forwarded, `old`, keeps its
payload and its key phase, since the relay does not decrypt it (R373). -/
def State.sendFlit (s : State) (hop vc dst : Nat) (sop eop : Bool) (old : List Byte) (pkt : Option Nat) : State :=
  let phase := s.keyPhase hop
  s.modPeer hop (fun p =>
    let path := p.nextPath s.power.pathsIdle
    let bytes := if old.isEmpty then dataFlitOf vc phase sop eop dst p.nextSsn (p.payload hop)
      else dataFlitOf vc (flitPhase old) sop eop dst p.nextSsn ((old.drop 4).take 64)
    { p with
      turn := path, nextSsn := (p.nextSsn + 1) % 65536, ctr := if old.isEmpty then p.ctr + 1 else p.ctr
      pool := p.pool ++ [{ ssn := p.nextSsn, vc := vc, path := path, sent := s.now 1, bytes := bytes, pkt := pkt, fwd := !old.isEmpty }] })

/-! ## The egress of VC0 and VC1 (R374, R375, R377, R378, R390) -/

/-- Storage reserved for the response (R375). -/
def RemReq.replySize (r : RemReq) : Nat :=
  match r.kind with
  | .load | .unitRead | .read => r.size
  | .atomic => 8
  | .rop => 64
  | _ => 8

def RemReq.sameWindow (a b : RemReq) : Bool := a.peer == b.peer && a.sluice == b.sluice && a.vc == b.vc

/-- A request may be sent: the session is open, its window is open (R378) and its response has storage
(R375). -/
def State.maySend (s : State) (r : RemReq) : Bool :=
  let rs := s.fab.reqs
  let u := ((rs.find? r.sameWindow).map (·.num)).getD r.num
  (s.peer r.peer).sess && decide ((r.num + 65536 - u) % 65536 < 1024) &&
    decide (((rs.filter (·.sent)).foldl (fun n x => n + x.replySize) 0) + r.replySize ≤ 4194304)

/-- The items that have a set with room for them, each kind in the order in which it came; `extra` flits are on their way into
the set to `hop`. What is forwarded goes in the direct set of its destination (R373). -/
def State.outgoing (s : State) (hop extra : Nat) : List Outgoing :=
  let at_ := fun (o : Outgoing) =>
    let fwd := !o.flits.isEmpty
    match (if fwd then (if (s.peer o.dst).carries o.vc then some o.dst else none) else s.nextHop o.dst o.vc) with
    | some h => if s.poolRoom h o.vc o.n (if h = hop then extra else 0) fwd then [{ o with hop := h }] else []
    | none => []
  (s.fab.outs.map at_).flatten ++
  ((s.fab.reqs.filter (fun r => !r.sent && s.maySend r)).map (fun r =>
    at_ { src := .req r.id, dst := r.peer, vc := r.vc, cls := r.cls, n := if r.size ≤ 16 then 1 else 2 })).flatten ++
  (s.fab.packets.map (fun p => ((p.todo.filter (fun d => (s.peer d).sess)).map (fun d =>
    at_ { src := .branch p.id, dst := d, cls := p.cls, n := p.n })).flatten)).flatten

/-- Weight of a class (R390): 15 for core requests and ROPs. -/
def clsWeight (wgt c : Nat) : Nat := if c = 8 then 15 else wgt / 16 ^ c % 16

/-- The next of a set's VC1 items by deficit round robin (R390), with the set after it. The class in service goes on
while its deficit lasts; the next receives its quantum of 16 flits for each unit of its weight. -/
def Peer.nextVc1 (p : Peer) (wgt : Nat) (xs : List Outgoing) : Option (Outgoing × Peer) :=
  let first := fun (c : Nat) => xs.find? (fun o => o.cls == c)
  let order := ((List.range 9).map (fun i => (p.cls + 1 + i) % 9)).filter (fun c => (first c).isSome)
  let left := p.deficit.filter (fun d => order.contains d.1)
  let serve := fun (c gain : Nat) => (first c).map (fun o =>
    (o, { p with cls := c, deficit := Tbl.set left c (Tbl.get 0 left c + gain - o.n) }))
  match first p.cls with
  | some o =>
    if clsWeight wgt p.cls ≠ 0 ∧ o.n ≤ Tbl.get 0 left p.cls then serve p.cls 0
    else match order.find? (fun c => clsWeight wgt c != 0) with
      | some c => serve c (16 * clsWeight wgt c)
      | none => serve p.cls o.n
  | none =>
    match order.find? (fun c => clsWeight wgt c != 0), order.head? with
    | some c, _ => serve c (16 * clsWeight wgt c)
    | none, some c => serve c (((first c).map (·.n)).getD 0)
    | none, none => none

/-- An item no longer waits: a request is sent once, a branch with its own numbers in its own set (R377). -/
def State.takeOut (s : State) (o : Outgoing) : State :=
  let f := s.fab
  { s with fab := match o.src with
    | .req i => { f with reqs := f.reqs.map (fun x => if x.id = i then { x with sent := true } else x) }
    | .branch i => { f with packets := f.packets.map (fun x => if x.id = i then { x with todo := x.todo.filter (· != o.dst) } else x) }
    | .wait i => { f with outs := f.outs.filter (fun x => x.src != .wait i) } }

def OutSrc.packet : OutSrc → Option Nat
  | .branch i => some i
  | _ => none

/-- Sends an item's next flit, with what is left of it. -/
def State.sendNext (s : State) (o : Outgoing) : Option Outgoing × State :=
  (if o.n ≤ 1 then none else some { o with n := o.n - 1, first := false, flits := o.flits.tail },
    s.sendFlit o.hop o.vc o.dst o.first (decide (o.n ≤ 1)) (o.flits.headD []) o.src.packet)

def State.sendWhole (s : State) (o : Outgoing) : Nat → State
  | 0 => s
  | n + 1 =>
    match s.sendNext o with
    | (none, s) => s
    | (some o, s) => s.sendWhole o n

/-- The set's side of a packet of VC0 or VC1 on its way out, or its next one. -/
def State.nextWeak (s : State) (hop : Nat) (cur : Option Outgoing) (pick : Peer → Option (Outgoing × Peer)) : Option Outgoing × State :=
  match cur with
  | some o => (some o, s)
  | none =>
    match pick (s.peer hop) with
    | none => (none, s)
    | some (o, p) => (some o, (s.setPeer hop p).takeOut o)

/-- The egress of the set to `hop` (R374): VC3, VC2 and VC4 in strict priority, then VC0 and VC1 flit by flit, `c0` and `c1` being
their packets on the way. A replay goes before all of these: it is sent where it falls due. -/
def State.pumpSet (hop : Nat) : Nat → Option Outgoing → Option Outgoing → State → State
  | 0, _, _, s => s
  | fuel + 1, c0, c1, s =>
    let left := fun (c : Option Outgoing) => (c.map (·.n)).getD 0
    let xs := (s.outgoing hop (left c0 + left c1)).filter (fun o => o.hop == hop)
    match [3, 2, 4].findSome? (fun vc => xs.find? (fun o => o.vc == vc)) with
    | some o => ((s.takeOut o).sendWhole o o.n).pumpSet hop fuel c0 c1
    | none =>
      let (c0, s) := s.nextWeak hop c0 (fun p => (xs.find? (fun o => o.vc == 0)).map (·, p))
      let ys := if c0.isSome then (s.outgoing hop (left c0 + left c1)).filter (fun o => o.hop == hop) else xs
      let (c1, s) := s.nextWeak hop c1 (fun p => p.nextVc1 s.fab.wgt (ys.filter (fun o => o.vc == 1)))
      match c0, c1 with
      | none, none => s
      | some o, none => (fun r => r.2.pumpSet hop fuel r.1 none) ((s.modPeer hop (fun p => { p with alt := false })).sendNext o)
      | none, some o => (fun r => r.2.pumpSet hop fuel none r.1) ((s.modPeer hop (fun p => { p with alt := true })).sendNext o)
      | some a, some b =>
        if (s.peer hop).alt then (fun r => r.2.pumpSet hop fuel r.1 (some b)) ((s.modPeer hop (fun p => { p with alt := false })).sendNext a)
        else (fun r => r.2.pumpSet hop fuel (some a) r.1) ((s.modPeer hop (fun p => { p with alt := true })).sendNext b)

/-- Sends what may go and finds a set, one set after another; the rest waits at the source. -/
def State.pump : Nat → State → State
  | 0, s => s
  | n + 1, s =>
    let xs := s.outgoing 64 0
    match xs.head? with
    | none => s
    | some x => (s.pumpSet x.hop (xs.foldl (fun k o => k + o.n) 0) none none).pump n

def State.pumpReqs (s : State) : State := s.pump (s.outgoing 64 0).length

/-- Something for device `dst` on a channel comes to the egress: `n` flits of the device's own, or a packet to be forwarded. -/
def State.queueOut (s : State) (dst vc n : Nat) (flits : List (List Byte)) : State :=
  let f := s.fab
  State.pumpReqs { s with fab := { f with
    nextReq := f.nextReq + 1, outs := f.outs ++ [{ src := .wait f.nextReq, dst := dst, vc := vc, n := n, flits := flits }] } }

/-- A packet all of whose branches have been sent and acknowledged leaves the pool, and its sender counts it complete
(R377). -/
def State.settlePackets (s : State) : State :=
  let held := fun (i : Nat) => s.fab.peers.any (fun p => p.2.pool.any (fun f => f.pkt == some i))
  { s with fab := { s.fab with packets := s.fab.packets.filter (fun x => !x.todo.isEmpty || held x.id) } }

/-- Confluence sends a packet of `n` flits to each of `dsts`, with a branch for each (R377); `none` where the pool has no
room for its copy. -/
def State.multicast (s : State) (coll cls n : Nat) (dsts : List Nat) : Option State :=
  if s.poolShared < s.poolTaken + n then none
  else
    let p : Packet := { id := s.fab.nextReq, coll := coll, cls := cls, n := n, todo := dsts }
    some ({ s with fab := { s.fab with nextReq := s.fab.nextReq + 1, packets := s.fab.packets ++ [p] } }).pumpReqs

/-- Replays flits of the set (R372): each keeps its number, is encrypted afresh unless it is forwarded, and goes on the next live
path. With no live path it waits, marked. -/
def State.replay (s : State) (p : Nat) (which : PoolFlit → Bool) : State :=
  let x := s.peer p
  let phase := s.keyPhase p
  let step := fun (acc : Peer × Nat × List PoolFlit) (f : PoolFlit) =>
    if which f then
      if acc.1.live = 0 then (acc.1, acc.2.1, acc.2.2 ++ [{ f with replay := true }])
      else
        let path := acc.1.nextPath s.power.pathsIdle
        let bytes := if f.fwd then f.bytes
          else dataFlitOf f.vc phase (flitSop f.bytes) (flitEop f.bytes) (flitDst f.bytes) f.ssn (acc.1.payload p)
        ({ acc.1 with turn := path, ctr := if f.fwd then acc.1.ctr else acc.1.ctr + 1 }, acc.2.1 + 1,
          acc.2.2 ++ [{ f with path := path, sent := s.now 1, replay := false, bytes := bytes }])
    else (acc.1, acc.2.1, acc.2.2 ++ [f])
  let r := x.pool.foldl step (x, 0, [])
  let s := s.setPeer p { r.1 with pool := r.2.2 }
  { s with fab := { s.fab with replays := satAdd 64 s.fab.replays r.2.1 } }

/-- Flits of channel `vc` that are not acknowledged on the direct set to `p` are sent again in the relay's set (R373). They
stay in the direct set, whose numbers have no gap when it revives; a branch of a packet goes on as its copy. The copies are
replays, which R371 holds back nowhere: log entry 129. -/
def State.sendByRelay (s : State) (p vc : Nat) : State :=
  match s.relayFor p vc with
  | none => s
  | some q =>
    let old := (s.peer p).pool.filter (·.vc == vc)
    let s := s.modPeer p (fun z => { z with pool := z.pool.map (fun f => if f.vc = vc then { f with pkt := none } else f) })
    old.foldl (fun s f =>
      s.sendFlit q vc (flitDst f.bytes) (flitSop f.bytes) (flitEop f.bytes) (if f.fwd then f.bytes else []) f.pkt) s

/-- Shedding is decided afresh after a change of a set's LCNT (R376): VC1 below 4 paths and VC4 below 3, the set being empty
below 2; channels return in the reverse order. The set's new state is to be announced (R373). -/
def State.reshed (s : State) (p : Nat) : State :=
  let x := s.peer p
  let shed1 := decide (x.lcnt < 4)
  let shed4 := decide (x.lcnt < 3)
  let s := s.setPeer p { x with shed1 := shed1, shed4 := shed4 }
  let s := { s with fab := { s.fab with annDue := true } }
  let note := fun (old new_ : Bool) (vc : Nat) (s : State) =>
    if old == new_ then s else s.fabricEvent (if new_ then 0x05 else 0x06) p 0 0 vc x.live
  if shed4 then note x.shed4 shed4 4 (note x.shed1 shed1 1 s) else note x.shed1 shed1 1 (note x.shed4 shed4 4 s)

/-- Relaying is decided afresh (R373), with its events. A channel that becomes relayed has its flits sent again. -/
def State.reroute (s : State) (p : Nat) : State :=
  let x := s.peer p
  let missing := [0, 1, 2, 3, 4].filter (fun vc => !x.carries vc)
  let far := missing.filter (fun vc => (s.relayFor p vc).isSome)
  let q := missing.findSome? (fun vc => s.relayFor p vc)
  let s := s.modPeer p (fun z => { z with relay := q, relayed := (far.map (2 ^ ·)).foldl (· + ·) 0 })
  let s := (far.filter (fun vc => !bitOf vc x.relayed)).foldl (fun s vc => s.sendByRelay p vc) s
  match x.relay, q with
  | none, some r => s.fabricEvent 0x07 p 0 0 r x.live
  | some r, none => s.fabricEvent 0x08 p 0 0 r x.live
  | _, _ => s

/-- A change of one set may give or take a relay of every other (R373). -/
def State.rerouteAll (s : State) : State := (s.fab.peers.map (·.1)).foldl State.reroute s

/-- Devices of a collective's ranks (R385). -/
def collRanks (b : List Nat) : List Nat :=
  (List.range (bitsOf 54 48 (b.getD 7 0))).map (fun i => b.getD (16 + i / 8) 0 / 256 ^ (i % 8) % 256)

/-- A rank with neither a direct route nor a relay. -/
def State.lostRank (s : State) (b : List Nat) : Option Nat :=
  (collRanks b).findIdx? (fun p => p != s.fab.devno && (s.nextHop p 1).isNone)

/-- The device of that rank. -/
def State.lostPeer (s : State) (b : List Nat) : Option Nat := (s.lostRank b).map (fun r => (collRanks b).getD r 0)

/-- A hold that has come from a device within the last 50 µs stops the limits of what waits for it (R380). -/
def State.holding (s : State) (p : Nat) : Bool :=
  match (s.peer p).hold with
  | some h => decide (s.now 1 < h + 50000)
  | none => false

/-- When a limit for device `p` that starts now begins to advance: once the hold in force is over. -/
def State.limitStart (s : State) (p : Nat) : Nat :=
  match (s.peer p).hold with
  | some h => max (s.now 1) (h + 50000)
  | none => s.now 1

/-- The routes of requests and collectives: one with neither a direct route nor a relay starts or keeps
its limit (R380, R391). What has found a route again may go. -/
def State.routeReqs (s : State) : State :=
  State.pumpReqs { s with fab := { s.fab with
      reqs := s.fab.reqs.map (fun r =>
        if (s.nextHop r.peer r.vc).isSome then { r with since := none }
        else { r with since := some (r.since.getD (s.limitStart r.peer)) })
      colls := s.fab.colls.map (fun c =>
        match s.lostPeer c.block with
        | none => { c with since := none }
        | some p => { c with since := some (c.since.getD (s.limitStart p)) }) } }

/-- Paths of a mask die in the set towards `p` (R370, R372): they must be trained again. -/
def State.killPaths (s : State) (p mask : Nat) : State :=
  let x := s.peer p
  let dead := x.live &&& mask
  let s := s.setPeer p { x with live := x.live - dead, trained := x.trained.filter (fun e => !bitOf e.1 mask) }
  if dead = 0 then s else (s.reshed p).replay p (fun f => bitOf f.path dead)

def State.killEverywhere (s : State) (mask : Nat) : State :=
  ((s.fab.peers.map (·.1)).foldl (fun s p => s.killPaths p mask) s).rerouteAll.routeReqs

/-- One path dies, with its event: COUNT is the flits to replay (R370, R393). One that is dead already is only to be trained
again. -/
def State.killPath (s : State) (p path : Nat) : State :=
  let x := s.peer p
  let n := (x.pool.filter (·.path == path)).length
  let s := s.killPaths p (2 ^ path)
  if bitOf path x.live then (s.rerouteAll.routeReqs).fabricEvent 0x03 p path 0 n (s.peer p).live else s

/-- ELM_LOSS_OF_LIGHT (R365): every path on the module's wavelengths is dead in every set; one record
stands for them (R393). -/
def execElmLossOfLight (k : Nat) (s : State) : Res :=
  if k < 4 then
    let sets := (s.fab.peers.filter (fun p => p.2.live &&& modulePaths k != 0)).length
    let s := { s with fab := { s.fab with elmlos := s.fab.elmlos ||| 2 ^ k } }
    .next ((s.killEverywhere (modulePaths k)).fabricEvent 0x01 0 0 k sets 0)
  else .next s

/-- A module lights its paths again: they are retrained (R365, R370). -/
def State.retrain (s : State) (k : Nat) : State :=
  let now := s.now 1
  { s with fab := { s.fab with peers := s.fab.peers.map (fun p =>
      (p.1, { p.2 with
        trained := (List.range 16).foldl (fun t i => if pathModule i = k then t.set i now else t) p.2.trained })) } }

/-- The module is enabled and lit. -/
def State.lit (s : State) (k : Nat) : Bool := bitOf k s.fab.elmen && !bitOf k s.fab.elmlos

def execElmLightReturn (k : Nat) (s : State) : Res :=
  if k < 4 && bitOf k s.fab.elmlos then
    let s := { s with fab := { s.fab with elmlos := s.fab.elmlos - 2 ^ k } }
    .next ((if bitOf k s.fab.elmen then s.retrain k else s).fabricEvent 0x02 0 0 k 0 0)
  else .next s

/-- A module is disabled: its paths die, each with its event (R365, R393). -/
def State.darken (s : State) (k : Nat) : State :=
  let dead := (s.fab.peers.map (fun p => ((List.range 16).filter (fun i => pathModule i == k && bitOf i p.2.live)).map (fun i =>
    (p.1, i, (p.2.pool.filter (·.path == i)).length)))).flatten
  dead.foldl (fun s d => s.fabricEvent 0x03 d.1 d.2.1 0 d.2.2 (s.peer d.1).live) (s.killEverywhere (modulePaths k))

/-- Writes ELMEN (R365, R366). -/
def State.writeElmen (s : State) (m : Nat) : State :=
  let old := s.fab.elmen
  let s := { s with fab := { s.fab with elmen := m % 16 } }
  [0, 1, 2, 3].foldl (fun s k =>
    if bitOf k old && !bitOf k m then s.darken k
    else if !bitOf k old && bitOf k m && !bitOf k s.fab.elmlos then s.retrain k else s) s

/-- The register at offset 0x00 of Table 16-1: EN, ELMEN, and DEVNO while EN is 0. -/
def execElmenWrite (v : DWord) (s : State) : Res :=
  let n := v.toNat
  let f := s.fab
  let s := { s with fab := { f with en := bitOf 31 n, devno := if f.en then f.devno else bitsOf 5 0 n } }
  .next (s.writeElmen (bitsOf 23 20 n))

/-- PATH_REJOIN (R370): 10 ms of clean idle flits after retraining. -/
def execPathRejoin (peer path : Nat) (s : State) : Res :=
  let p := s.peer peer
  match p.trained.find path with
  | none => .next s
  | some t =>
    if s.hasSet peer && decide (path < 16) && s.fab.en && s.lit (pathModule path) && !bitOf path p.live && decide (t + 10000000 ≤ s.now 1) then
      let s := s.setPeer peer { p with live := p.live + 2 ^ path, crcFails := p.crcFails.set path [] }
      let s := s.replay peer (·.replay)
      .next ((s.fabricEvent 0x04 peer path 0 0 (s.peer peer).live).reshed peer).rerouteAll.routeReqs
    else .next s

/-! ## Flits that come -/

/-- Number `a` lies before `b` in the 16-bit order. -/
def before16 (a b : Nat) : Bool := decide (0 < (b + 65536 - a) % 65536) && decide ((b + 65536 - a) % 65536 < 32768)

/-- A flit that fails its CRC is discarded, with a NAK that names its SSN (R368): eight on a path within 1 ms kill it, and a path
that is to rejoin begins its 10 ms again (R370). -/
def State.crcFail (s : State) (peer path ssn : Nat) : State :=
  let now := s.now 1
  let p := s.peer peer
  let fs := now :: (p.crcFails.get [] path).filter (fun t => decide (now < t + 1000000))
  let again := !bitOf path p.live && (p.trained.find path).isSome
  let s := s.setPeer peer { p with
    crcFails := p.crcFails.set path fs, trained := if again then p.trained.set path now else p.trained, nak := some ssn }
  if 8 ≤ fs.length then s.killPath peer path else s

/-- A whole packet has come (R368): one for another device is forwarded as it is (R373); of one for this device the tag is checked.
What it asks for comes as an event of its own (SLUICE_REQUEST and the others). A packet whose tag fails is discarded, to be
replayed once: NAKs ask for its flits. A second failure counts under R99. -/
def State.packetIn (s : State) (peer : Nat) (fs : List (List Byte)) (second : Bool) : State :=
  let f := fs.headD []
  if flitDst f ≠ s.fab.devno then s.queueOut (flitDst f) (flitVc f) fs.length fs
  else if Config.packetTag peer fs then s
  else
    let s := if second then s else s.modPeer peer (fun p => { p with
      bad := p.bad ++ [{ ssns := fs.map flitSsn }], nak := (fs.head?).map flitSsn })
    { s with agenda := s.agenda ++ [.linkTagFail (35 + 2 * peer) second] }

/-- The next flit of a channel: it begins a packet, or goes on with the one begun; with the last the packet is whole. Flits of
no packet, and packets of more than 16 flits, are discarded. -/
def State.flitIn (s : State) (peer : Nat) (f : List Byte) : State :=
  let box := (s.peer peer).inbox
  let begun := box.filter (fun x => flitVc x == flitVc f)
  let rest := box.filter (fun x => flitVc x != flitVc f)
  let cur := if flitSop f then [f] else if begun.isEmpty then [] else begun ++ [f]
  let whole := flitEop f && !cur.isEmpty && decide (cur.length ≤ 16)
  let s := s.modPeer peer (fun p => { p with inbox := if flitEop f || decide (16 < cur.length) then rest else rest ++ cur })
  if whole then s.packetIn peer cur false else s

/-- Delivers the flits that have come, of each channel in SSN order (R368). -/
def State.deliver (s : State) (peer : Nat) : Nat → State
  | 0 => s
  | n + 1 =>
    let p := s.peer peer
    match p.stash.find p.want with
    | none => s
    | some f =>
      ((s.setPeer peer { p with want := (p.want + 1) % 65536, stash := p.stash.del p.want }).flitIn peer f).deliver peer n

/-- A flit of a packet that failed its tag comes again; with the last of them the packet is checked once more. -/
def State.redone (s : State) (peer : Nat) (b : BadPacket) (flit : List Byte) : State :=
  let b' := { b with got := b.got.set (flitSsn flit) flit }
  let put := fun (l : List BadPacket) => s.modPeer peer (fun p => { p with bad := l })
  let others := (s.peer peer).bad.filter (fun x => x.ssns != b.ssns)
  match b.ssns.mapM b'.got.find with
  | none => put (b' :: others)
  | some fs => (put others).packetIn peer fs true

/-- DATA_FLIT (R367, R368). Until the session is open a set carries VC3 only (R106). Every flit that passes its CRC is
acknowledged by the lowest number not yet received. -/
def execDataFlit (peer path : Nat) (flit : List Byte) (s : State) : Res :=
  if !s.fab.en ∨ 16 ≤ path then .next s
  else if !flitOk flit then .next (s.crcFail peer path (flitSsn flit))
  else if flitType flit ≠ 0 ∨ 5 ≤ flitVc flit ∨ (flitVc flit ≠ 3 ∧ !(s.peer peer).sess) then .next s
  else
    let p := s.peer peer
    let n := flitSsn flit
    let ack := fun (s : State) => s.modPeer peer (fun p => { p with ack := p.want })
    match p.bad.find? (fun b => b.ssns.contains n && (b.got.find n).isNone) with
    | some b => .next (ack (s.redone peer b flit))
    | none =>
      if before16 n p.want || (p.stash.find n).isSome then
        .next (ack { s with fab := { s.fab with dups := satAdd 64 s.fab.dups 1 } })
      else .next (ack ((s.setPeer peer { p with stash := p.stash.set n flit }).deliver peer 32768))

/-- ACK_FLIT (R368, R372): everything before `ssn` leaves the pool; a NAK has its flit replayed. -/
def execAckFlit (peer ssn : Nat) (nak : Bool) (s : State) : Res :=
  if nak then .next (s.replay peer (fun f => f.ssn == ssn))
  else
    .next ((s.modPeer peer (fun p => { p with pool := p.pool.filter (fun f => !before16 f.ssn ssn) })).settlePackets).pumpReqs

/-- REPLAY_TIMEOUT (R372): 20 µs after it was sent. -/
def execReplayTimeout (peer ssn : Nat) (s : State) : Res :=
  .next (s.replay peer (fun f => f.ssn == ssn && decide (f.sent + 20000 ≤ s.now 1)))

/-- PATH_CONTROL_FLIT (R369), of a flit whose CRC and tag have verified: kind 0 a path has trained, 1 a path's training has failed
or its light is lost at the far end (R370), 2 the state of the peer's set towards device arg[5:0] (live paths [10:6], VC1 shed
[11], VC4 shed [12]), 3 a hold message (R380), 4 a relay announcement, which changes nothing here (log entry 136). -/
def execPathControlFlit (peer kind arg : Nat) (s : State) : Res :=
  let now := s.now 1
  let p := s.peer peer
  if !s.fab.en || !s.hasSet peer then .next s
  else match kind with
    | 0 => .next (s.setPeer peer { p with trained := p.trained.set (arg % 16) now })
    | 1 => .next (s.killPath peer (arg % 16))
    | 2 =>
      let a := (bitsOf 10 6 arg, bitOf 11 arg, bitOf 12 arg)
      let s := { s with fab := { s.fab with announced := s.fab.announced.set (64 * peer + arg % 64) a } }
      .next (s.reroute (arg % 64)).rerouteAll.routeReqs
    | 3 =>
      let ext := match p.hold with
        | some h => min 50000 (now - h)
        | none => 50000
      let s := s.setPeer peer { p with hold := some now }
      .next { s with fab := { s.fab with
        reqs := s.fab.reqs.map (fun r => if r.peer = peer then { r with since := r.since.map (· + ext) } else r)
        colls := s.fab.colls.map (fun c => if s.lostPeer c.block = some peer then { c with since := c.since.map (· + ext) } else c) } }
    | _ => .next s

/-- SET_ANNOUNCEMENT (R373): every 100 µs, and on every change, the states of the device's sets go out. -/
def execSetAnnouncement (s : State) : Res :=
  if s.fab.en && (s.fab.annDue || decide (s.fab.lastAnn + 100000 ≤ s.now 1)) then
    .next { s with fab := { s.fab with lastAnn := s.now 1, annDue := false } }
  else .next s

/-- A request of device `p` is pending on this one: a Sluice holds it, or keeps it waiting for a line. -/
def State.pendingFrom (s : State) (p : Nat) : Bool := s.fab.wins.any (fun x => x.1 % 128 / 2 == p && !x.2.held.isEmpty)

/-- HOLD_MESSAGE (R380): while a die is in debug halt, to each peer with requests pending, every 10 µs. -/
def execHoldMessage (peer : Nat) (s : State) : Res :=
  let p := s.peer peer
  if (List.range 14).any (fun d => (s.die d).halted) && p.sess && s.pendingFrom peer && decide (p.lastHold + 10000 ≤ s.now 1) then
    .next (s.setPeer peer { p with lastHold := s.now 1 })
  else .next s

/-! ## Requests to peers (R375, R378) -/

/-- The Sluice of a peer's address (R378): SPACE is bit 40. -/
def sluiceOf (pa : Nat) : Nat :=
  if bitOf 40 pa then
    let sl := pa % 2 ^ 40 / 2 ^ 21
    3 * (sl / 16 % 4) + sl % 16 % 3
  else pa / 4096 % 12

/-- A new request: it takes the next operation sequence number of its window (R378). -/
def State.newRequest (s : State) (r : RemReq) : State :=
  let sl := sluiceOf r.addr
  let key := 32 * r.peer + 2 * sl + r.vc
  let n := s.fab.seqs.get 0 key
  let r := { r with id := s.fab.nextReq, sluice := sl, num := n
                    since := if (s.nextHop r.peer r.vc).isSome then none else some (s.limitStart r.peer) }
  let f := s.fab
  ({ s with fab := { f with
      nextReq := f.nextReq + 1, seqs := f.seqs.set key ((n + 1) % 65536), reqs := f.reqs ++ [r] } }).pumpReqs

/-- The request is over; others may now go. -/
def State.dropRequest (s : State) (id : Nat) : State :=
  ({ s with fab := { s.fab with reqs := s.fab.reqs.filter (fun r => r.id != id) } }).pumpReqs

/-- A request may be abandoned (R380): 100 ms without a route, holds apart. -/
def State.abandonable (s : State) (r : RemReq) : Bool :=
  match r.since with
  | none => false
  | some t => !s.holding r.peer && decide (t + 100000000 ≤ s.now 1)

end Sys2Proof.Machine
end

