-- ==== Sys2Proof/Machine/Access.lean ====
section
/-! DEFINITION. Where accesses are performed (R308 to R317): the return of a load, the visibility of a
store, an atomic's line operation, and the order the axioms keep among a rill's accesses. -/
namespace Sys2Proof.Machine

/-- Key of a request in its access: the lane, plus 64 for the second half (R282). -/
def LaneReq.key (q : LaneReq) : Nat := if q.off = 0 then q.lane else 64 + q.lane

def LaneReq.isLocal (q : LaneReq) : Bool := decide (4 ≤ q.tgt)

/-- Two requests touch a common byte. -/
def LaneReq.overlaps (p q : LaneReq) : Bool :=
  p.tgt == q.tgt && p.peer == q.peer && decide (p.pa < q.pa + q.n) && decide (q.pa < p.pa + p.n)

def Access.performed (a : Access) : Bool := a.reqs.all (·.done)

/-- A fence of rill `r` that precedes place `seq` and has not completed (R305). -/
def Rill.fencedBefore (r : Rill) (seq : Nat) : Bool :=
  r.waits.any (fun w => decide (w.seq < seq) && (match w.ins with
    | .fence .. => true
    | _ => false))

/-- The kept order (R283, R290, R305, R313, R316, R317) between an access of rill `r` and the accesses and fences before
it: request `q` may be performed. -/
def Rill.inOrder (r : Rill) (a : Access) (q : LaneReq) : Bool :=
  let earlier := r.accs.filter (fun e => decide (e.seq < a.seq))
  earlier.all (fun e =>
    (!e.acq || e.performed) &&
    (!a.rel || !e.holds a.mask) &&
    e.reqs.all (fun p => p.done ||
      (!((e.uni || a.uni || p.lane == q.lane) && p.overlaps q) && !(p.isLocal && q.isLocal)))) &&
  !r.fencedBefore a.seq && !r.heldBlocks a

/-- It is in order, and no lower lane of its own access has still to write one of its bytes (R282). -/
def Rill.mayPerform (r : Rill) (a : Access) (q : LaneReq) : Bool :=
  r.inOrder a q && a.reqs.all (fun p => p.done || !(decide (p.key < q.key) && p.overlaps q && a.isWrite))

/-- Bytes of a request's place for targets of the package and for local store. -/
def State.reqBytes (s : State) (k : Nat) (q : LaneReq) : List Byte :=
  if q.tgt < 4 then s.peek q.tgt q.pa q.n else memRead (s.room (s.localRoom k (q.tgt == tgtPair))).mem q.pa q.n

/-- Where the frame of a rill's partner group, once that is saved, keeps offset `o` of its local store (R277, Table 18-6). -/
def State.partnerFrame (s : State) (k o : Nat) : Option Nat :=
  let p := s.group (s.group (s.rill k).group).partner
  if p.st = .saved then p.frame.map (fun f => s.traps.cxpbase + 0x400000 * f + 0x160000 + o) else none

/-- Writes local store at offset `o` of the rill's own room, or of its partner's; a partner group that has been saved
keeps the bytes in its frame as well (R277, Table 18-6). -/
def State.localWrite (s : State) (k : Nat) (pair : Bool) (o : Nat) (bs : List Byte) : State :=
  let s := s.modRoom (s.localRoom k pair) (fun x => { x with mem := memWrite x.mem o bs })
  match s.partnerFrame k o with
  | some a => if pair then s.homePut a bs else s
  | none => s

def State.reqWrite (s : State) (k : Nat) (q : LaneReq) (bs : List Byte) : State :=
  if q.tgt < 4 then s.poke q.tgt q.pa bs else s.localWrite k (q.tgt == tgtPair) q.pa bs

/-! ## The access in its rill -/

def State.access (s : State) (k seq : Nat) : Option Access := (s.rill k).accs.find? (fun a => a.seq == seq)

def State.setAccess (s : State) (k : Nat) (a : Access) : State :=
  s.modRill k (fun r => { r with accs := r.accs.map (fun b => if b.seq = a.seq then a else b) })

/-- The access leaves its rill and its counter falls (Table 7-2). -/
def State.endAccess (s : State) (k : Nat) (a : Access) : State :=
  let isLoad := a.kind = .ld ∨ a.kind = .atom ∨ a.kind = .sidecar
  s.modRill k (fun r => { r with
    accs := r.accs.filter (fun b => b.seq != a.seq)
    nld := if isLoad then r.nld - 1 else r.nld
    nst := if isLoad then r.nst else r.nst - 1 })

/-- A trap of an access that has issued: the record is that of its own issue. -/
def State.accessTrap (s : State) (k : Nat) (a : Access) (cause fcause addr aux : Nat) : State :=
  if isCp k then s.failPrologue (k - 0x10000) 0x0A (if cause = 0x11 then some addr else none)
  else s.park k { cause := cause, fcause := fcause, pc := a.pc, resume := a.pc, word := a.word
                  addr := BitVec.ofNat 64 addr, cohort := a.cohort, aux := BitVec.ofNat 32 aux }

/-- The value of a lane: its request, or its two halves. -/
def Access.laneValue (a : Access) (l : Nat) : Nat :=
  (a.reqs.filter (fun q => q.lane == l)).foldl (fun v q => v + q.data * 2 ^ (8 * q.off)) 0

/-- Writes the destination registers (R286, R288, R291), and FADDB's outcome (R293). -/
def State.writeBack (s : State) (k : Nat) (a : Access) : State :=
  let part := fun (v i : Nat) => BitVec.ofNat 32 (v / 2 ^ (32 * i))
  let s := (List.range a.nreg).foldl (fun s i =>
    if a.uni then s.kwrite k (a.dst + i) (part (a.laneValue 0) i)
    else s.vwrite k (a.dst + i) false (a.lanes.map (fun l => (l, part (a.laneValue l) i)))) s
  if a.kind = .atom ∧ a.sub = 9 then
    s.mapThreads k a.lanes (fun l t => t.setGuard a.guard (a.reqs.any (fun q => q.lane == l && q.ok)))
  else s

/-- An access whose requests are all done ends: with its results, or with the trap that it has met (R281,
R378, R380). A parked rill's trap is taken once it is unparked; that of a dropped rill is pending in its saved context, and
is taken at its first issue (R427). One of a die that has been reset just ends (Table 14-7). -/
def State.finish (s : State) (k seq : Nat) : State :=
  match s.access k seq with
  | none => s
  | some a =>
    let r := s.rill k
    let bad := a.lost || !a.refused.isEmpty || a.poison
    if !a.performed || (bad && r.trap.isSome && !r.dropped) then s
    else
      let t := s.endAccess k a
      if leftBase ≤ k ∨ (!isCp k && !r.live) then t
      else if bad && r.dropped then
        t.modRill k (fun r => { r with pend := r.pend.or (some (if a.lost then 0x19 else if a.poison then 0x12 else 0x11)) })
      else if a.lost then t.accessTrap k a 0x19 0 0 0
      else match a.refused with
        | l :: ls =>
          let lane := ls.foldl min l
          let va := ((a.reqs.find? (fun q => q.lane == lane)).map (·.va)).getD 0
          t.accessTrap k a 0x11 5 va lane
        | [] =>
          if a.poison then t.accessTrap k a 0x12 0 0 0
          else
            let t := if a.isWrite && a.kind != .atom then t else t.writeBack k a
            if a.acq then t.acquireL1 k a.mask else t

/-- Replaces the requests of an access by `f`. -/
def Access.mapReqs (a : Access) (f : LaneReq → LaneReq) : Access := { a with reqs := a.reqs.map f }

/-- The request goes to the peer, unless it has gone (R380). -/
def State.sendLane (s : State) (k : Nat) (a : Access) (q : LaneReq) : State :=
  if s.fab.reqs.any (fun r => r.rill == k && r.acc == a.seq && r.lane == q.key && (r.kind == .load || r.kind == .store || r.kind == .atomic)) then s
  else
    s.newRequest
      { kind := if a.isLoad then .load else if a.kind = .st then .store else .atomic
        peer := q.peer, vc := if a.acq || a.rel then 0 else 1
        addr := q.pa, size := q.n, rill := k, acc := a.seq, lane := q.key, data := [a.sub, q.data, q.data2] }

/-! ## Loads -/

/-- The words PREF.sc writes (R303), as one number of 128 bits. -/
def Sidecar.quad (c : Sidecar) : Nat :=
  let n := c.scales.length
  let b := c.scales.zipIdx.foldl (fun v p => v + p.1 * 256 ^ p.2) 0
  c.fmt * 2 ^ 16 + c.tid + n * 2 ^ 32 + b * 2 ^ 64

/-- The target lies in a part of a basin that a size change has discarded since it was translated (Table 12-4). -/
def State.gone (s : State) (q : LaneReq) : Bool := q.tgt == 1 && !s.basinBusy q.pa && !s.basinOk true q.pa

/-- A load request bound at its performance point; `none` where it cannot be bound yet, with the state
in which the slice has asked for tokens. -/
def State.bind (s : State) (k : Nat) (a : Access) (q : LaneReq) (useL1 : Bool) : Option (Nat × Bool) × State :=
  let c := keyCore k
  let line := q.pa / 128
  let h := sliceTower k line
  let val := fun (s : State) => ofBytes (s.reqBytes k q)
  let psn := s.poisoned h q.tgt q.pa q.n
  if a.kind = .sidecar ∧ q.tgt ≠ 0 then (some ((Sidecar.quad {}), false), s)
  else match q.tgt with
    | 0 =>
      match (if useL1 && a.kind == .ld && !a.acq && !isCp k then s.l1Find c line else none) with
      | some x => (some (ofBytes ((x.bytes.drop (q.pa % 128)).take q.n), (x.psn &&& halfBits q.pa q.n) != 0), s)
      | none =>
        if !s.reaches c then (none, s)
        else if s.canRead line h then
          if a.kind = .sidecar then
            let sc := s.sidecar line
            (some (sc.quad, s.poisoned h 0 (128 * line) 128), (s.countNanBlocks sc).lineDone line h false)
          else
            let t := if isCp k then s else if a.acq then s.l1Update c line else s.l1Fill c line
            (some (val s, psn), t.lineDone line h false)
        else (none, s.wantLine line h false)
    | 1 => if s.basinBusy q.pa || !s.reaches c then (none, s) else (some (val s, psn), s)
    | 2 => (none, if s.reaches c then s.sendLane k a q else s)
    | 3 => if s.hostOpen && s.reaches c then (some (val s, false), s) else (none, s)
    | 4 => (some (val s, false), s)
    | _ => if s.pairOpen k false then (some (val s, false), s) else (none, s)

/-- A request whose basin address is gone: a fault with code 0x5 in its lane. -/
def Access.refuse (a : Access) (q : LaneReq) : Access :=
  { a.mapReqs (fun p => if p.key = q.key then { p with done := true } else p) with refused := q.lane :: a.refused }

/-- LOAD_RETURN (R287, R308): one request of a load is bound; the last writes the registers. -/
def execLoadReturn (rill id lane : Nat) (useL1 : Bool) (s : State) : Res :=
  match s.access rill id with
  | none => .next s
  | some a =>
    match a.reqs.find? (fun q => q.key == lane && !q.done) with
    | none => .next (s.finish rill id)
    | some q =>
      if !a.isLoad || !(s.rill rill).mayPerform a q then .next s
      else if s.gone q then .next ((s.setAccess rill (a.refuse q)).finish rill id)
      else match s.bind rill a q useL1 with
        | (none, s) => .next s
        | (some (v, psn), s) =>
          let a := a.mapReqs (fun p => if p.key = q.key then { p with data := v, done := true } else p)
          .next ((s.setAccess rill { a with poison := a.poison || psn }).finish rill id)

/-! ## Stores -/

/-- The requests performed together with `q`: those of its line for memory of the package, those of its own bytes in
local store (R276), itself otherwise. -/
def Access.group (a : Access) (q : LaneReq) : List LaneReq :=
  if q.tgt < 2 then a.reqs.filter (fun p => !p.done && p.tgt == q.tgt && p.pa / 128 == q.pa / 128)
  else if q.isLocal then a.reqs.filter (fun p => !p.done && p.overlaps q)
  else [q]

/-- Writes the data of a group in lane order, so that the highest-numbered lane's byte stands (R282), with
the copy in the core's L1 and the poison of the halves written whole (R331). -/
def State.writeGroup (s : State) (k : Nat) (g : List LaneReq) : State :=
  g.foldl (fun s q =>
    let bs := toBytes q.n q.data
    let s := s.reqWrite k q bs
    if q.tgt = 0 ∧ !isCp k then s.l1Store (keyCore k) q.pa bs else s) s

def groupCovers (g : List LaneReq) (a : Nat) : Bool := g.any (fun q => decide (q.pa ≤ a) && decide (a < q.pa + q.n))

/-- The lanes of a store that become visible with `q`: each lane is performed whole (R282), and those of its line
together with it or after it, as a free value has it; lanes of the same bytes go together. -/
def State.storeGroup (s : State) (a : Access) (q : LaneReq) : List LaneReq :=
  let g := a.group q
  if q.tgt < 2 && s.freeVal % 2 == 1 then g.filter (·.overlaps q) else g

/-- A store's group becomes visible, if it may now. -/
def State.showStore (s : State) (k : Nat) (a : Access) (q : LaneReq) (g : List LaneReq) : Option (List LaneReq) × State :=
  let line := q.pa / 128
  if q.tgt < 4 ∧ !q.left ∧ !s.reaches (keyCore k) then (none, s)
  else match q.tgt with
  | 0 =>
    let h := sliceTower k line
    if s.canWrite line h then
      (some g, ((s.writeGroup k g).clearPoison h 0 q.pa (groupCovers g)).lineDone line h true)
    else (none, s.wantLine line h true)
  | 1 =>
    if s.basinBusy q.pa then (none, s) else (some g, (s.writeGroup k g).clearPoison 0 1 q.pa (groupCovers g))
  | 2 => (none, s.sendLane k a q)
  | 3 => if s.hostOpen then (some g, s.writeGroup k g) else (none, s)
  | 5 =>
    if !s.pairOpen k true then (none, s)
    else match s.partnerFrame k q.pa with
      | some a => if s.homeOpen a q.n true then (some g, s.writeGroup k g) else (none, s.homeAsk a q.n true)
      | none => (some g, s.writeGroup k g)
  | _ => (some g, s.writeGroup k g)

/-- A request has come to its slice, which lacks tokens (Table 14-7). -/
def State.atSlice (s : State) (k : Nat) (a : Access) (q : LaneReq) : State :=
  if q.tgt = 0 ∧ !q.left ∧ s.reaches (keyCore k) then s.setAccess k (a.mapReqs (fun p => if p.key = q.key then { p with left := true } else p)) else s

/-- STORE_VISIBLE (R308, R282): the line of one lane's store, or its place elsewhere, is written. -/
def execStoreVisible (rill id lane : Nat) (s : State) : Res :=
  match s.access rill id with
  | none => .next s
  | some a =>
    match a.reqs.find? (fun q => q.key == lane && !q.done) with
    | none => .next (s.finish rill id)
    | some q =>
      let g := s.storeGroup a q
      if a.kind ≠ .st || !(if q.tgt < 2 || q.isLocal then g.all ((s.rill rill).inOrder a) else (s.rill rill).mayPerform a q) then
        .next s
      else if s.gone q then .next ((s.setAccess rill (a.refuse q)).finish rill id)
      else match s.useFree.showStore rill a q g with
        | (none, s) => .next (s.atSlice rill a q)
        | (some g, s) =>
          let a := a.mapReqs (fun p => if g.any (fun x => x.key == p.key) then { p with done := true } else p)
          .next ((s.setAccess rill a).finish rill id)

/-! ## Atomics -/

/-- FADD.F32 (R292, R294): the sum, and whether it produced a NaN. -/
def atomFadd (old v : Nat) : Nat × Bool :=
  let a := fp32.decode old
  let b := fp32.decode v
  let r := (fp32.settle 0 false false [a, b]).1
  (r, (fp32.decode r).isNan && !a.isNan && !b.isNan)

/-- The new value and the outcome of a sub-operation (Table 13-4, R293) on `n`-bit values. -/
def atomNew (sub n old v w : Nat) : Nat × Bool :=
  let top : Nat := 2 ^ n
  let sgn := fun (x : Nat) => if 2 ^ (n - 1) ≤ x then (x : Int) - top else (x : Int)
  match sub with
  | 0 => ((old + v) % top, false)
  | 1 => (if sgn v < sgn old then v else old, false)
  | 2 => (if sgn old < sgn v then v else old, false)
  | 3 => (old &&& v, false)
  | 4 => (old ||| v, false)
  | 5 => (old ^^^ v, false)
  | 6 => (v, false)
  | 7 => (if old = v then w else old, false)
  | 8 => (if v ≤ old then 0 else old + 1, false)
  | 9 => if old + v < top ∧ old + v ≤ w then (old + v, true) else (old, false)
  | 10 => ((atomFadd old v).1, false)
  | 11 => (min old v, false)
  | _ => (max old v, false)

/-- The lanes of a line operation in increasing order, each reading what the one before left (R295). -/
def State.atomLanes (s : State) (k : Nat) (a : Access) : List LaneReq → State × List LaneReq
  | [] => (s, [])
  | q :: t =>
    let old := ofBytes (s.reqBytes k q)
    let r := atomNew a.sub (8 * q.n) old q.data q.data2
    let s := s.reqWrite k q (toBytes q.n r.1)
    let s := if a.sub = 10 ∧ q.tgt = 0 ∧ (atomFadd old q.data).2 then
        s.countWin (some q.pa) (fun w => { w with nanp := satAdd 64 w.nanp 1 })
      else s
    let rest := s.atomLanes k a t
    (rest.1, { q with data := old, ok := r.2, done := true } :: rest.2)

def Access.withReqs (a : Access) (g : List LaneReq) : Access :=
  a.mapReqs (fun p => (g.find? (fun x => x.key == p.key)).getD p)

/-- The lanes of an atomic at peers that have not been answered. -/
def Access.atPeers (a : Access) : List LaneReq := a.reqs.filter (fun p => !p.done && p.tgt == 2)

/-- The lines of an atomic in memory of the package whose slices cannot read them yet. -/
def State.unread (s : State) (k : Nat) (a : Access) : List LaneReq :=
  a.reqs.filter (fun p => !p.done && match p.tgt with
    | 0 => !s.canRead (p.pa / 128) (sliceTower k (p.pa / 128))
    | 1 => s.basinBusy p.pa
    | _ => false)

/-- Some lane of an atomic would read a poisoned half. -/
def State.atomPoison (s : State) (k : Nat) (a : Access) : Bool :=
  a.reqs.any (fun p => !p.done && s.poisoned (sliceTower k (p.pa / 128)) p.tgt p.pa p.n)

/-- ATOMIC_PERFORM (R271, R295): the line operation of one lane's line, in order for each of its lanes. Before the first,
every line of the issue is read: a poisoned half leaves memory unchanged in every lane (R281). So that a peer's poison
does the same, the lanes at peers come first; a half that becomes poisoned later ends the issue at that line (log entry
123). The line leaves the core's L1 (R268). -/
def execAtomicPerform (rill id lane : Nat) (s : State) : Res :=
  match s.access rill id with
  | none => .next s
  | some a =>
    match a.reqs.find? (fun q => q.key == lane && !q.done) with
    | none => .next (s.finish rill id)
    | some q =>
      let g := a.group q
      let r := s.rill rill
      if !(a.kind == .atom || a.kind == .red) || !(if q.tgt < 2 then g.all (r.inOrder a) else r.mayPerform a q) then .next s
      else if q.tgt < 4 ∧ !q.left ∧ !s.reaches (keyCore rill) then .next s
      else if s.gone q then .next ((s.setAccess rill (a.refuse q)).finish rill id)
      else if !a.clear && !(s.unread rill a).isEmpty then
        .next ((((s.unread rill a).filter (·.tgt == 0)).foldl (fun s p => s.wantLine (p.pa / 128) (sliceTower rill (p.pa / 128)) true) s).atSlice rill a q)
      else if s.atomPoison rill a then
        .next ((s.setAccess rill { a.mapReqs (fun p => { p with done := true }) with poison := true }).finish rill id)
      else
        let line := q.pa / 128
        let h := sliceTower rill line
        let go := fun (s : State) =>
          let r := s.atomLanes rill a g
          (r.1.setAccess rill ({ a with clear := true }.withReqs r.2)).finish rill id
        if q.tgt < 2 && !a.atPeers.isEmpty then .next s
        else match q.tgt with
        | 0 =>
          if s.canWrite line h then .next (go (if isCp rill then s.lineDone line h true else (s.lineDone line h true).l1Drop (keyCore rill) line))
          else .next ((s.wantLine line h true).atSlice rill a q)
        | 1 => .next (if s.basinBusy q.pa then s else go s)
        | _ => .next ((s.setAccess rill { a with clear := true }).sendLane rill { a with clear := true } q)

/-! ## Responses of peers (R375, R378, R380) -/

/-- A response to a lane's request: code 0 done, 1 refused (a basin address the peer refuses), 2 poisoned
data. -/
def State.laneResponse (s : State) (r : RemReq) (code : Nat) (data : List Byte) : State :=
  match s.access r.rill r.acc with
  | none => s
  | some a =>
    let v := ofBytes (data.take r.size)
    let a := a.mapReqs (fun q =>
      if q.key = r.lane then
        { q with done := true, data := if code = 0 ∧ a.kind ≠ .st then v else q.data
                 ok := a.sub == 9 && decide (v + q.data < 2 ^ (8 * q.n)) && decide (v + q.data ≤ q.data2) }
      else q)
    let a := match code with
      | 0 => a
      | 1 => { a with refused := (r.lane % 64) :: a.refused }
      | _ => { a with poison := true }
    (s.setAccess r.rill a).finish r.rill r.acc

/-- A lane's request is abandoned (R380). -/
def State.laneLost (s : State) (r : RemReq) : State :=
  match s.access r.rill r.acc with
  | none => s
  | some a =>
    let a := a.mapReqs (fun q => if q.key = r.lane then { q with done := true } else q)
    (s.setAccess r.rill { a with lost := true }).finish r.rill r.acc

end Sys2Proof.Machine
end

