-- ==== Sys2Proof/Machine/Sync.lean ====
section
/-! DEFINITION. Barriers, stage rings, the Flume and the extended register block (17). -/
namespace Sys2Proof.Machine

/-- A register operand of these instructions: the lowest-numbered lane of the cohort gives it (R395). -/
def State.lead (s : State) (f : BitVec 7) : Word := s.src f.toNat 0 (s.cur.lanes.headD 0)

/-- The lanes a wait held go on and their regions end there (R397). -/
def State.releaseEnd (s : State) (k : Nat) (w : Wait) : State :=
  s.mapThreads k w.lanes (fun _ t => { t with pc := w.pc + 4, region := w.pc + 4 })

/-! ## Barrier objects (R398 to R406) -/

/-- A barrier object (Table 17-3). -/
structure Barrier where
  init : Bool := false
  span : Bool := false
  ph : Bool := false
  odone : Bool := false
  pdone : Bool := false
  expect : Nat := 0
  pend : Nat := 0
  deriving DecidableEq, Repr, Inhabited

def Barrier.ofNat (n : Nat) : Barrier :=
  { init := bitOf 63 n, span := bitOf 62 n, ph := bitOf 61 n, odone := bitOf 60 n, pdone := bitOf 59 n
    expect := bitsOf 31 16 n, pend := bitsOf 15 0 n }

def Barrier.toNat (b : Barrier) : Nat :=
  b.init.toNat * 2 ^ 63 + b.span.toNat * 2 ^ 62 + b.ph.toNat * 2 ^ 61 + b.odone.toNat * 2 ^ 60 + b.pdone.toNat * 2 ^ 59 +
    b.expect * 2 ^ 16 + b.pend

def State.barrier (s : State) (room off : Nat) : Barrier := Barrier.ofNat (memNat (s.room room).mem off 8)
def State.setBarrier (s : State) (room off : Nat) (b : Barrier) : State :=
  s.modRoom room (fun x => { x with mem := memSetNat x.mem off 8 b.toNat })

/-- flip of R400. -/
def Barrier.flip (b : Barrier) : Barrier := { b with ph := !b.ph, pend := b.expect, odone := false, pdone := false }

/-- half_complete of R400: `k` is a rill of the half's group. -/
def State.halfComplete (s : State) (k room off : Nat) (b : Barrier) : State :=
  if !b.span then s.setBarrier room off b.flip
  else
    let b := { b with odone := true }
    let s := s.setBarrier room off (if b.pdone then b.flip else b)
    if s.spanMember k then
      s.modGroup (s.group (s.rill k).group).partner (fun g => { g with doneMsgs := g.doneMsgs ++ [off] })
    else s

/-- The checks on an object's address (Table 17-1): the trap's cause, if one applies. -/
def State.objectTrap (s : State) (k a : Nat) : Option Nat :=
  if a % 8 ≠ 0 then some 0x0F
  else if s.localBad k 8 a then some 0x10
  else if bitOf 18 a then some 0x17
  else none

def State.objTrap (s : State) (cause a : Nat) : State := s.trapWith cause 0 (if cause = 0x17 then 0 else BitVec.ofNat 64 a) 0 s.cur.pc

/-- Rills that use a room. -/
def State.roomRills (s : State) (room : Nat) : List Rill :=
  (s.rills.filter (fun p => p.2.live && p.2.room == room)).map (·.2)

/-- A BWAIT is held on the object, or a deferred arrival to it is pending (R402). -/
def State.objectBusy (s : State) (room off : Nat) : Bool :=
  (s.roomRills room).any (fun r =>
    r.waits.any (fun w => match w.ins with
      | .bwait .. => w.held.isNone && w.vals.getD 0 0 == off
      | _ => false) ||
    r.arrivals.any (fun x => x.tag.isSome && x.addr == off))

def execBarInit (a b : BitVec 7) (s : State) : Res :=
  let addr := (s.lead a).toNat
  let w := (s.lead b).toNat
  let room := s.curRill.room
  match s.objectTrap s.cur.rill addr with
  | some c => .next (s.objTrap c addr)
  | none =>
    let o := s.barrier room addr
    if w % 65536 = 0 || (o.init && (o.pend != o.expect || o.odone || o.pdone || s.objectBusy room addr)) then
      .next (s.objTrap 0x17 addr)
    else
      .next ((s.setBarrier room addr
        { init := true, span := bitOf 16 w, expect := w % 65536, pend := w % 65536 }).endRegion s.cur.lanes).advance

/-- The mask of an object's arrivals and waits (R401). -/
def State.barrierMask (s : State) (b : Barrier) : Nat := (s.curRill.obsm.getD (if b.span then 3 else 2) 0).toNat

/-- The release of an arrival or a post holds (R401, R404, R408): earlier accesses are performed for the
mask, the tag's earlier copies have landed, and earlier ones of the same tag or ring are counted. -/
def State.arrivalReady (s : State) (k : Nat) (x : Arrival) : Bool :=
  let r := s.rill k
  (r.accs.all (fun a => decide (x.seq ≤ a.seq) || !a.holds x.mask)) && !r.heldBefore x.seq &&
  (match x.tag with
    | none => true
    | some t => r.copies.all (fun c => c.kind != .acopy || c.tag != t || decide (x.seq ≤ c.seq))) &&
  r.arrivals.all (fun y => decide (x.seq ≤ y.seq) || !((x.tag.isSome && y.tag == x.tag) || (x.ring.isSome && y.ring == x.ring)))

/-- A post to ring `n` of a room (R408). -/
def State.ringPost (s : State) (room n : Nat) : State :=
  s.modRoom room (fun x =>
    let g := x.rings.get {} n
    { x with rings := x.rings.set n { g with
        phases := setNth g.phases g.pi (!(g.phases.getD g.pi false)), pi := (g.pi + 1) % g.size } })

/-- Counts an arrival, or performs a post (R403, R404, R408). -/
def State.countArrival (s : State) (k : Nat) (x : Arrival) : State :=
  let room := (s.rill k).room
  let s := s.modRill k (fun r => { r with arrivals := r.arrivals.filter (· != x) })
  match x.ring with
  | some n => s.ringPost room n
  | none =>
    let o := s.barrier room x.addr
    let short := !o.init || decide (o.pend < x.n)
    let s :=
      if !o.init then s
      else
        let o' := { o with pend := o.pend - x.n }
        if o'.pend = 0 then s.halfComplete k room x.addr o' else s.setBarrier room x.addr o'
    let s := if x.tag.isNone then s.vwrite k x.dst false (x.lanes.map (fun l => (l, if o.ph then 1 else 0))) else s
    if short then s.modRill k (fun r => { r with pend := some 0x17 }) else s

/-- An arrival or post joins the rill's, its cohort moves on and the region ends; it is counted at once
where its release holds. -/
def State.pushArrival (s : State) (x : Arrival) : State :=
  let k := s.cur.rill
  let x := { x with seq := s.curRill.seq, lanes := s.cur.lanes }
  let s := (s.modRill k (fun r => { r with seq := r.seq + 1, arrivals := r.arrivals ++ [x] })).endRegion s.cur.lanes
  (if s.arrivalReady k x then s.countArrival k x else s).advance

/-- ARRIVE and ARRIVE.D (R403, R404): the checks at issue. -/
def State.arrive (s : State) (a b : BitVec 7) (tag : Option Nat) (dst : Nat) : State :=
  let addr := (s.lead a).toNat
  let n := (s.lead b).toNat % 65536
  match s.objectTrap s.cur.rill addr with
  | some c => s.objTrap c addr
  | none =>
    let o := s.barrier s.curRill.room addr
    if !o.init || n = 0 || o.pend < n then s.objTrap 0x17 addr
    else s.pushArrival { addr := addr, n := n, mask := s.barrierMask o, tag := tag, dst := dst }

def execArrive (d a b : BitVec 7) (s : State) : Res := .next (s.arrive a b none (s.curRill.vname d.toNat))
def execArriveD (t : BitVec 2) (a b : BitVec 7) (s : State) : Res := .next (s.arrive a b (some t.toNat) 0)

/-- DEFERRED_ARRIVAL_COUNT (R404, R403, R408): arrival `i` of the rill, once its release holds. -/
def execDeferredArrivalCount (rill i : Nat) (s : State) : Res :=
  match (s.rill rill).arrivals[i]? with
  | none => .next s
  | some x => .next (if s.arrivalReady rill x then s.countArrival rill x else s)

/-- BARRIER_DONE_MESSAGE (R400): the first message for a resident group whose object is initialised. Those that
involve a halted die wait (R417, R434). -/
def execBarrierDoneMessage (group : Nat) (s : State) : Res :=
  let g := s.group group
  match g.doneMsgs.find? (fun off => (s.barrier g.room off).init) with
  | none => .next s
  | some off =>
    if !g.resident || (s.die g.die).halted || (s.die (s.group g.partner).die).halted then .next s
    else
      let s := s.setGroup group { g with doneMsgs := g.doneMsgs.erase off }
      let o := { s.barrier g.room off with pdone := true }
      .next (s.setBarrier g.room off (if o.odone then o.flip else o))

/-- BWAIT (R406). The values are the offset, the token and the mask. -/
def bwaitReady (s : State) (k : Nat) (w : Wait) : Bool :=
  (s.barrier (s.rill k).room (w.vals.getD 0 0)).ph.toNat != w.vals.getD 1 0

def bwaitDone (s : State) (k : Nat) (w : Wait) : State := (s.acquireL1 k (w.vals.getD 2 0)).release k w

def execBwait (a b : BitVec 7) (s : State) : Res :=
  let addr := (s.lead a).toNat
  match s.objectTrap s.cur.rill addr with
  | some c => .next (s.objTrap c addr)
  | none =>
    let o := s.barrier s.curRill.room addr
    if !o.init then .next (s.objTrap 0x17 addr)
    else .next (s.holdOr (s.mkWait (.bwait a b) [addr, (s.lead b).toNat % 2, s.barrierMask o]) bwaitReady bwaitDone)

/-! ## Stage rings (R407 to R409) -/

def execRingPost (r : BitVec 4) (s : State) : Res :=
  .next (s.pushArrival { ring := some r.toNat, mask := (s.curRill.obsm.getD 2 0).toNat })

/-- The resize form: no release. -/
def execRingPostSize (r z : BitVec 4) (s : State) : Res :=
  .next ((s.modRoom s.curRill.room (fun x => { x with
    rings := x.rings.set r.toNat { size := z.toNat + 1, pi := 0, phases := List.replicate 16 false } })).endRegion s.cur.lanes).advance

/-- RING.WAIT: the values are the ring, the slot, the phase and the mask. -/
def ringReady (s : State) (k : Nat) (w : Wait) : Bool :=
  let g := (s.room (s.rill k).room).rings.get {} (w.vals.getD 0 0)
  let slot := w.vals.getD 1 0
  decide (slot < g.size) && (g.phases.getD slot false).toNat == w.vals.getD 2 0

def ringDone (s : State) (k : Nat) (w : Wait) : State := (s.acquireL1 k (w.vals.getD 3 0)).release k w

def execRingWait (r : BitVec 4) (a : BitVec 7) (s : State) : Res :=
  let v := (s.lead a).toNat
  let g := (s.room s.curRill.room).rings.get {} r.toNat
  if g.size ≤ v % 16 then .next (s.trap 0x17)
  else .next (s.holdOr (s.mkWait (.ringWait r a) [r.toNat, v % 16, v / 16 % 2, (s.curRill.obsm.getD 2 0).toNat]) ringReady ringDone)

/-! ## The Flume (R410 to R413) -/

/-- Key of the channel on which the rill of index `rid` in a group sends. -/
def chanKey (group rid : Nat) : Nat := 128 * group + rid
def State.chan (s : State) (group rid : Nat) : Chan := (s.group group).chans.get {} rid
def State.modChan (s : State) (group rid : Nat) (f : Chan → Chan) : State :=
  s.modGroup group (fun g => { g with chans := g.chans.set rid (f (g.chans.get {} rid)) })

/-- The group at the other end of a rill's Flume. -/
def State.partnerOf (s : State) (k : Nat) : Nat := (s.group (s.rill k).group).partner

/-- A group whose channels are not saved: it is on its core, or it has retired (R413, R459). -/
def Group.linked (g : Group) : Bool := g.resident || g.st == .retired

/-- HELD: the partner group is not resident (R413). -/
def State.vfHeld (s : State) (k : Nat) : Bool := !(s.group (s.partnerOf k)).linked

/-- %vfree (R411). -/
def State.vfree (s : State) (k : Nat) : Nat :=
  if !s.spanMember k then 8
  else
    let r := s.rill k
    (if s.vfHeld k then 2 ^ 16 else 0) + (s.chan (s.partnerOf k) r.rid).ready.length * 256 + (s.chan r.group r.rid).sfree

/-- A sending rill waits while the partner's die is halted (R417). -/
def vfsendReady (s : State) (k : Nat) (_w : Wait) : Bool :=
  !s.vfHeld k && !(s.die (s.group (s.partnerOf k)).die).halted && (s.chan (s.rill k).group (s.rill k).rid).sfree != 0

/-- The entry takes the register's value in every lane as it then stands (R412). -/
def vfsendDone (s : State) (k : Nat) (w : Wait) : State :=
  let r := s.rill k
  match w.ins with
  | .vfsend a =>
    let e := r.lanes.map (fun l => s.xsrc k w a l)
    (s.modChan r.group r.rid (fun c => { c with sfree := c.sfree - 1, flight := c.flight ++ [e] })).releaseEnd k w
  | _ => s

def execVfsend (a : BitVec 7) (s : State) : Res :=
  if !s.spanMember s.cur.rill then .next (s.trap 0x18)
  else .next (s.holdOr (s.mkWait (.vfsend a) [s.curRill.wb]) vfsendReady vfsendDone)

def vfrecvReady (s : State) (k : Nat) (_w : Wait) : Bool := !(s.chan (s.partnerOf k) (s.rill k).rid).ready.isEmpty

def vfrecvDone (s : State) (k : Nat) (w : Wait) : State :=
  let rid := (s.rill k).rid
  let p := s.partnerOf k
  match w.ins, (s.chan p rid).ready with
  | .vfrecv d, e :: t =>
    let s := s.modChan p rid (fun c => { c with ready := t, credits := c.credits + 1 })
    (s.xdst k w d 0 w.lanes (fun l => e.getD l 0)).releaseEnd k w
  | _, _ => s

def execVfrecv (d : BitVec 7) (s : State) : Res :=
  if !s.spanMember s.cur.rill then .next (s.trap 0x18)
  else .next (s.holdOr (s.mkWait (.vfrecv d) [s.curRill.wb]) vfrecvReady vfrecvDone)

/-- Both ends of a group's channels are on their cores, and neither die is halted (R434). -/
def State.flumeOpen (s : State) (group : Nat) : Bool :=
  let g := s.group group
  let p := s.group g.partner
  g.span && g.linked && p.linked && !(s.die g.die).halted && !(s.die p.die).halted

/-- FLUME_ENTRY_DELIVERY (R410): the oldest entry in flight of a channel arrives. -/
def execFlumeEntryDelivery (chan : Nat) (s : State) : Res :=
  let g := chan / 128
  if s.flumeOpen g then
    .next (s.modChan g (chan % 128) (fun c => match c.flight with
      | [] => c
      | e :: t => { c with flight := t, ready := c.ready ++ [e] }))
  else .next s

/-- FLUME_CREDIT (R410). -/
def execFlumeCredit (chan : Nat) (s : State) : Res :=
  let g := chan / 128
  if s.flumeOpen g then
    .next (s.modChan g (chan % 128) (fun c => if c.credits = 0 then c else { c with credits := c.credits - 1, sfree := c.sfree + 1 }))
  else .next s

/-! ## Extended register blocks (R414 to R416) -/

/-- The other slot of a slot pair. -/
def pairSlot (k : Nat) : Nat := if k % 2 = 0 then k + 1 else k - 1

/-- The block may be taken: the partner does not hold it; a waiting rill of the even slot comes first (R415). -/
def xacqReady (s : State) (k : Nat) (_w : Wait) : Bool :=
  (s.rill k).holdsX ||
    (!(s.rill (pairSlot k)).holdsX &&
      !(k % 2 == 1 && (s.rill (pairSlot k)).waits.any (fun w => w.ins == .xacq)))

/-- Registers of the block that are in uniform form are so for the rill that takes it, where they stand for all its lanes
(R140, R414). -/
def State.blockForms (s : State) (k : Nat) : List Nat :=
  if (s.rill k).holdsX then (s.rill k).uform
  else (s.rill k).uform.filter (· < 192) ++ (s.xblk k).uform.filter (fun n =>
    (s.rill k).liveLanes.all (fun l => s.vreg k n l == s.vreg k n ((s.rill k).liveLanes.headD 0)))

def xacqDone (s : State) (k : Nat) (w : Wait) : State :=
  (s.modRill k (fun r => { r with holdsX := true, uform := s.blockForms k })).releaseEnd k w

/-- The block is left by its holder, with the forms of its registers (R140, R414). -/
def State.leaveBlock (s : State) (k : Nat) : State :=
  if !(s.rill k).holdsX then s
  else
    let r := s.rill k
    (s.setXblk k { s.xblk k with uform := r.uform.filter (192 ≤ ·) }).setRill k { r with holdsX := false, uform := r.uform.filter (· < 192) }

def execXacq (s : State) : Res :=
  if !s.curRill.xregs then .next (s.trap 0x04)
  else .next (s.holdOr (s.mkWait .xacq []) xacqReady xacqDone)

def execXrel (s : State) : Res :=
  let k := s.cur.rill
  let s := if s.curRill.holdsX then
      (s.leaveBlock k).clearLatches (keyCore k) (keyPart k)
        (fun _ h => h.rill == k && decide (192 ≤ h.reg) && decide (h.reg < 256))
    else s
  .next (s.endRegion s.cur.lanes).advance

def execWbase (w k : BitVec 4) (s : State) : Res :=
  let key := s.cur.rill
  let s := s.modRill key (fun r => { r with
    wb := if w.toNat = 15 then r.wb else 64 + 16 * w.toNat
    kb := if k.toNat = 15 then r.kb else 64 + 32 * k.toNat })
  .next (s.clearLatches (keyCore key) (keyPart key) (fun _ h => h.rill == key)).advance

end Sys2Proof.Machine
end

