-- ==== Sys2Proof/Machine/Blocks.lean ====
section
/-! DEFINITION. Parameter blocks and completion actions (R32 to R35), the stores the device makes on its own
account (R468), and faults of engines (R422, R424). -/
namespace Sys2Proof.Machine

/-- The core whose engines serve rill `k`: a command processor has none, and a dropped rill's commands stay
where they were issued. -/
def State.coreOf (s : State) (k : Nat) : Nat := if k < 0x10000 then keyCore k else (s.rill k).homeCore

def word64 (b : List Nat) (i : Nat) : Nat := b.getD i 0

/-- The fields of a header (R32). -/
def hEmask (b : List Nat) : Nat := bitsOf 63 56 (word64 b 0)
def hRel (b : List Nat) : Bool := bitOf 55 (word64 b 0)
def hAcq (b : List Nat) : Bool := bitOf 54 (word64 b 0)
def hCmode (b : List Nat) : Nat := bitsOf 43 42 (word64 b 0)
def hCring (b : List Nat) : Nat := bitsOf 41 38 (word64 b 0)

/-- A header that breaks R35, for a kind and its length. -/
def headerBad (kind len : Nat) (b : List Nat) : Bool :=
  let w := word64 b 0
  bitsOf 7 0 w != kind || bitsOf 15 8 w != 1 || bitsOf 23 16 w != len || bitsOf 31 24 w != 0 ||
  bitsOf 37 32 w != 0 || bitsOf 53 44 w != 0 || hCmode b == 3 ||
  decide (2 ^ 57 ≤ word64 b 1) || (hCmode b == 2 && word64 b 1 % 8 != 0)

/-! ## Reads of the device's own (R265, R267, R308) -/

/-- The tower whose slice serves a party for a line: its own, or, for a block of the FED or the IOD, the home's (R267). -/
def Via.slice (v : Via) (line : Nat) : Nat :=
  match v with
  | .core c | .engine c => coreTower c
  | .direct => homeBd line

/-- No rill waits for the response to a request of the device's own. -/
def noRill : Nat := 0xFFFFFFFF

/-- What a peer has returned of its memory to party `who`, which asks for it first (R262, R378). -/
def State.peerRead (s : State) (who ctx va : Nat) (p : Place) (n : Nat) : Except Nat (List Byte) × State :=
  match s.fab.reads.find? (fun r => r.who == who && r.ctx == ctx && r.va == va) with
  | some r =>
    (match r.code with
      | none => .error waitCode
      | some 0 => .ok r.data
      | some 1 => .error 5
      | some 2 => .error poisonCode
      | some _ => .error lostCode, s)
  | none =>
    let r : PeerBytes := { who := who, ctx := ctx, va := va, req := s.fab.nextReq }
    (.error waitCode, ({ s with fab := { s.fab with reads := s.fab.reads ++ [r] } }).newRequest
      { kind := .read, peer := p.peer, vc := 0, addr := p.pa, size := n, rill := noRill })

/-- Reads `n` bytes at a place as a line operation of the party's slice, or of a basin, the host or a peer: the bytes,
or a cause; `waitCode` while it must wait. -/
def State.readAt (s : State) (via : Via) (who ctx va : Nat) (p : Place) (n : Nat) : Except Nat (List Byte) × State :=
  let line := p.pa / 128
  let h := via.slice line
  if !s.viaUp via then (.error waitCode, s)
  else match p.tgt with
  | 0 =>
    if s.canRead line h then
      (if s.poisoned h 0 p.pa n then .error poisonCode else .ok (s.peek 0 p.pa n), s.lineDone line h false)
    else (.error waitCode, s.wantLine line h false)
  | 1 => (if s.basinBusy p.pa then .error waitCode else if s.poisoned 0 1 p.pa n then .error poisonCode
          else .ok (s.peek 1 p.pa n), s)
  | 2 => s.peerRead who ctx va p n
  | _ => (if s.hostOpen then .ok (s.peek 3 p.pa n) else .error waitCode, s)

/-- Bytes of one step of a read of a block at an address. -/
def readWidth (va : Nat) : Nat := if va % 8 = 0 then 8 else if va % 4 = 0 then 4 else 1

/-- Party `who` reads `n` bytes of the virtual space of a context; the first fault stops it, and `waitCode` says that it
has to come again. What peers have returned to the party stays with it. -/
def State.vreadPart (s : State) (via : Via) (who ctx va n : Nat) (priv : Bool) : Except (Nat × Nat) (List Byte) × State :=
  let w := readWidth va
  let step := fun (acc : Except (Nat × Nat) (List Byte) × State) (i : Nat) =>
    match acc with
    | (.error e, s) => (Except.error e, s)
    | (.ok bs, s) =>
      let a := va + w * i
      match s.translate via ctx a .read priv with
      | (.error c, s) => (.error (c, a), s)
      | (.ok p, s) =>
        match s.readAt via who ctx a p (min w (n - w * i)) with
        | (.error c, s) => (.error (c, a), s)
        | (.ok b, s) => (.ok (bs ++ b), s)
  (List.range (ceilDiv n w)).foldl step (.ok [], s)

/-- A read that is all the party reads: once it is over, nothing of peers stays with the party. -/
def State.vread (s : State) (via : Via) (who ctx va n : Nat) (priv : Bool) : Except (Nat × Nat) (List Byte) × State :=
  match s.vreadPart via who ctx va n priv with
  | (.ok bs, s) => (.ok bs, s.dropReads who)
  | (.error e, s) => (.error e, if e.1 = waitCode then s else s.dropReads who)

/-- Captures a block of `len` × 64 bytes for the issue in hand (R33): its words, or the state after the
trap. While the bytes are not to hand nothing happens, and the cohort stays. -/
def State.capture (s : State) (addr len : Nat) : Except State (List Nat × State) :=
  if addr % 64 ≠ 0 then .error (s.trap 0x0B)
  else
    match s.vread (viaOf s.cur.rill) s.cur.rill s.curRill.ctx addr (64 * len) s.curRill.agent with
    | (.error (c, a), s) =>
      .error (if c = waitCode then s else if c = poisonCode then s.trap 0x12 else if c = lostCode then s.trap 0x19
        else s.trapWith 0x11 c (BitVec.ofNat 64 a) 0 s.cur.pc)
    | (.ok bs, s) => .ok (words64 bs, s)

/-- The address pair of the lowest-numbered acting lane. -/
def State.blockAddr (s : State) (a : BitVec 7) (g : BitVec 2) : Option Nat :=
  ((s.acting g.toNat).head?).map (fun l => (s.srcPair a.toNat l).toNat)

/-- Requests of saved rill `i` of a room are named by this key; their responses wait until the rill is back (R427). -/
def savedKey (room i : Nat) : Nat := 2 ^ 40 + 64 * room + i

/-- One store at a place. It is `false` while the slice lacks tokens, the basin is busy or the host port is closed. `req`
is the request that carries it to a peer. -/
def State.storeAt (s : State) (via : Via) (p : Place) (bs : List Byte) (req : RemReq) : Bool × State :=
  let line := p.pa / 128
  let h := via.slice line
  let written := fun (a : Nat) => decide (p.pa ≤ a) && decide (a < p.pa + bs.length)
  match p.tgt with
  | 0 =>
    if s.canWrite line h then
      let s := ((s.poke 0 p.pa bs).clearPoison h 0 p.pa written).lineDone line h true
      (true, match via with
        | .engine c => s.l1Store c p.pa bs
        | _ => s)
    else (false, s.wantLine line h true)
  | 1 => if s.basinBusy p.pa then (false, s) else (true, (s.poke 1 p.pa bs).clearPoison h 1 p.pa written)
  | 2 => (true, s.newRequest { req with kind := .store, peer := p.peer, vc := 0, addr := p.pa, size := bs.length
                                        rill := noRill, data := bs.map BitVec.toNat })
  | _ => if s.hostOpen then (true, s.poke 3 p.pa bs) else (false, s)

/-- The die and core position of a party that makes a store of R468: a core's engines, the IOD with a status word, or the
FED. -/
def Via.place (v : Via) (arg : Nat) : Nat × Nat :=
  match v with
  | .core c | .engine c => (coreDie c, corePos c)
  | .direct => (if arg = 4 then 0 else 1, 0)

/-- A store of R468 is skipped: the black box has its place, cause, address and argument (Table 19-2). -/
def State.skipStore (s : State) (place : Nat × Nat) (code va arg : Nat) : State :=
  s.record { kind := 0x0C, die := place.1, core := place.2, code := code, arg0 := va, arg1 := arg }

/-- A store of R468, made as `req` says; skipped on a fault; `false` while it cannot yet be made. -/
def State.deviceStore (s : State) (via : Via) (ctx : Nat) (req : RemReq) (bs : List Byte) : Bool × State :=
  match s.translate via ctx req.va .write false with
  | (.error c, s) => if c = waitCode then (false, s) else (true, s.skipStore (via.place req.arg) c req.va req.arg)
  | (.ok p, s) => s.storeAt via p bs { req with die := (via.place req.arg).1, core := (via.place req.arg).2 }

/-- The argument that marks a SIGNAL's store, which R468 does not name. -/
def signalArg : Nat := 5

/-- The peer has refused a store of R468: it is skipped, and after a DONEF store, or a SIGNAL's, the queue halts (R87,
R79). -/
def State.storeRefused (s : State) (r : RemReq) : State :=
  let s := if r.arg = signalArg then s else s.skipStore (r.die, r.core) 5 r.va r.arg
  if r.arg = 4 ∨ r.arg = signalArg then s.haltMark r.queue 0x0E r.cmd (some r.va) else s

/-- The completion action of a command issued in a room, on the engines of a core (R34); `false` while it cannot yet be
made. -/
def State.completionOf (s : State) (room core ctx : Nat) (b : List Nat) : Bool × State :=
  match hCmode b with
  | 1 => (true, s.ringPost room (hCring b))
  | 2 => s.deviceStore (.engine core) ctx { va := word64 b 1, arg := 2 } (toBytes 8 (word64 b 2))
  | _ => (true, s)

/-- That of a command of rill `k`. -/
def State.completion (s : State) (k : Nat) (b : List Nat) : Bool × State :=
  s.completionOf (s.rill k).room (s.coreOf k) (s.rill k).ctx b

/-- The engine command's reads may begin (R297, R320): the rill's earlier writes are visible and its earlier
acquires performed. -/
def Rill.engineMayRead (r : Rill) (seq : Nat) : Bool :=
  r.accs.all (fun a => decide (seq ≤ a.seq) ||
    ((!a.acq || a.performed) && (!a.isWrite || a.reqs.all (fun q => q.done || q.isLocal)))) &&
  !r.fencedBefore seq && !r.heldBefore seq

/-- An engine's fault joins the events to be recorded, and the core's agent has a task. -/
def State.engineEvent (s : State) (core : Nat) (e : EventOf) : State :=
  let s := s.modCore core (fun c => { c with agentTask := true })
  { s with traps := { s.traps with waiting := s.traps.waiting ++ [e] } }

/-- The price of a unit exceeds the capacity of the core's bucket: the command is not accepted (R228). -/
def State.overCap (s : State) (idx : Nat) : Bool :=
  decide (s.coreCcap (keyCore s.cur.rill) < s.enginePrice s.cur.rill idx)

end Sys2Proof.Machine
end

