-- ==== Sys2Proof/Machine/Copy.lean ====
section
/-! DEFINITION. The copy engine: ACOPY and RCOPY (R296 to R302), ROP (R381 to R384), and the responses of
peers to engine requests. -/
namespace Sys2Proof.Machine

/-! ## Commands -/

def State.copyCmd (s : State) (k id : Nat) : Option CopyCmd := (s.rill k).copies.find? (fun c => c.id == id)

def State.setCopy (s : State) (k : Nat) (c : CopyCmd) : State :=
  s.modRill k (fun r => { r with copies := r.copies.map (fun x => if x.id = c.id then c else x) })

/-- The command leaves the copy context; an ACOPY's tag count falls (R298). -/
def State.endCopy (s : State) (k : Nat) (c : CopyCmd) : State :=
  s.modRill k (fun r => { r with
    copies := r.copies.filter (fun x => x.id != c.id)
    ncp := if c.kind = .acopy then r.ncp.set c.tag (r.ncp.get 0 c.tag - 1) else r.ncp })

/-- The rill that stands for a dropped one: the same member of the same group (R427). -/
def Rill.same (a b : Rill) : Bool := a.group == b.group && a.card == b.card && a.rid == b.rid

/-- Key of the commands of a dropped rill: the first that none uses. -/
def orphanBase : Nat := 0x20000

/-- A trap to be taken at the next issue of the rill that `o` names, or kept in its saved context (R302, R427). -/
def State.pendTrapOf (s : State) (o : Rill) (cause : Nat) : State :=
  let set_ := fun (r : Rill) => { r with pend := some cause }
  let fix := fun (l : List Rill) => l.map (fun r => if r.same o then set_ r else r)
  match s.rills.find? (fun p => p.2.live && p.2.same o) with
  | some p => s.modRill p.1 set_
  | none =>
    let s := s.modGroup o.group (fun g => { g with saved := fix g.saved })
    if o.card = 0 then s else s.modCard o.card (fun c => { c with saved := fix c.saved })

/-- A trap to be taken at the rill's next issue; for the commands of a dropped rill, at that of the restored one. -/
def State.pendTrap (s : State) (k cause : Nat) : State :=
  if k < orphanBase then s.modRill k (fun r => { r with pend := some cause }) else s.pendTrapOf (s.rill k) cause

/-- A new command joins the copy context of the issuing rill. -/
def State.pushCopy (s : State) (c : CopyCmd) : State :=
  s.modRill s.cur.rill (fun r => { r with
    seq := r.seq + 1
    copies := r.copies ++ [{ c with id := r.seq, seq := r.seq }]
    ncp := if c.kind = .acopy then r.ncp.set c.tag (r.ncp.get 0 c.tag + 1) else r.ncp })

/-- A translation fault holds the command and joins the events to be recorded (R299, R424). -/
def State.holdCopy (s : State) (k : Nat) (c : CopyCmd) (code addr : Nat) : State :=
  (s.setCopy k { c with held := some 0, fcause := code, faddr := addr }).engineEvent (s.coreOf k) (.copy k c.id)

/-! ## ACOPY (R296 to R299) -/

/-- The control word: S, and V (R296). -/
def copyS (w : Nat) : Nat := 4 * 2 ^ bitsOf 10 8 w
def copyV (w : Nat) : Nat := min (w % 256) (copyS w)

def State.acopy (s : State) (tag : Nat) (d a b : BitVec 7) (g : BitVec 2) : State :=
  let lanes := s.acting g.toNat
  let ctl := fun l => (s.src b.toNat 0 l).toNat
  let dst := fun l => (s.src d.toNat 0 l).toNat
  let src := fun l => (s.srcPair a.toNat l).toNat
  if lanes.isEmpty then s.advance
  else match lanes.find? (fun l => decide (6 ≤ bitsOf 10 8 (ctl l))) with
  | some l => s.laneTrap 0x13 0 0 l
  | none =>
    match lanes.find? (fun l => dst l % copyS (ctl l) != 0 || src l % copyS (ctl l) != 0) with
    | some l => s.laneTrap 0x0F 0 (BitVec.ofNat 64 (if dst l % copyS (ctl l) ≠ 0 then dst l else src l)) l
    | none =>
      match lanes.find? (fun l => s.localBad s.cur.rill (copyS (ctl l)) (dst l)) with
      | some l => s.laneTrap 0x10 0 (BitVec.ofNat 64 (dst l)) l
      | none =>
        if s.overCap 0x840 then s.trap 0x0C
        else (s.pushCopy { kind := .acopy, tag := tag, lanes := lanes.map (fun l =>
          { lane := l, dst := dst l, src := src l, size := copyS (ctl l), valid := copyV (ctl l) }) }).advance

def execAcopy (h : BitVec 1) (d a b : BitVec 7) (_r l : BitVec 1) (g : BitVec 2) (s : State) : Res :=
  .next (s.acopy (2 * h.toNat + l.toNat) d a b g)

/-- What a read of an engine has come to. -/
inductive Fetch where
  | got (bytes : List Byte) (poisoned : Bool) (pa : Option Nat)
  | wait
  | fault (code addr : Nat)
  deriving DecidableEq, Repr

/-- A request for unit or lane `key` of a command is outstanding. -/
def State.asked (s : State) (k id key : Nat) (kind : ReqKind) : Bool :=
  s.fab.reqs.any (fun r => r.rill == k && r.acc == id && r.lane == key && r.kind == kind)

/-- An engine's read of `n` bytes within a line, at its core's slice, past the L1. A line that the slice may
not read is asked for; a peer's bytes are asked for once. -/
def State.fetch (s : State) (k id key va n cls : Nat) : Fetch × State :=
  let c := s.coreOf k
  let h := coreTower c
  match s.translate (.engine c) (s.rill k).ctx va .read false with
  | (.error e, s) => (if e = waitCode then .wait else .fault e va, s)
  | (.ok p, s) =>
    match p.tgt with
    | 0 =>
      let line := p.pa / 128
      if s.canRead line h then (.got (s.peek 0 p.pa n) (s.poisoned h 0 p.pa n) (some p.pa), s)
      else (.wait, s.wantLine line h false)
    | 1 => (if s.basinBusy p.pa then .wait else .got (s.peek 1 p.pa n) (s.poisoned h 1 p.pa n) none, s)
    | 2 =>
      if s.asked k id key .unitRead then (.wait, s)
      else (.wait, s.newRequest { kind := .unitRead, peer := p.peer, vc := 1, addr := p.pa, size := n, rill := k, acc := id, lane := key, cls := cls })
    | _ => (if s.hostOpen then .got (s.peek 3 p.pa n) false none else .wait, s)

/-- The line operations of an engine's reads, each an address and a length: each line once, with the NaN blocks it
consumes (R273). -/
def State.engineRead (s : State) (k : Nat) (reads : List (Nat × Nat)) : State :=
  (reads.map (·.1 / 128)).eraseDups.foldl (fun s line =>
    let parts := (reads.filter (fun r => r.1 / 128 == line)).map (fun r => (r.1 % 128, r.2))
    (s.countGrains (s.sidecar line) parts).lineDone line (coreTower (s.coreOf k)) false) s

/-- A lane whose bytes are to hand: the bytes, whether they are poisoned, and their address in device memory. -/
structure LaneBytes where
  lane : CopyLane
  bytes : List Byte
  poisoned : Bool
  pa : Option Nat

/-- Gathers the lanes in order up to the first that waits or faults. -/
def State.gather (s : State) (k id : Nat) : List CopyLane → List LaneBytes × Option Fetch × State
  | [] => ([], none, s)
  | q :: t =>
    let more := fun (s : State) (bs : List Byte) (psn : Bool) (pa : Option Nat) =>
      let r := s.gather k id t
      (⟨q, bs, psn, pa⟩ :: r.1, r.2.1, r.2.2)
    if bitOf 18 q.dst && !s.pairOpen k true then ([], some .wait, s)
    else if q.valid = 0 then more s [] false none
    else match q.buf with
      | some bs => more s bs false none
      | none =>
        match s.fetch k id q.lane q.src q.valid 8 with
        | (.got bs psn pa, s) => more s bs psn pa
        | (f, s) => ([], some f, s)

/-- A deferred arrival waits for command `c` (R405). -/
def Rill.awaits (r : Rill) (c : CopyCmd) : Bool :=
  r.arrivals.any (fun x => x.tag == some c.tag && decide (c.seq < x.seq))

/-- The oldest ACOPY of a tag; once the rill is dropped, the oldest that no fault holds, for those are to be completed (R299). -/
def Rill.oldestOf (r : Rill) (tag : Nat) : Option CopyCmd :=
  r.copies.find? (fun c => c.kind == .acopy && c.tag == tag && !(r.dropped && c.held.isSome && !r.awaits c))

/-- The lanes of the next line write: those not done that share the first one's destination line. -/
def CopyCmd.nextLine (c : CopyCmd) : List CopyLane :=
  match c.lanes.find? (fun q => !q.done) with
  | none => []
  | some f => c.lanes.filter (fun q => !q.done && q.dst / 128 == f.dst / 128)

/-- Prepares the next line write of a command: the lanes that can be written now, if that is all that stands
before it. A fault at its first lane holds the command. -/
def State.copyPrep (s : State) (k : Nat) (c : CopyCmd) : List LaneBytes × State :=
  if c.held.isSome || !(s.rill k).engineMayRead c.seq then ([], s)
  else
    match s.gather k c.id c.nextLine with
    | (ls, none, s) => (ls, s)
    | (_, some .wait, s) => ([], s)
    | ([], some (.fault code a), s) => ([], s.holdCopy k c code a)
    | (ls, some _, s) => (ls, s)

/-- Writes a lane's V bytes and the zero fill. A poisoned lane is left as it was (log). -/
def State.writeLane (s : State) (k : Nat) (x : LaneBytes) : State :=
  if x.poisoned then s.pendTrap k 0x12
  else
    let q := x.lane
    s.localWrite k (bitOf 18 q.dst) (q.dst % 2 ^ 18) (x.bytes.take q.valid ++ List.replicate (q.size - q.valid) 0)

/-- The line write; the command ends with its last lane. -/
def State.copyWrite (s : State) (k : Nat) (c : CopyCmd) (ls : List LaneBytes) : State :=
  let s := s.engineRead k (ls.filterMap (fun x => x.pa.map (·, x.lane.valid)))
  let s := ls.foldl (fun s x => s.writeLane k x) s
  let c := { c with lanes := c.lanes.map (fun q => if ls.any (fun x => x.lane == q) then { q with done := true } else q) }
  if c.lanes.all (·.done) then s.endCopy k c else s.setCopy k c

/-- COPY_LINE_WRITE (R297, R298): one line write of the oldest command of a tag. -/
def execCopyLineWrite (rill tag : Nat) (s : State) : Res :=
  match (s.rill rill).oldestOf tag with
  | none => .next s
  | some c =>
    let p := s.copyPrep rill c
    .next (if p.1.isEmpty then p.2 else p.2.copyWrite rill c p.1)

/-! ## RCOPY (R300 to R302) -/

/-- WCLASS of a remote copy (Table 13-7). -/
def rcopyClass (b : List Nat) : Nat := bitsOf 2 0 (word64 b 6)

/-- The checks of R35 and Table 13-7. -/
def rcopyBad (b : List Nat) : Bool :=
  let src := word64 b 3
  let dst := word64 b 4
  let n := word64 b 5
  headerBad 0x02 1 b || decide (2 ^ 57 ≤ src) || decide (2 ^ 57 ≤ dst) || decide (2 ^ 40 ≤ n) ||
  decide (8 ≤ word64 b 6) || word64 b 7 != 0 || src % 64 != 0 || dst % 64 != 0 || n == 0 || n % 64 != 0 ||
  (decide (src < dst + n) && decide (dst < src + n))

def execRcopy (a : BitVec 7) (_r : BitVec 1) (g : BitVec 2) (s : State) : Res :=
  match s.blockAddr a g with
  | none => .next s.advance
  | some addr =>
    match s.capture addr 1 with
    | .error t => .next t
    | .ok (b, t) =>
      if rcopyBad b then .next (t.trap 0x0B)
      else if t.overCap 0x841 then .next (t.trap 0x0C)
      else .next ((t.pushCopy { kind := .rcopy, block := b }).endRegion (s.acting g.toNat)).advance

/-- Units read and not written, and requests in flight. -/
def State.inFlight (s : State) (k : Nat) (c : CopyCmd) : Nat :=
  c.lanes.length + (s.fab.reqs.filter (fun r => r.rill == k && r.acc == c.id && (r.kind == .unitRead || r.kind == .unitWrite))).length

/-- The acquire of a command (R301, R320), once its reads may begin. -/
def State.beginCopy (s : State) (k : Nat) (c : CopyCmd) : State :=
  (if hAcq c.block then s.acquireL1 k (hEmask c.block) else s).setCopy k { c with begun := true }

/-- The next unit to read. -/
def CopyCmd.nextUnit (c : CopyCmd) : Option Nat :=
  match c.redo with
  | u :: _ => some u
  | [] => if 64 * c.pos < word64 c.block 5 then some c.pos else none

def CopyCmd.tookUnit (c : CopyCmd) : CopyCmd :=
  match c.redo with
  | _ :: t => { c with redo := t }
  | [] => { c with pos := c.pos + 1 }

/-- Reads the next unit into the engine. A poisoned unit is not written (log). -/
def State.readUnit (s : State) (k : Nat) (c : CopyCmd) : State :=
  match c.nextUnit with
  | none => s
  | some u =>
    if 256 ≤ s.inFlight k c then s
    else match s.fetch k c.id u (word64 c.block 3 + 64 * u) 64 (rcopyClass c.block) with
      | (.fault code a, s) => s.holdCopy k c code a
      | (.wait, s) => if s.asked k c.id u .unitRead then s.setCopy k c.tookUnit else s
      | (.got bs psn pa, s) =>
        let s := s.engineRead k (pa.toList.map (·, 64))
        if psn then (s.setCopy k c.tookUnit).pendTrap k 0x12
        else
          let c := c.tookUnit
          s.setCopy k { c with lanes := c.lanes ++ [{ lane := u, size := 64, valid := 64, buf := some bs }] }

/-- The destination of the first unit that has been read. -/
def State.unitDst (s : State) (k : Nat) (c : CopyCmd) (q : CopyLane) : Except Nat Place × State :=
  s.translate (.engine (s.coreOf k)) (s.rill k).ctx (word64 c.block 4 + 64 * q.lane) .write false

/-- What an RCOPY does before its next write is paid: its acquire, its next read, and the destination's
tokens or fault. -/
def State.rcopyPrep (s : State) (k id : Nat) : State :=
  let step := fun (s : State) (f : CopyCmd → State) =>
    match s.copyCmd k id with
    | none => s
    | some c => if c.held.isSome then s else f c
  let s := step s (fun c => if !c.begun && (s.rill k).engineMayRead c.seq then s.beginCopy k c else s)
  let s := step s (fun c => if c.begun then s.readUnit k c else s)
  step s (fun c =>
    match c.lanes with
    | [] => s
    | q :: _ =>
      match s.unitDst k c q with
      | (.error e, s) => if e = waitCode then s else s.holdCopy k c e (word64 c.block 4 + 64 * q.lane)
      | (.ok p, s) =>
        let t := coreTower (s.coreOf k)
        if p.tgt = 0 && !s.canWrite (p.pa / 128) t then s.wantLine (p.pa / 128) t true else s)

/-- The first unit read can be written now: the command, the unit and its place. -/
def State.rcopyReady (s : State) (k id : Nat) : Option (CopyCmd × CopyLane × Place) :=
  match s.copyCmd k id with
  | none => none
  | some c =>
    match c.lanes with
    | [] => none
    | q :: _ =>
      match (s.unitDst k c q).1 with
      | .error _ => none
      | .ok p =>
        let ok := match p.tgt with
          | 0 => s.canWrite (p.pa / 128) (coreTower (s.coreOf k))
          | 1 => !s.basinBusy p.pa
          | 2 => true
          | _ => s.hostOpen
        if c.held.isNone && ok then some (c, q, p) else none

def State.writeUnit (s : State) (k : Nat) (c : CopyCmd) (q : CopyLane) (p : Place) : State :=
  let bs := q.buf.getD []
  let s := s.setCopy k { c with lanes := c.lanes.tail }
  if p.tgt = 2 then
    s.newRequest { kind := .unitWrite, peer := p.peer, vc := 1, addr := p.pa, size := 64, rill := k, acc := c.id
                   lane := q.lane, data := bs.map BitVec.toNat, cls := rcopyClass c.block }
  else
    (s.storeAt (.engine (s.coreOf k)) p bs {}).2

/-! ## ROP (R381 to R384) -/

/-- The parts of a parameter block of a remote operation (Table 16-6). -/
def ropProg (b : List Nat) : Nat := bitsOf 7 0 (word64 b 5)
def ropLen (b : List Nat) : Nat := bitsOf 47 40 (word64 b 5)
def ropHops (b : List Nat) : Nat := bitsOf 39 32 (word64 b 5)
def ropNw (b : List Nat) : Nat := bitsOf 15 12 (word64 b 5)
def ropWidx (b : List Nat) (i : Nat) : Nat := bitsOf (4 * i + 19) (4 * i + 16) (word64 b 5)
def ropOrd (b : List Nat) : Bool := bitOf 8 (word64 b 5)
def ropDoff (b : List Nat) : Nat := bitsOf 27 16 (word64 b 6)
def ropNoff (b : List Nat) : Nat := bitsOf 11 0 (word64 b 6)

/-- A pointer that is misaligned or outside the target's storage (R381). -/
def badPointer (p : Nat) : Bool := p % 8 != 0 || decide (0xBFDE000000 ≤ p)

/-- The operand words OPA0 to OPB3 at or above index `i` are 0, but for those of OPB where `both`. -/
def operandsZero (b : List Nat) (i : Nat) (both : Bool) : Bool :=
  (List.range 8).all (fun j => decide (j < i) || (both && decide (4 ≤ j) && decide (j < 4 + i)) || word64 b (7 + j) == 0)

/-- The checks of R35, R381 and Table 16-7; fields a program does not use are reserved. -/
def ropBad (b : List Nat) : Bool :=
  let t := word64 b 3
  let len := ropLen b
  let nw := ropNw b
  let idx := (List.range nw).map (ropWidx b)
  let noLen := len == 0
  let noHops := ropHops b == 0
  let noCas := nw == 0 && bitsOf 31 16 (word64 b 5) == 0
  let noOff := ropDoff b == 0 && ropNoff b == 0
  headerBad 0x04 2 b || decide (2 ^ 57 ≤ t) || decide (2 ^ 57 ≤ word64 b 4) || word64 b 4 % 64 != 0 ||
  decide (2 ^ 48 ≤ word64 b 5) || bitsOf 11 9 (word64 b 5) != 0 || decide (2 ^ 28 ≤ word64 b 6) ||
  bitsOf 15 12 (word64 b 6) != 0 || word64 b 15 != 0 ||
  !(match ropProg b with
    | 0x01 => t % 8 == 0 && decide (8 ≤ len) && decide (len ≤ 48) && len % 8 == 0 && decide (t % 128 + len ≤ 128) &&
        noHops && noCas && noOff && operandsZero b 0 false
    | 0x02 => t % 8 == 0 && decide (8 ≤ len) && decide (len ≤ 48) && len % 8 == 0 && decide (t % 128 + len ≤ 128) &&
        noHops && noCas && noOff && operandsZero b (len / 8) false
    | 0x03 => t % 128 == 0 && decide (1 ≤ nw) && decide (nw ≤ 4) && decide idx.Nodup &&
        (List.range 4).all (fun i => decide (i < nw) || ropWidx b i == 0) &&
        noLen && noHops && noOff && operandsZero b nw true
    | 0x04 => t % 16 == 0 && !badPointer (word64 b 7) && ropNoff b % 8 == 0 && noLen && noHops && noCas && ropDoff b == 0 &&
        operandsZero b 1 false
    | 0x05 => t % 8 == 0 && decide (1 ≤ ropHops b) && decide (ropHops b ≤ 64) && ropDoff b % 8 == 0 && ropNoff b % 8 == 0 &&
        noLen && noCas && operandsZero b 0 false
    | _ => false)

/-- The program writes at its target. -/
def ropWrites (b : List Nat) : Bool := [0x02, 0x03, 0x04].contains (ropProg b)

/-- Translates TVA and RESVA at the issue (R381, R384): the target's place, or the fault. -/
def State.ropPlaces (s : State) (b : List Nat) : Except (Nat × Nat) Place × State :=
  let k := s.cur.rill
  match s.translate (viaOf k) (s.rill k).ctx (word64 b 3) (if ropWrites b then .write else .read) false with
  | (.error c, s) => (.error (c, word64 b 3), s)
  | (.ok t, s) =>
    if t.tgt ≠ 2 then (.error (6, word64 b 3), s)
    else match s.translate (viaOf k) (s.rill k).ctx (word64 b 4) .write false with
      | (.error c, s) => (.error (c, word64 b 4), s)
      | (.ok r, s) => if 2 ≤ r.tgt then (.error (6, word64 b 4), s) else (.ok t, s)

def execRop (a : BitVec 7) (_r : BitVec 1) (g : BitVec 2) (s : State) : Res :=
  match s.blockAddr a g with
  | none => .next s.advance
  | some addr =>
    match s.capture addr 2 with
    | .error t => .next t
    | .ok (b, t) =>
      if ropBad b then .next (t.trap 0x0B)
      else match t.ropPlaces b with
        | (.error (c, va), t) => .next (if c = waitCode then t else t.trapWith 0x11 c (BitVec.ofNat 64 va) 0 s.cur.pc)
        | (.ok p, t) =>
          .next ((t.pushCopy { kind := .rop, block := b ++ [p.peer, p.pa] }).endRegion (s.acting g.toNat)).advance

/-- The request of a remote operation at its target. -/
def State.ropGo (s : State) (k : Nat) (c : CopyCmd) (peer pa : Nat) : State :=
  (s.beginCopy k { c with redo := [] }).newRequest
    { kind := .rop, peer := peer, vc := if ropOrd c.block then 0 else 1, addr := pa, size := 128, rill := k, acc := c.id, data := c.block.take 16 }

/-- The remote operation begins, once: it acquires and its request goes (R384). One that was refused, and whose fault is
resolved, has its target translated again. -/
def State.ropSend (s : State) (k : Nat) (c : CopyCmd) : State :=
  let va := word64 c.block 3
  if c.begun || c.held.isSome || !(s.rill k).engineMayRead c.seq then s
  else if c.redo.isEmpty then s.ropGo k c (word64 c.block 16) (word64 c.block 17)
  else match s.translate (.engine (s.coreOf k)) (s.rill k).ctx va (if ropWrites c.block then .write else .read) false with
    | (.error e, s) => if e = waitCode then s else s.holdCopy k c e va
    | (.ok p, s) => if p.tgt = 2 then s.ropGo k c p.peer p.pa else s.holdCopy k c 6 va

/-- The result area is written: words 1 to 7, then word 0 (R383), then the completion action. A fault at
RESVA holds the command. -/
def State.ropComplete (s : State) (k : Nat) (c : CopyCmd) : State :=
  let va := word64 c.block 4
  let core := s.coreOf k
  match s.translate (.engine core) (s.rill k).ctx va .write false with
  | (.error e, s) => if e = waitCode then s else s.holdCopy k c e va
  | (.ok p, s) =>
    if 2 ≤ p.tgt then s.holdCopy k c 6 va
    else
      let r := if c.pos = 1 then (true, s) else s.storeAt (.engine core) p c.result {}
      if !r.1 then r.2
      else
        let a := (r.2.setCopy k { c with pos := 1 }).completion k c.block
        if a.1 then a.2.endCopy k c else a.2

/-- A collective passes to Confluence, which holds 64 (R391, R392): it acquires, and its entry of the copy context is free. -/
def State.collPass (s : State) (k : Nat) (c : CopyCmd) : State :=
  let r := s.rill k
  if !r.engineMayRead c.seq || decide (64 ≤ s.fab.colls.length) then s
  else
    let x : Coll :=
      { tag := s.fresh, group := r.group, card := r.card, rid := r.rid, room := r.room, core := s.coreOf k, ctx := r.ctx
        queue := (s.launch r.launch).queue, block := c.block, since := (s.lostPeer c.block).map s.limitStart }
    let s := (if hAcq c.block then s.acquireL1 k (hEmask c.block) else s).endCopy k c
    { s with fresh := s.fresh + 1, fab := { s.fab with colls := s.fab.colls ++ [x] } }

/-- RCOPY_UNIT (R301): the unit of a remote copy that is ready to be written, or else what comes before it; or the start
of an ROP or of a collective. -/
def execRcopyUnit (rill id : Nat) (s : State) : Res :=
  match s.copyCmd rill id with
  | none => .next s
  | some c =>
    match c.kind with
    | .rcopy =>
      .next (match s.rcopyReady rill id with
        | none => s.rcopyPrep rill id
        | some (c, q, p) => s.writeUnit rill c q p)
    | .rop => .next (s.ropSend rill c)
    | .coll => .next (s.collPass rill c)
    | .acopy => .next s

/-- RCOPY_COMPLETE (R301, R302, R383): after the last write, the release and the completion action. -/
def execRcopyComplete (rill id : Nat) (s : State) : Res :=
  match s.copyCmd rill id with
  | none => .next s
  | some c =>
    if c.held.isSome then .next s
    else match c.kind with
    | .rcopy =>
      if c.begun && c.nextUnit.isNone && s.inFlight rill c = 0 then
        let r := s.completion rill c.block
        .next (if r.1 then r.2.endCopy rill c else r.2)
      else .next s
    | .rop => .next (if c.result.isEmpty then s else s.ropComplete rill c)
    | _ => .next s

/-! ## Responses and abandoned requests (R375, R378, R380) -/

/-- A response to a request of the copy engine: code 0 done, 1 refused, 2 poisoned data. An ROP's data are the
64 bytes of its result, word 0 with its status; of one that met a poisoned half nothing is written, and one that the peer's R270
refuses is held by the fault 0x5 (R378). -/
def State.copyResponse (s : State) (r : RemReq) (code : Nat) (data : List Byte) : State :=
  match s.copyCmd r.rill r.acc with
  | none => s
  | some c =>
    let bs := (data ++ List.replicate 64 0).take (if r.kind = ReqKind.rop then 64 else r.size)
    match r.kind with
    | .rop =>
      if code = 1 then s.holdCopy r.rill { c with begun := false, redo := [1] } 5 (word64 c.block 3)
      else if code = 2 then (s.setCopy r.rill { c with result := bs, pos := 1 }).pendTrap r.rill 0x12
      else s.setCopy r.rill { c with result := bs }
    | .unitRead =>
      if c.kind = .acopy then
        match c.lanes.find? (fun q => q.lane == r.lane) with
        | none => s
        | some q =>
          if code = 1 then s.holdCopy r.rill c 5 q.src
          else
            let c := { c with lanes := c.lanes.map (fun x =>
              if x.lane = r.lane then { x with buf := some bs, done := code != 0 } else x) }
            if code = 0 then s.setCopy r.rill c
            else
              let s := s.pendTrap r.rill 0x12
              if c.lanes.all (·.done) then s.endCopy r.rill c else s.setCopy r.rill c
      else
        let va := word64 c.block 3 + 64 * r.lane
        match code with
        | 0 => s.setCopy r.rill { c with lanes := c.lanes ++ [{ lane := r.lane, size := 64, valid := 64, buf := some bs }] }
        | 1 =>
          if c.held.isSome then s.setCopy r.rill { c with redo := c.redo ++ [r.lane] }
          else s.holdCopy r.rill { c with redo := c.redo ++ [r.lane] } 5 va
        | _ => s.pendTrap r.rill 0x12
    | _ =>
      if code = 1 then
        let c := { c with redo := c.redo ++ [r.lane] }
        if c.held.isSome then s.setCopy r.rill c else s.holdCopy r.rill c 5 (word64 c.block 4 + 64 * r.lane)
      else s

/-- The result of an ROP that ends with a status and nothing else (R383). -/
def ropStatus (n : Nat) : List Byte := toBytes 64 n

/-- A request of the copy engine is abandoned: an ROP ends with status 5, another command ends and its rill
takes the remote-unreachable trap (log). -/
def State.copyLost (s : State) (r : RemReq) : State :=
  match s.copyCmd r.rill r.acc with
  | none => s
  | some c =>
    if c.kind = .rop then s.setCopy r.rill { c with result := ropStatus 5 }
    else (s.endCopy r.rill c).pendTrap r.rill 0x19

/-- Bytes of a peer that a party of the device has asked for come, or are refused, poisoned or lost. -/
def State.readResponse (s : State) (r : RemReq) (code : Nat) (data : List Byte) : State :=
  let bs := (data ++ List.replicate r.size 0).take r.size
  { s with fab := { s.fab with reads := s.fab.reads.map (fun x => if x.req = r.id then { x with code := some code, data := bs } else x) } }

/-- A translation fault suspends a collective (R391). The IOD writes its event. -/
def State.suspendColl (s : State) (i : Nat) (c : Coll) (code addr : Nat) : State :=
  let c := { c with susp := true, event := 0, waiting := true, fcause := code, faddr := addr }
  { s with
    fab := { s.fab with colls := setNth s.fab.colls i c }
    traps := { s.traps with waiting := s.traps.waiting ++ [.coll c.tag] } }

/-- A peer has refused a store of the device's own: one of R468, or a collective's, which is then suspended with its
write still to be made. -/
def State.ownRefused (s : State) (r : RemReq) : State :=
  if r.arg ≠ 0 then s.storeRefused r
  else
    match s.fab.colls.findIdx? (fun c => c.tag == r.acc) with
    | none => s
    | some i =>
      match s.fab.colls[i]? with
      | none => s
      | some c =>
        let c := { c with todo := { va := r.va, bytes := r.data.map (BitVec.ofNat 8) } :: c.todo }
        if c.susp then { s with fab := { s.fab with colls := setNth s.fab.colls i c } } else s.suspendColl i c 5 r.va

def ReqKind.isLane : ReqKind → Bool
  | .load | .store | .atomic => true
  | _ => false

/-- REMOTE_RESPONSE (R375, R378): a response reaches its requester; its reply storage is free. -/
def execRemoteResponse (req code : Nat) (data : List Byte) (s : State) : Res :=
  match s.fab.reqs.find? (fun r => r.id == req && r.sent) with
  | none => .next s
  | some r =>
    if 2 ^ 40 ≤ r.rill then .next s
    else
    let s := s.dropRequest req
    .next (if r.kind = .read then s.readResponse r code data
      else if r.rill = noRill then (if code = 1 then s.ownRefused r else s)
      else if r.kind.isLane then s.laneResponse r code data else s.copyResponse r code data)

/-- REMOTE_REQUEST_ABANDON (R380), with a fabric event of kind 0x09. -/
def execRemoteRequestAbandon (req : Nat) (s : State) : Res :=
  match s.fab.reqs.find? (fun r => r.id == req) with
  | none => .next s
  | some r =>
    if !s.abandonable r || decide (2 ^ 40 ≤ r.rill) then .next s
    else
      let s := (s.dropRequest req).fabricEvent 0x09 r.peer 0 0 0 (s.peer r.peer).live
      .next (if r.kind = .read then s.readResponse r 3 []
        else if r.rill = noRill then s else if r.kind.isLane then s.laneLost r else s.copyLost r)

end Sys2Proof.Machine
end

