-- ==== Sys2Proof/Machine/Tile.lean ====
section
/-! DEFINITION. Tile units (15): the tile instructions, and the steps of their operations. A unit's key is
2 × core + unit. -/
namespace Sys2Proof.Machine

/-! ## The parameter block (Table 15-2) -/

def tAva (b : List Nat) : Nat := word64 b 3
def tBva (b : List Nat) : Nat := word64 b 4
def tAstr (b : List Nat) : Nat := bitsOf 31 0 (word64 b 5)
def tBstr (b : List Nat) : Nat := bitsOf 63 32 (word64 b 5)
def tSlot (b : List Nat) : Nat := bitsOf 59 56 (word64 b 6)
def tCplx (b : List Nat) : Bool := bitOf 55 (word64 b 6)
def tClr (b : List Nat) : Bool := bitOf 54 (word64 b 6)
def tBt (b : List Nat) : Nat := bitsOf 51 48 (word64 b 6)
def tAt (b : List Nat) : Nat := bitsOf 47 44 (word64 b 6)
def tM (b : List Nat) : Nat := bitsOf 43 38 (word64 b 6) + 1
def tN (b : List Nat) : Nat := bitsOf 37 32 (word64 b 6) + 1
def tK (b : List Nat) : Nat := bitsOf 15 0 (word64 b 6) + 1
def tKorg (b : List Nat) : Nat := bitsOf 31 0 (word64 b 7)
/-- Result columns. -/
def tNc (b : List Nat) : Nat := if tCplx b then 2 * tN b else tN b

def isSbiCode (t : Nat) : Bool := t == 13 || t == 14

/-- Width of an element, in bits. -/
def tWidth (t : Nat) : Nat := (NumTy.ofCode (BitVec.ofNat 4 t)).width

/-- k positions of one k-step (Table 15-3); 0 for a pair of types that is not legal. -/
def tStep (at_ bt : Nat) : Nat :=
  if (at_ = 9 ∧ bt = 9) ∨ (at_ = 10 ∧ bt = 10) then 1
  else if (at_ = 11 ∨ at_ = 12) ∧ (bt = 11 ∨ bt = 12) then 2
  else if at_ = 14 ∧ bt = 14 then 8
  else if isSbiCode at_ && isSbiCode bt then 4
  else 0

/-- Multiple that K must be (Table 15-3). -/
def tKmul (at_ : Nat) (cplx : Bool) : Nat :=
  if isSbiCode at_ then 32 else if at_ = 9 ∨ at_ = 10 then (if cplx then 2 else 1) else 2

/-- The checks of R35, R342 and R343. -/
def tmmaBad (b : List Nat) : Bool :=
  let at_ := tAt b
  let bt := tBt b
  let al := fun (t : Nat) => if t = 13 then 32 else 16
  let w6 := word64 b 6
  headerBad 0x01 1 b || decide (2 ^ 57 ≤ tAva b) || decide (2 ^ 57 ≤ tBva b) || bitsOf 63 60 w6 != 0 ||
  bitsOf 53 52 w6 != 0 || bitsOf 31 16 w6 != 0 || decide (2 ^ 32 ≤ word64 b 7) || tSlot b == 15 ||
  tStep at_ bt == 0 || (tCplx b && decide (32 < tN b)) || tK b % tKmul at_ (tCplx b) != 0 ||
  tKorg b % (if isSbiCode at_ then 32 else 16) != 0 ||
  tAva b % al at_ != 0 || tAstr b % al at_ != 0 || tBva b % al bt != 0 || tBstr b % al bt != 0

/-! ## The unit -/

/-- The unit an instruction with bit `m` of rill `k` reaches (R338). -/
def State.unitOf (s : State) (k : Nat) (m : BitVec 1) : Option Nat :=
  let r := s.room (s.rill k).room
  (r.units[m.toNat]?).map (fun u => 2 * r.core + u)

def TileUnit.cell (u : TileUnit) (slot m n : Nat) : Word := u.acc.get 0 (4096 * slot + 64 * m + n)
def TileUnit.setCell (u : TileUnit) (slot m n : Nat) (w : Word) : TileUnit := { u with acc := u.acc.set (4096 * slot + 64 * m + n) w }
def TileUnit.triple (u : TileUnit) (m n : Nat) : BitVec 24 := u.carry.get 0 (64 * m + n)
def TileUnit.setTriple (u : TileUnit) (m n : Nat) (t : BitVec 24) : TileUnit := { u with carry := u.carry.set (64 * m + n) t }

/-- The cell's NaN came from a NaN that was loaded or read, or did not. -/
def TileUnit.markNan (u : TileUnit) (slot m n : Nat) (b : Bool) : TileUnit :=
  let i := 4096 * slot + 64 * m + n
  if b then { u with loadedNan := i :: u.loadedNan.filter (· != i) }
  else if u.loadedNan.isEmpty then u else { u with loadedNan := u.loadedNan.filter (· != i) }

/-- The running operation. -/
def TileUnit.head (u : TileUnit) : Option TileOp := u.queue.head?
def TileUnit.setHead (u : TileUnit) (o : TileOp) : TileUnit := { u with queue := o :: u.queue.tail }

/-- The progress word (Table 15-4). -/
def progress (susp ended : Bool) (fop frow done : Nat) : Word :=
  BitVec.ofNat 32 (2 ^ 31 + susp.toNat * 2 ^ 30 + ended.toNat * 2 ^ 29 + fop * 2 ^ 28 + frow * 2 ^ 22 + done)

def TileOp.word (o : TileOp) : Word := if o.susp then progress true false o.fop o.frow o.done else progress false false 0 0 o.done

/-- An operation enters a unit's queue (R340, R341). -/
def State.enqueue (s : State) (u : Nat) (o : TileOp) (lanes : List Nat) : State :=
  let r := s.curRill
  let o := { o with id := r.seq, rill := s.cur.rill, launch := r.launch, ctx := r.ctx, seq := r.seq }
  let s := s.modTile u (fun t => { t with queue := t.queue ++ [o] })
  ((s.modRill s.cur.rill (fun r => { r with seq := r.seq + 1, ntl := r.ntl + 1 })).endRegion lanes).advance

/-- The checks that the tile instructions share: an acting lane, and the unit (R338, R355, R357). -/
def State.tileIns (s : State) (m : BitVec 1) (g : BitVec 2) (f : Nat → List Nat → Nat → State) : State :=
  match s.acting g.toNat with
  | [] => s.advance
  | l :: t =>
    match s.unitOf s.cur.rill m with
    | none => s.trap 0x15
    | some u => f u (l :: t) l

/-- TMMA (R355). -/
def execTmma (a : BitVec 7) (_r m : BitVec 1) (g : BitVec 2) (s : State) : Res :=
  .next (s.tileIns m g (fun u lanes l =>
    match s.capture (s.srcPair a.toNat l).toNat 1 with
    | .error t => t
    | .ok (b, t) =>
      if tmmaBad b then t.trap 0x0B
      else if t.overCap ((if tCplx b then 0x810 else 0x800) + tAt b) then t.trap 0x0C
      else t.enqueue u { kind := .tmma, block := b, slot := tSlot b } lanes))

/-- TZERO (R358). -/
def execTzero (z : BitVec 4) (m : BitVec 1) (g : BitVec 2) (s : State) : Res :=
  .next (s.tileIns m g (fun u lanes _ =>
    if s.overCap 0x822 then s.trap 0x0C else s.enqueue u { kind := .tzero, slot := z.toNat } lanes))

/-- The quad of TLDA, TSTA and TCVT in lane `l`: its first and second pairs. -/
def State.tileQuad (s : State) (a : BitVec 7) (l : Nat) : Nat × Nat :=
  ((s.src a.toNat 0 l).toNat + (s.src a.toNat 1 l).toNat * 2 ^ 32, (s.src a.toNat 2 l).toNat + (s.src a.toNat 3 l).toNat * 2 ^ 32)

/-- TLDA and TSTA at issue (R357, R359): the stride is the third register. -/
def State.tileMove (s : State) (kind : TileKind) (t : BitVec 2) (z : BitVec 4) (a : BitVec 7) (m : BitVec 1) (g : BitVec 2) : State :=
  s.tileIns m g (fun u lanes l =>
    let q := s.tileQuad a l
    let stride := q.2 % 2 ^ 32
    if q.1 % 128 ≠ 0 then s.laneTrap 0x0F 0 (BitVec.ofNat 64 q.1) l
    else if stride % 128 ≠ 0 then s.laneTrap 0x0F 0 (BitVec.ofNat 64 stride) l
    else if s.overCap 0x820 then s.trap 0x0C
    else s.enqueue u { kind := kind, slot := z.toNat, ty := t.toNat, addr := q.1, stride := stride } lanes)

def execTlda (t : BitVec 2) (z : BitVec 4) (a : BitVec 7) (_r m : BitVec 1) (g : BitVec 2) (s : State) : Res :=
  .next (s.tileMove .tlda t z a m g)
def execTsta (t : BitVec 2) (z : BitVec 4) (a : BitVec 7) (_r m : BitVec 1) (g : BitVec 2) (s : State) : Res :=
  .next (s.tileMove .tsta t z a m g)

/-- TCVT at issue (R357, R360). The exponent address counts for SBI types only. -/
def execTcvt (t : BitVec 2) (z : BitVec 4) (a : BitVec 7) (_r m : BitVec 1) (g : BitVec 2) (s : State) : Res :=
  .next (s.tileIns m g (fun u lanes l =>
    let q := s.tileQuad a l
    if q.1 % 128 ≠ 0 then s.laneTrap 0x0F 0 (BitVec.ofNat 64 q.1) l
    else if 2 ≤ t.toNat ∧ q.2 % 128 ≠ 0 then s.laneTrap 0x0F 0 (BitVec.ofNat 64 q.2) l
    else if s.overCap 0x821 then s.trap 0x0C
    else s.enqueue u { kind := .tcvt, slot := z.toNat, ty := t.toNat, addr := q.1, addr2 := q.2 } lanes))

def isTileOp : Instr → Bool
  | .tmma .. | .tzero .. | .tlda .. | .tsta .. | .tcvt .. => true
  | _ => false

/-- TWAIT (R361): the value is the unit. Operations whose issue is held are outstanding too. -/
def twaitReady (s : State) (k : Nat) (w : Wait) : Bool :=
  (s.tile (w.vals.getD 0 0)).queue.all (fun o => o.rill != k) &&
    (s.rill k).waits.all (fun v => v.held.isNone || decide (w.seq ≤ v.seq) || !isTileOp v.ins)
def twaitDone (s : State) (k : Nat) (w : Wait) : State := s.release k w

def execTwait (m : BitVec 1) (g : BitVec 2) (s : State) : Res :=
  .next (s.tileIns m g (fun u _ _ => s.holdOr (s.mkWait (.twait m g) [u]) twaitReady twaitDone))

/-- TPROG (R362). -/
def execTprog (d : BitVec 7) (m : BitVec 1) (g : BitVec 2) (s : State) : Res :=
  .next (s.tileIns m g (fun u lanes _ =>
    let w := (((s.tile u).head).map TileOp.word).getD 0
    (s.vdst d.toNat 0 none lanes (fun _ => w)).advance))

/-! ## Operand lines (R344, R346) -/

/-- Byte address of an operand element, and its place within the byte for SBI4. -/
def elemAddr (base stride t row k : Nat) : Nat := base + row * stride + k * tWidth t / 8
def aAddr (b : List Nat) (m k : Nat) : Nat := elemAddr (tAva b) (tAstr b) (tAt b) m k
def bAddr (b : List Nat) (n k : Nat) : Nat := elemAddr (tBva b) (tBstr b) (tBt b) n k

/-- Key of a line in the operand buffer. -/
def lineKey (isB : Bool) (va : Nat) : Nat := 2 * (va / 128) + isB.toNat

/-- Format code of a type code (Table 1-9, Table 6-7). -/
def fmtOfType : Nat → Nat
  | 9 => 2
  | 10 => 3
  | 11 => 4
  | 12 => 5
  | 13 => 6
  | 14 => 7
  | _ => 1

/-- The scale or block exponent of the element at `va` of type `t` (R344). -/
def OpLine.scaleOf (o : OpLine) (t va : Nat) : Nat :=
  if o.fmt ≠ fmtOfType t then 127
  else
    let off := va % 128
    match t with
    | 13 => o.scales.getD (off / 32) 127
    | 14 => o.scales.getD (off / 16) 127
    | _ => o.scales.getD 0 127

/-- Stored bits of element `k` of a row whose element lies at `va`. -/
def OpLine.bits (o : OpLine) (t va k : Nat) : Nat :=
  let w := tWidth t
  let v := ofBytes ((o.data.drop (va % 128)).take (max 1 (w / 8)))
  if w = 4 then v / 16 ^ (k % 2) % 16 else v

def TileOp.line (o : TileOp) (isB : Bool) (va : Nat) : OpLine := o.lines.get {} (lineKey isB va)

/-- A floating-point element after its flush (R56), with its scale (R61), and whether it was flushed. -/
def floatElem (t bits scale : Nat) : FVal × Bool :=
  let f := tyFmt (NumTy.ofCode (BitVec.ofNat 4 t))
  let v := f.decode bits
  let sub := match v with
    | .fin _ m _ => m != 0 && decide (m < 2 ^ f.mw)
    | _ => false
  let v := match v with
    | .fin n m e => if sub then .fin n 0 e else .fin n m (e + (scale : Int) - 127)
    | x => x
  (if scale = 255 then .nan false else v, sub)

/-- Element `k` of A row `m`, or B row `n`, of a floating-point operation. -/
def TileOp.felem (o : TileOp) (isB : Bool) (row k : Nat) : FVal × Bool :=
  let b := o.block
  let va := if isB then bAddr b row k else aAddr b row k
  let t := if isB then tBt b else tAt b
  let l := o.line isB va
  floatElem t (l.bits t va k) (l.scaleOf t va)

/-- Element and block exponent of an SBI operand. -/
def TileOp.selem (o : TileOp) (isB : Bool) (row k : Nat) : Int × Nat :=
  let b := o.block
  let va := if isB then bAddr b row k else aAddr b row k
  let t := if isB then tBt b else tAt b
  let l := o.line isB va
  (sbiVal (NumTy.ofCode (BitVec.ofNat 4 t)) (l.bits t va k), l.scaleOf t va)

/-- First position of the next k-step. -/
def TileOp.pos (o : TileOp) : Nat := o.steps * tStep (tAt o.block) (tBt o.block)

/-- Positions whose lines the next k-step needs: its own, and for SBI the one before it, which has the open
segments' exponents, unless they are held from before a suspension (R352). With no position left it needs none. -/
def TileOp.needs (o : TileOp) : List Nat :=
  if tK o.block ≤ o.pos then []
  else if isSbiCode (tAt o.block) && o.pos != 0 && o.old.isEmpty then [o.pos - 1, o.pos] else [o.pos]

/-- Rows of an operand at positions `ks`, with the line each needs. -/
def TileOp.rowLines (o : TileOp) (isB : Bool) (ks : List Nat) : List (Nat × Nat) :=
  let rows := if isB then tN o.block else tM o.block
  (ks.map (fun k => (List.range rows).map (fun r => (r, if isB then bAddr o.block r k else aAddr o.block r k)))).flatten

/-- The first row at positions `ks` whose line is not in the buffer. -/
def TileOp.missing (o : TileOp) (isB : Bool) (ks : List Nat) : Option (Nat × Nat) :=
  (o.rowLines isB ks).find? (fun p => (o.lines.find (lineKey isB p.2)).isNone)

/-- Every line of the next k-step is to hand. -/
def TileOp.fed (o : TileOp) : Bool := (o.missing false o.needs).isNone && (o.missing true o.needs).isNone

/-- Positions whose lines must stay in the buffer: those of the open group as well (R68). -/
def TileOp.keeps (o : TileOp) : List Nat :=
  if isSbiCode (tAt o.block) then o.needs else [o.pos / 16 * 16, o.pos]

/-- The buffer without the lines that the operation need not keep at positions `ks`. -/
def TileOp.trim (o : TileOp) (ks : List Nat) : TileOp :=
  let keys := (o.rowLines false ks).map (fun p => lineKey false p.2) ++ (o.rowLines true ks).map (fun p => lineKey true p.2)
  { o with lines := o.lines.filter (fun l => keys.contains l.1) }

/-- Lines an operand buffer holds: 128 KiB (R337). -/
def bufferLines : Nat := 1024

/-! ## Suspension (R349 to R351) -/

/-- Bytes of accumulator memory in a row. -/
def TileOp.rowBytes (o : TileOp) : Nat := if o.slot = 15 then 192 else 256

/-- The operation as it stands at DONE, with what it has done for an open group discarded. Of the lines before DONE only
the exponents of the open segments are still of use (R352). -/
def TileOp.rewind (o : TileOp) : TileOp :=
  match o.kind with
  | .tmma =>
    let p := max 1 (tStep (tAt o.block) (tBt o.block))
    let o := { o with steps := o.done / p }
    if isSbiCode (tAt o.block) && o.done != 0 && o.old.isEmpty then { o with old := (o.trim [o.done - 1]).lines, lines := [] }
    else { o with lines := [] }
  | .tzero => o
  | _ => { o with steps := ceilDiv (o.done * o.rowBytes) 128, lines := [] }

/-- Changes the rill of an operation, unless it has retired. -/
def State.modOwner (s : State) (o : TileOp) (f : Rill → Rill) : State := if o.rill = noRill then s else s.modRill o.rill f

/-- A trap for the rill of an operation, unless it has retired. -/
def State.pendOwner (s : State) (o : TileOp) (cause : Nat) : State := if o.rill = noRill then s else s.pendTrap o.rill cause

/-- Suspends the running operation at a fault: the word goes to %rowprog and the event is reported. -/
def State.suspendTile (s : State) (u fop frow code addr : Nat) : State :=
  match (s.tile u).head with
  | none => s
  | some o =>
    let o := { o.rewind with susp := true, fop := fop, frow := frow, fcause := code, faddr := addr, event := 0, waiting := true }
    let s := s.modTile u (·.setHead o)
    let s := s.modOwner o (fun r => { r with rowprog := o.word })
    s.engineEvent (u / 2) (.tile u o.id)

/-- Translation of a tile operation's access: targets 0 and 1 only (R350). -/
def State.tilePlace (s : State) (u ctx va : Nat) (acc : Acc) : Except Nat Place × State :=
  match s.translate (.engine (u / 2)) ctx va acc false with
  | (.error e, s) => (.error e, s)
  | (.ok p, s) => if 2 ≤ p.tgt then (.error 6, s.forget (.engine (u / 2)) ctx va) else (.ok p, s)

/-- The line at a place is read, or asked for. -/
def State.tileRead (s : State) (u : Nat) (p : Place) (n : Nat) : Option (List Byte × Option Sidecar) × State :=
  let line := p.pa / 128
  let t := coreTower (u / 2)
  match p.tgt with
  | 0 =>
    if s.canRead line t then
      let sc := s.sidecar line
      (some (s.peek 0 p.pa n, some sc), (s.countNanBlocks sc).lineDone line t false)
    else (none, s.wantLine line t false)
  | _ => if s.basinBusy p.pa then (none, s) else (some (s.peek 1 p.pa n, none), s)

/-- A tile operation read a poisoned half: its rill takes the data-poison trap (log). -/
def State.tilePoison (s : State) (u : Nat) (o : TileOp) (p : Place) (n : Nat) : State :=
  if s.poisoned (coreTower (u / 2)) p.tgt p.pa n then s.pendOwner o 0x12 else s

/-! ## TILE_OPERAND_LINE -/

/-- The line ahead of the array that a pipe has settled on for this operation, if the buffer lacks it. -/
def TileUnit.settled (t : TileUnit) (o : TileOp) (isB : Bool) : Option Nat :=
  match t.pipe.find isB.toNat with
  | some (id, va) => if id = o.id && (o.lines.find (lineKey isB va)).isNone then some va else none
  | none => none

/-- The line a load pipe reads next: one that the next k-step lacks, with its row, or one ahead of it, on which the pipe
settles. -/
def State.nextLine (s : State) (u : Nat) (o : TileOp) (isB : Bool) : Option (Nat × Nat × Bool) :=
  match o.missing isB o.needs with
  | some (row, va) => some (row, va, true)
  | none =>
    let left := tK o.block - o.pos
    match (s.tile u).settled o isB with
    | some va => some (0, va, false)
    | none =>
      if left = 0 ∨ bufferLines ≤ o.lines.length then none
      else (o.missing isB [o.pos + s.freeVal % left]).map (fun p => (p.1, p.2, false))

/-- A TMMA begins: it acquires once the rill's earlier writes are visible (R320, R342). -/
def State.beginTile (s : State) (u : Nat) (o : TileOp) : State :=
  let reads := o.kind = .tmma ∨ o.kind = .tlda
  if o.begun || (reads && !(s.rill o.rill).engineMayRead o.seq) then s
  else
    let s := s.modTile u (·.setHead { o with begun := true })
    if o.kind = .tmma && hAcq o.block then s.acquireL1 (slotKey (u / 2) 0 0) (hEmask o.block) else s

/-- The running operation, once it has begun and is not suspended. -/
def State.activeOp (s : State) (u : Nat) : Option TileOp × State :=
  match (s.tile u).head with
  | none => (none, s)
  | some o =>
    let s := s.beginTile u o
    ((s.tile u).head.filter (fun o => o.begun && !o.susp), s)

/-- The place of a line that a pipe may read now. A fault on a line that the next k-step needs suspends the operation,
the A line governing (R351). -/
def State.linePlace (s : State) (u : Nat) (o : TileOp) (isB : Bool) (row va : Nat) (needed : Bool) : Option Place × State :=
  match s.tilePlace u o.ctx (va / 128 * 128) .read with
  | (.error e, s) =>
    if needed && e != waitCode && (!isB || (o.missing false o.needs).isNone) then (none, s.suspendTile u isB.toNat row e va) else (none, s)
  | (.ok p, s) =>
    let t := coreTower (u / 2)
    if p.tgt = 0 && !s.canRead (p.pa / 128) t then (none, s.wantLine (p.pa / 128) t false)
    else if p.tgt = 1 && s.basinBusy p.pa then (none, s)
    else (some p, s)

/-- The line a pipe may read in this clock, with its place, where the slice can give it; the pipe settles on it. -/
def State.linePrep (s : State) (u : Nat) (isB : Bool) : Option (TileOp × Nat × Place) × State :=
  match s.activeOp u with
  | (none, s) => (none, s)
  | (some o, s) =>
    if o.kind ≠ .tmma then (none, s)
    else match s.nextLine u o isB with
      | none => (none, s)
      | some (row, va, needed) =>
        let s := s.useFree.modTile u (fun t => { t with pipe := t.pipe.set isB.toNat (o.id, va) })
        match s.linePlace u o isB row va needed with
        | (none, s) => (none, s)
        | (some p, s) => (some (o, va, p), s)

/-- The line on which a pipe has settled, and has been paid for; with none, the one it reads next. -/
def State.lineDue (s : State) (u : Nat) (isB : Bool) : Option (TileOp × Nat × Place) × State :=
  match s.activeOp u with
  | (none, s) => (none, s)
  | (some o, s) =>
    match (s.tile u).settled o isB with
    | none => s.linePrep u isB
    | some va =>
      match s.linePlace u o isB 0 va false with
      | (none, s) => (none, s)
      | (some p, s) => (some (o, va, p), s)

/-- The paid line enters the operand buffer with its sidecar. -/
def State.lineFetch (s : State) (u : Nat) (isB : Bool) (o : TileOp) (va : Nat) (p : Place) : State :=
  match s.tileRead u p 128 with
  | (none, s) => s
  | (some (bs, sc), s) =>
    let sc := sc.getD {}
    let o := if bufferLines ≤ o.lines.length then o.trim o.keeps else o
    let l : OpLine := { data := bs, fmt := sc.fmt, scales := sc.scales, at_ := sc.at_ }
    (s.modTile u (·.setHead { o with lines := Tbl.set o.lines (lineKey isB va) l })).tilePoison u o p 128

/-- TILE_OPERAND_LINE (R337, R346): a load pipe reads the line it has settled on. -/
def execTileOperandLine (unit : Nat) (isB : Bool) (s : State) : Res :=
  match s.lineDue unit isB with
  | (none, s) => .next s
  | (some (o, va, p), s) => .next (s.lineFetch unit isB o va p)

/-! ## The k-step (R345, R347) -/

/-- The terms of a floating-point cell (m, n) over positions `ks`: the products, whether some product is
0 × ∞, and whether an operand element is a NaN. -/
def TileOp.fterms (o : TileOp) (m n : Nat) (ks : List Nat) : List FVal × Bool × Bool :=
  let cplx := tCplx o.block
  let one := fun (x y : FVal) (neg : Bool) =>
    let p := x.mul y
    (if neg then p.1.negate else p.1, p.2, x.isNan || y.isNan)
  let add := fun (acc : List FVal × Bool × Bool) (p : FVal × Bool × Bool) => (acc.1 ++ [p.1], acc.2.1 || p.2.1, acc.2.2 || p.2.2)
  if cplx then
    let a := fun k => (o.felem false m k).1
    let b := fun k => (o.felem true (n / 2) k).1
    (ks.filter (· % 2 == 0)).foldl (fun acc k =>
      if n % 2 = 0 then add (add acc (one (a k) (b k) false)) (one (a (k + 1)) (b (k + 1)) true)
      else add (add acc (one (a k) (b (k + 1)) false)) (one (a (k + 1)) (b k) false)) ([], false, false)
  else ks.foldl (fun acc k => add acc (one (o.felem false m k).1 (o.felem true n k).1 false)) ([], false, false)

/-- One group of R68 into a cell. -/
def TileOp.groupCell (o : TileOp) (u : TileUnit) (ks : List Nat) (m n : Nat) : TileUnit :=
  let slot := tSlot o.block
  let old := if tClr o.block && ks.head? == some 0 then 0 else (u.cell slot m n).toNat
  let acc := fp32.decode old
  let ts := o.fterms m n ks
  let r := (fp32.settle 0 false ts.2.1 (acc :: ts.1)).1
  let wasLoaded := acc.isNan && u.loadedNan.contains (4096 * slot + 64 * m + n)
  (u.setCell slot m n (BitVec.ofNat 32 r)).markNan slot m n ((fp32.decode r).isNan && (wasLoaded || (ts.2.2 && !acc.isNan)))

/-- Closes the open segment of a cell with combined exponent `c` (R64, R67). -/
def TileUnit.closeSegment (u : TileUnit) (slot m n c : Nat) : TileUnit :=
  let t := u.triple m n
  let acc := fp32.decode (u.cell slot m n).toNat
  let u := u.setTriple m n 0
  if !tmValid t then u.setCell slot m n (BitVec.ofNat 32 fp32.nan)
  else
    let y : Dy := ⟨crt t, (c : Int) - 254⟩
    let yv : FVal := .fin (decide (y.m < 0)) y.m.natAbs y.e
    u.setCell slot m n (BitVec.ofNat 32 (fp32.settle 0 false false [acc, yv]).1)

/-- The sum a k-step adds to the triple of a cell, over positions `ks`. -/
def TileOp.ssum (o : TileOp) (m n : Nat) (ks : List Nat) : Int :=
  let a := fun k => (o.selem false m k).1
  if tCplx o.block then
    let b := fun k => (o.selem true (n / 2) k).1
    (ks.filter (· % 2 == 0)).foldl (fun v k =>
      if n % 2 = 0 then v + a k * b k - a (k + 1) * b (k + 1) else v + a k * b (k + 1) + a (k + 1) * b k) 0
  else ks.foldl (fun v k => v + a k * (o.selem true n k).1) 0

/-- The operation with the lines that hold the exponents of position `pos - 1` (R352). -/
def TileOp.before (o : TileOp) : TileOp := if o.old.isEmpty then o else { o with lines := o.old }

/-- Exponents of the A and B blocks of a cell at position `k`. -/
def TileOp.exps (o : TileOp) (m n k : Nat) : Nat × Nat :=
  ((o.selem false m k).2, (o.selem true (if tCplx o.block then n / 2 else n) k).2)

/-- One SBI k-step of a cell: the open segment closes where it ends, the products join the triple, and the
last step of the operation closes its segment (R67). A NaN block makes the cell a NaN. -/
def TileOp.sbiCell (o : TileOp) (u : TileUnit) (m n : Nat) : TileUnit :=
  let b := o.block
  let slot := tSlot b
  let k := o.pos
  let p := tStep (tAt b) (tBt b)
  let e := o.exps m n k
  let u := if k = 0 && tClr b then (u.setCell slot m n 0).markNan slot m n false else u
  let u :=
    if k = 0 then u
    else
      let e' := o.before.exps m n (k - 1)
      if (tKorg b + k) % 256 = 0 ∨ e'.1 + e'.2 ≠ e.1 + e.2 then u.closeSegment slot m n (e'.1 + e'.2) else u
  let u :=
    if e.1 = 255 ∨ e.2 = 255 then
      let was := (fp32.decode (u.cell slot m n).toNat).isNan && !u.loadedNan.contains (4096 * slot + 64 * m + n)
      (u.setCell slot m n (BitVec.ofNat 32 fp32.nan)).markNan slot m n (!was)
    else
      let t := u.triple m n
      if tmValid t then u.setTriple m n (tmAdd t (o.ssum m n ((List.range p).map (k + ·)))) else u
  if k + p = tK b then u.closeSegment slot m n (e.1 + e.2) else u

/-- Applies `f` to every cell of the operation. -/
def TileOp.cells (o : TileOp) (u : TileUnit) (f : TileUnit → Nat → Nat → TileUnit) : TileUnit :=
  (List.range (tM o.block)).foldl (fun u m => (List.range (tNc o.block)).foldl (fun u n => f u m n) u) u

/-- Flushes of the elements a k-step reads (R56, R344). -/
def State.countFlushes (s : State) (o : TileOp) (ks : List Nat) : State :=
  let one := fun (isB : Bool) (rows : Nat) (s : State) =>
    (List.range rows).foldl (fun s r => ks.foldl (fun s k =>
      if (o.felem isB r k).2 then
        s.countWin (o.line isB (if isB then bAddr o.block r k else aAddr o.block r k)).at_ (fun w => { w with ftz := satAdd 64 w.ftz 1 })
      else s) s) s
  one true (tN o.block) (one false (tM o.block) s)

/-- One k-step of a TMMA. -/
def State.kstep (s : State) (u : Nat) (o : TileOp) : State :=
  let b := o.block
  let p := tStep (tAt b) (tBt b)
  let k := o.pos
  let t := s.tile u
  if isSbiCode (tAt b) then
    let t := o.cells t o.sbiCell
    s.setTile u (t.setHead { o with steps := o.steps + 1, done := k + p, old := [] })
  else
    let s := s.countFlushes o ((List.range p).map (k + ·))
    if (k + p) % 16 = 0 ∨ k + p = tK b then
      let ks := (List.range (k + p - k / 16 * 16)).map (k / 16 * 16 + ·)
      let t := o.cells t (fun u m n => o.groupCell u ks m n)
      s.setTile u (t.setHead { o with steps := o.steps + 1, done := k + p })
    else s.setTile u (t.setHead { o with steps := o.steps + 1 })

/-! ## TZERO, TLDA, TSTA, TCVT (R358 to R360) -/

/-- Units of an operation that is not a TMMA. -/
def TileOp.units (o : TileOp) : Nat :=
  match o.kind with
  | .tzero => if o.slot = 15 then 3 else 4
  | _ => if o.slot = 15 then 96 else 128
/-- Rows complete after `n` units. -/
def TileOp.rowsAt (o : TileOp) (n : Nat) : Nat := n * 128 / o.rowBytes

/-- Row size in memory (R359, R360). -/
def TileOp.memRow (o : TileOp) : Nat :=
  match o.kind with
  | .tcvt => if o.ty = 3 then 32 else 64
  | _ => if o.ty = 1 ∨ o.ty = 2 then 128 else 256

/-- Virtual addresses and lengths of the parts of row `m`, each within a line. -/
def TileOp.rowParts (o : TileOp) (m : Nat) : List (Nat × Nat) :=
  match o.kind with
  | .tcvt => (o.addr + o.memRow * m, o.memRow) :: (if 2 ≤ o.ty then [(o.addr2 + 2 * m, 2)] else [])
  | _ =>
    let a := o.addr + m * (if o.stride = 0 then o.memRow else o.stride)
    if o.memRow = 256 then [(a, 128), (a + 128, 128)] else [(a, 128)]

/-- A narrow element of TLDA: FP32 bits, whether it was flushed. -/
def tldaElem (ty w : Nat) : Nat × Bool :=
  let r := floatElem (8 + ty) w 127
  ((fp32.cvt 0 r.1).1, r.2)

/-- Loads row `m` from its bytes. -/
def State.loadRow (s : State) (u : Nat) (o : TileOp) (m : Nat) (bs : List Byte) (win : Option Nat) : State :=
  let el := fun (w n : Nat) => ofBytes ((bs.drop (w * n)).take w)
  (List.range 64).foldl (fun s n =>
    match o.ty with
    | 3 => s.modTile u (fun t => t.setTriple m n (BitVec.ofNat 24 (el 4 n)))
    | 0 => s.modTile u (fun t => (t.setCell o.slot m n (BitVec.ofNat 32 (el 4 n))).markNan o.slot m n (fp32.decode (el 4 n)).isNan)
    | _ =>
      let r := tldaElem o.ty (el 2 n)
      let s := s.modTile u (fun t => (t.setCell o.slot m n (BitVec.ofNat 32 r.1)).markNan o.slot m n (fp32.decode r.1).isNan)
      if r.2 then s.countWin win (fun w => { w with ftz := satAdd 64 w.ftz 1 }) else s) s

/-- What a row delivers: its bytes, its exponent bytes, saturations, NaNs produced, and those of them in the second line
of a row of 256 bytes. -/
structure RowOut where
  bytes : List Byte
  exps : List Byte
  sat : Nat
  nan : Nat
  nan2 : Nat := 0

/-- NaN cells of a row, from column `n` on, that were not loaded with it. -/
def TileUnit.newNans (t : TileUnit) (slot m n : Nat) : Nat :=
  ((List.range' n (64 - n)).filter (fun n => (fp32.decode (t.cell slot m n).toNat).isNan && !t.loadedNan.contains (4096 * slot + 64 * m + n))).length

/-- A row converted to a narrow floating-point format (the CVTN rule of Table 2-5). -/
def TileUnit.narrowRow (t : TileUnit) (f : FFmt) (slot m : Nat) : RowOut :=
  let rs := (List.range 64).map (fun n => f.cvtn 0 (fp32.decode (t.cell slot m n).toNat))
  { bytes := (rs.map (fun r => toBytes ((1 + f.ew + f.mw) / 8) r.1)).flatten, exps := []
    sat := (rs.filter (·.2.2)).length, nan := t.newNans slot m 0 }

/-- One block of a row quantised (R197, R360): its elements, its exponent, NaNs produced. -/
def TileUnit.quantBlock (t : TileUnit) (slot m h : Nat) (qmax : Int) : List Int × Nat × Nat :=
  let xs := (List.range 32).map (fun n => fp32.decode (t.cell slot m (32 * h + n)).toNat)
  match quantise qmax 0 xs with
  | some (e, qs) => (qs, e, 0)
  | none => (List.replicate 32 0, 255, if xs.any FVal.isNan then 0 else 1)

/-- SBI4 elements packed two to a byte (R48). -/
def packNibbles : List Int → List Byte
  | a :: b :: t => BitVec.ofNat 8 (intBits 4 a + 16 * intBits 4 b) :: packNibbles t
  | _ => []

def TileUnit.outRow (t : TileUnit) (o : TileOp) (m : Nat) : RowOut :=
  match o.kind, o.ty with
  | .tcvt, 0 => t.narrowRow f8e4 o.slot m
  | .tcvt, 1 => t.narrowRow f8e5 o.slot m
  | .tcvt, ty =>
    let q := fun h => t.quantBlock o.slot m h (if ty = 2 then 127 else 7)
    let els := (q 0).1 ++ (q 1).1
    { bytes := if ty = 2 then els.map (fun x => BitVec.ofNat 8 (intBits 8 x)) else packNibbles els
      exps := [BitVec.ofNat 8 (q 0).2.1, BitVec.ofNat 8 (q 1).2.1], sat := 0, nan := (q 0).2.2 + (q 1).2.2 }
  | _, 1 => t.narrowRow fp16 o.slot m
  | _, 2 => t.narrowRow bf16 o.slot m
  | _, 3 => { bytes := ((List.range 64).map (fun n => toBytes 4 (t.triple m n).toNat)).flatten, exps := [], sat := 0, nan := 0 }
  | _, _ => { bytes := ((List.range 64).map (fun n => toBytes 4 (t.cell o.slot m n).toNat)).flatten, exps := [], sat := 0, nan := t.newNans o.slot m 0, nan2 := t.newNans o.slot m 32 }

/-- Places of the parts of a row. The first fault suspends the operation; a line the slice lacks is asked for. -/
def State.rowPlaces (s : State) (u : Nat) (o : TileOp) (m : Nat) : List (Nat × Nat) → Option (List (Place × Nat)) × State
  | [] => (some [], s)
  | (va, n) :: rest =>
    let write := decide (o.kind ≠ .tlda)
    match s.tilePlace u o.ctx va (if write then .write else .read) with
    | (.error e, s) => (none, if e = waitCode then s else s.suspendTile u 0 m e va)
    | (.ok p, s) =>
      let t := coreTower (u / 2)
      let line := p.pa / 128
      let ok := if p.tgt = 0 then (if write then s.canWrite line t else s.canRead line t) else !s.basinBusy p.pa
      if ok then
        match s.rowPlaces u o m rest with
        | (none, s) => (none, s)
        | (some ps, s) => (some ((p, n) :: ps), s)
      else (none, if p.tgt = 0 then s.wantLine line t write else s)

/-- A weak write of a tile unit (R357), with the copy in its core's L1. -/
def State.tileWrite (s : State) (u : Nat) (p : Place) (bs : List Byte) : State := (s.storeAt (.engine (u / 2)) p bs {}).2

/-- Events of a row's part are counted against the window of its own line (R70). -/
def State.countRow (s : State) (p : Place) (sat nan : Nat) : State :=
  s.countWin (if p.tgt = 0 then some p.pa else none) (fun w => { w with sat := satAdd 64 w.sat sat, nanp := satAdd 64 w.nanp nan })

/-- Moves row `m` whose places are known. -/
def State.moveRow (s : State) (u : Nat) (o : TileOp) (m : Nat) (ps : List (Place × Nat)) : State :=
  if o.kind = .tlda then
    let r := ps.foldl (fun (acc : List Byte × Option Nat × State) (p : Place × Nat) =>
      match acc.2.2.tileRead u p.1 p.2 with
      | (some (bs, sc), s) => (acc.1 ++ bs, (sc.bind (·.at_)), s.tilePoison u o p.1 p.2)
      | (none, s) => (acc.1, acc.2.1, s)) ([], none, s)
    r.2.2.loadRow u o m r.1 r.2.1
  else
    let out := (s.tile u).outRow o m
    match ps, o.kind with
    | [(p, _), (x, _)], .tcvt => ((s.countRow p out.sat out.nan).tileWrite u p out.bytes).tileWrite u x out.exps
    | [(p, _), (x, _)], _ =>
      (((s.countRow p out.sat (out.nan - out.nan2)).countRow x 0 out.nan2).tileWrite u p (out.bytes.take 128)).tileWrite u x (out.bytes.drop 128)
    | (p, _) :: _, _ => (s.countRow p out.sat out.nan).tileWrite u p out.bytes
    | [], _ => s

/-- The slot, or the carry plane, becomes zero (R358). -/
def TileUnit.zeroSlot (t : TileUnit) (slot : Nat) : TileUnit :=
  if slot = 15 then { t with carry := [] }
  else
    let mine := fun (i : Nat) => decide (i / 4096 = slot)
    { t with acc := t.acc.filter (fun c => !mine c.1), loadedNan := t.loadedNan.filter (fun i => !mine i) }

/-- The operation has work left for its next unit. -/
def TileOp.left (o : TileOp) : Bool :=
  match o.kind with
  | .tmma => decide (o.pos < tK o.block)
  | _ => decide (o.steps < o.units)

/-- The next unit of the running operation, where it can be performed once it is paid: its places. -/
def State.unitPrep (s : State) (u : Nat) : Option (TileOp × List (Place × Nat)) × State :=
  match s.activeOp u with
  | (none, s) => (none, s)
  | (some o, s) =>
    if !o.left then (none, s)
    else match o.kind with
      | .tmma => (if o.fed then some (o, []) else none, s)
      | .tzero => (some (o, []), s)
      | _ =>
        let m := o.rowsAt o.steps
        if o.rowsAt (o.steps + 1) = m then (some (o, []), s)
        else match s.rowPlaces u o m (o.rowParts m) with
          | (none, s) => (none, s)
          | (some ps, s) => (some (o, ps), s)

/-- Engine entry of the running operation's unit (Table 10-5). -/
def TileOp.priceEntry (o : TileOp) : Nat :=
  match o.kind with
  | .tmma => (if tCplx o.block then 0x810 else 0x800) + tAt o.block
  | .tzero => 0x822
  | .tcvt => 0x821
  | _ => 0x820

def State.unitDo (s : State) (u : Nat) (o : TileOp) (ps : List (Place × Nat)) : State :=
  match o.kind with
  | .tmma => s.kstep u o
  | .tzero => s.modTile u (fun t => (t.zeroSlot o.slot).setHead { o with steps := o.steps + 1 })
  | _ =>
    let m := o.rowsAt o.steps
    let s := if ps.isEmpty then s else s.moveRow u o m ps
    s.modTile u (·.setHead { o with steps := o.steps + 1, done := o.rowsAt (o.steps + 1) })

/-- TILE_KSTEP (R337, R345): one paid k-step or accumulator unit. -/
def execTileKstep (unit : Nat) (s : State) : Res :=
  match s.unitPrep unit with
  | (none, s) => .next s
  | (some (o, ps), s) => .next (s.unitDo unit o ps)

/-! ## The end of an operation -/

/-- The operation leaves the queue and the tile counter falls; that of a restored rill does not hold it (R428). -/
def State.popTile (s : State) (u : Nat) (o : TileOp) : State :=
  let s := s.modTile u (fun t => { t with queue := t.queue.tail })
  if o.counted then s.modOwner o (fun r => { r with ntl := r.ntl - 1 }) else s

/-- The room that holds a tile unit. -/
def State.unitRoom (s : State) (u : Nat) : Nat :=
  ((s.rooms.find? (fun p => p.2.live && p.2.core == u / 2 && p.2.units.contains (u % 2))).map (·.1)).getD 0

/-- TILE_OP_COMPLETE (R340, R354): after the last write, the release and the completion action, which posts a ring of the
unit's group whether or not the issuing rill is still there. -/
def execTileOpComplete (unit : Nat) (s : State) : Res :=
  match s.activeOp unit with
  | (none, s) => .next s
  | (some o, s) =>
    if o.left then .next s
    else if o.kind = .tmma then
      let r := s.completionOf (s.unitRoom unit) (unit / 2) o.ctx o.block
      .next (if r.1 then r.2.popTile unit o else r.2)
    else .next (s.popTile unit o)

/-- An unresolvable fault ends the running operation (R353): open segments close at DONE, at DONE 0 a CLR still clears the cells, the word with ENDED
goes to %rowprog, and the rill takes the tile-fault trap at its next issue, or at once at a TWAIT. -/
def State.endTile (s : State) (u : Nat) (o : TileOp) : State :=
  let s :=
    if o.kind ≠ .tmma then s
    else if o.done = 0 then
      if tClr o.block then s.modTile u (fun t => o.cells t (fun t m n => (t.setCell (tSlot o.block) m n 0).markNan (tSlot o.block) m n false)) else s
    else if isSbiCode (tAt o.block) then
      s.modTile u (fun t => o.cells t (fun t m n =>
        let e := o.before.exps m n (o.done - 1)
        t.closeSegment (tSlot o.block) m n (e.1 + e.2)))
    else s
  let k := o.rill
  let s := s.modOwner o (fun r => { r with rowprog := progress false true o.fop o.frow o.done })
  let s := s.popTile u o
  let r := s.rill k
  match r.waits.find? (fun w => match w.ins with
    | .twait .. => true
    | _ => false) with
  | some w =>
    if r.trap.isSome then s.pendOwner o 0x16
    else
      (s.modRill k (fun r => { r with waits := r.waits.filter (· != w) })).park k
        { cause := 0x16, pc := w.pc, resume := w.pc, word := BitVec.ofNat 32 ((encode w.ins).getD 0), cohort := w.lanes }
  | none => s.pendOwner o 0x16

end Sys2Proof.Machine
end

