-- ==== Sys2Proof/Machine/Collective.lean ====
section
/-! DEFINITION. Confluence: COLL and its collectives (R385 to R392). -/
namespace Sys2Proof.Machine

/-! ## The parameter block (Table 16-8) -/

def cOp (b : List Nat) : Nat := bitsOf 35 32 (word64 b 7)
def cDt (b : List Nat) : Nat := bitsOf 38 36 (word64 b 7)
def cTree (b : List Nat) : Bool := bitOf 39 (word64 b 7)
def cOutf (b : List Nat) : Bool := bitOf 40 (word64 b 7)
def cNrank (b : List Nat) : Nat := bitsOf 54 48 (word64 b 7)
def cCount (b : List Nat) : Nat := bitsOf 31 0 (word64 b 7)
def cNbkt (b : List Nat) : Nat := bitsOf 47 32 (word64 b 8)
def cWclass (b : List Nat) : Nat := bitsOf 58 56 (word64 b 7)
def cCid (b : List Nat) : Nat := bitsOf 15 0 (word64 b 8)
def cBkte (b : List Nat) : Nat := bitsOf 31 0 (word64 b 11)
def cBuckets (b : List Nat) : Nat := max 1 (cNbkt b)
/-- Elements of a bucket. -/
def cElems (b : List Nat) : Nat := if cNbkt b = 0 then cCount b else cBkte b
/-- Elements of a chunk (R386). -/
def cChunk (b : List Nat) : Nat := cElems b / cNrank b

/-- The checks of R35 and R385 for device `dev`. -/
def collBad (dev : Nat) (b : List Nat) : Bool :=
  let w7 := word64 b 7
  let w8 := word64 b 8
  let ranks := (List.range 64).map (fun i => word64 b (16 + i / 8) / 256 ^ (i % 8) % 256)
  let n := cNrank b
  headerBad 0x03 3 b || decide (2 ^ 57 ≤ word64 b 3) || decide (2 ^ 57 ≤ word64 b 4) || word64 b 3 % 128 != 0 ||
  word64 b 4 % 128 != 0 || (if cDt b = 2 then decide (2 ^ 57 ≤ word64 b 5) else word64 b 5 != 0) ||
  decide (2 ^ 57 ≤ word64 b 6) || word64 b 6 % 8 != 0 || bitsOf 63 59 w7 != 0 || bitOf 55 w7 || bitsOf 47 41 w7 != 0 ||
  decide (n < 2) || decide (64 < n) || decide (2 < cDt b) || decide (2 < cOp b) || (cTree b && cOp b != 0) ||
  (cOutf b && (cDt b != 2 || cOp b == 2)) || cCount b == 0 || bitsOf 63 48 w8 != 0 || bitsOf 31 16 w8 != 0 ||
  decide (4096 < cNbkt b) || decide (2 ^ 57 ≤ word64 b 9) || (cNbkt b != 0 && word64 b 9 % 8 != 0) ||
  bitsOf 63 32 (word64 b 11) != 0 || (cNbkt b != 0 && cNbkt b * cBkte b != cCount b) ||
  [12, 13, 14, 15].any (fun i => word64 b i != 0) ||
  ranks.zipIdx.any (fun p => if p.2 < n then decide (64 ≤ p.1) else p.1 != 0) ||
  ((ranks.take n).filter (· == dev)).length != 1 ||
  cElems b % (n * (if cDt b = 2 then 32 else 1)) != 0

/-- COLL (R392). -/
def execColl (a : BitVec 7) (_r : BitVec 1) (g : BitVec 2) (s : State) : Res :=
  match s.blockAddr a g with
  | none => .next s.advance
  | some addr =>
    match s.capture addr 3 with
    | .error t => .next t
    | .ok (b, t) =>
      if collBad t.fab.devno b then .next (t.trap 0x0B)
      else .next ((t.pushCopy { kind := .coll, block := b }).endRegion (s.acting g.toNat)).advance

/-! ## Reading the source -/

/-- This device's rank. -/
def State.collRank (s : State) (b : List Nat) : Nat := ((collRanks b).findIdx? (· == s.fab.devno)).getD 0

def State.setColl (s : State) (i : Nat) (c : Coll) : State :=
  { s with fab := { s.fab with colls := setNth s.fab.colls i c } }

/-- A trap for the rill that issued it. -/
def State.collTrap (s : State) (c : Coll) (cause : Nat) : State :=
  s.pendTrapOf { group := c.group, card := c.card, rid := c.rid } cause

/-- A read of a collective cannot be made: it waits, or is suspended; poisoned data end it with its rill's data-poison trap,
and a peer that cannot be reached ends it (log entry 103). -/
def State.collFault (s : State) (i : Nat) (c : Coll) (code addr : Nat) : State :=
  if code = waitCode then s
  else if code = poisonCode then (s.collTrap c 0x12).setColl i { c with status := some (3, s.collRank c.block) }
  else if code = lostCode then s.setColl i { c with status := some (1, s.collRank c.block) }
  else s.suspendColl i c code addr

/-- Size in bytes of an element as stored (R385). -/
def cSize (b : List Nat) : Nat := [4, 2, 1].getD (cDt b) 1
/-- The scale that the element at byte `i` of a line takes: for DT 2 its block's exponent in an SBI8 window, else the scale of a
floating-point window, 127 elsewhere (R61, R386). -/
def Sidecar.operandScale (sc : Sidecar) (dt i : Nat) : Nat :=
  if dt = 2 then (if sc.fmt = 6 then sc.scales.getD (i / 32) 127 else 127)
  else if 1 ≤ sc.fmt ∧ sc.fmt ≤ 5 then sc.scales.getD 0 127
  else 127

/-- A collective as a party that reads for itself (R262). -/
def Coll.party (c : Coll) : Nat := 2 ^ 40 + c.tag

/-- Reads `n` bytes from `base` on, line by line after what has been read already, with the scale each byte's element takes
(R386) and the NaN blocks consumed: the outcome, and what has been read. -/
def State.collRead (s : State) (c : Coll) (base n : Nat) :
    Nat → List (Byte × Nat) → Except (Nat × Nat) Unit × List (Byte × Nat) × State
  | 0, got => (.ok (), got, s)
  | fuel + 1, got =>
    if n ≤ got.length then (.ok (), got, s)
    else
      let va := base + got.length
      let m := min (n - got.length) (128 - va % 128)
      match s.translate .direct c.ctx va .read false with
      | (.error e, s) => (.error (e, va), got, s)
      | (.ok p, s) =>
        match s.readAt .direct c.party c.ctx va p m with
        | (.error e, s) => (.error (e, va), got, s)
        | (.ok bs, s) =>
          let sc := if p.tgt = 0 then s.sidecar (p.pa / 128) else {}
          let scale := fun (i : Nat) => sc.operandScale (cDt c.block) ((va + i) % 128)
          ((s.countGrains sc [(va % 128, m)]).dropReads c.party).collRead c base n fuel
            (got ++ bs.zipIdx.map (fun x => (x.1, scale x.2)))

/-- Elements this rank contributes to a bucket: the offset of the first, and how many. -/
def cOwn (b : List Nat) (bucket : Nat) : Nat × Nat :=
  if cOp b = 2 then (bucket * cChunk b, cChunk b) else (bucket * cElems b, cElems b)

/-! ## Combining (R388, R389) -/

/-- A floating-point element of a rank: its value with its scale. -/
def cElem (dt : Nat) (bits scale : Nat) : FVal :=
  if scale = 255 then .nan false
  else
    match (if dt = 0 then fp32 else bf16).decode bits with
    | .fin n m e => .fin n m (e + (scale : Int) - 127)
    | x => x

def fpAdd (x y : FVal) : FVal := fp32.decode (fp32.settle 0 false false [x, y]).1

/-- The ring's order for chunk `i` (R388). -/
def ringOrder (n i : Nat) : List Nat := (List.range n).map (fun j => (i + 1 + j) % n)

def ringSum (n i : Nat) (x : Nat → FVal) : FVal :=
  match ringOrder n i with
  | [] => .fin false 0 0
  | r :: t => t.foldl (fun acc j => fpAdd acc (x j)) (x r)

/-- The tree's value at rank `i` (R388). -/
def treeSum (n : Nat) (x : Nat → FVal) : Nat → Nat → FVal
  | 0, i => x i
  | fuel + 1, i =>
    let v := if 2 * i + 1 < n then fpAdd (x i) (treeSum n x fuel (2 * i + 1)) else x i
    if 2 * i + 2 < n then fpAdd v (treeSum n x fuel (2 * i + 2)) else v

/-- A result of R388 as stored bits. -/
def cStore (dt : Nat) (v : FVal) : Nat := ((if dt = 0 then fp32 else bf16).cvt 0 v).1

/-- What a list of elements delivers: bytes, exponent bytes, and the offsets of the bytes at which an element saturated
or a NaN was produced. -/
structure CollOut where
  bytes : List Byte := []
  exps : List Byte := []
  sat : List Nat := []
  nan : List Nat := []

def CollOut.append (a b : CollOut) : CollOut :=
  let at_ := fun (i : Nat) => a.bytes.length + i
  { bytes := a.bytes ++ b.bytes, exps := a.exps ++ b.exps, sat := a.sat ++ b.sat.map at_, nan := a.nan ++ b.nan.map at_ }

/-- One element of chunk `chunk`, `x` giving each rank's operand. -/
def combineFloat (b : List Nat) (chunk : Nat) (x : Nat → FVal) : CollOut :=
  let n := cNrank b
  let v := if cTree b then treeSum n x 6 0 else ringSum n chunk x
  let w := cStore (cDt b) v
  { bytes := toBytes (cSize b) w
    nan := if v.isNan && !(List.range n).any (fun r => (x r).isNan) then [0] else [] }

/-- One block of R389: `q` gives each rank's elements, `x` its exponent. -/
def combineBlock (outf : Bool) (n : Nat) (q : Nat → List Int) (x : Nat → Nat) : CollOut :=
  let e := (List.range n).foldl (fun m r => max m (x r)) 0
  if e = 255 then
    (if outf then { bytes := (List.replicate 32 (toBytes 4 fp32.nan)).flatten } else { bytes := List.replicate 32 0, exps := [255] })
  else
    let a := fun (r k : Nat) => roundInt 0 ⟨(q r).getD k 0, 8 - ((e : Int) - x r)⟩
    let sums := (List.range 32).map (fun k => (List.range n).foldl (fun v r => v + a r k) 0)
    if outf then { bytes := (sums.map (fun v => toBytes 4 (fp32.roundDy 0 ⟨v, (e : Int) - 135⟩ false).1)).flatten }
    else
      let at_ := fun (f : Nat) (v : Int) => roundInt 0 ⟨v, (e : Int) - 8 - f⟩
      let best := (List.range 255).find? (fun f => sums.all (fun v => decide ((at_ f v).natAbs ≤ 127)))
      let f := best.getD 254
      let el := sums.map (at_ f)
      { bytes := el.map (fun v => BitVec.ofNat 8 (intBits 8 (max (-127) (min 127 v))))
        exps := [BitVec.ofNat 8 f]
        sat := (List.range 32).filter (fun k => decide (127 < (el.getD k 0).natAbs)) }

/-- The result of elements `lo` to `lo + len − 1` of a bucket, from every rank's operands (R388, R389). -/
def Coll.combine (c : Coll) (bucket lo len : Nat) : CollOut :=
  let b := c.block
  let n := cNrank b
  let data := fun r => c.data.get [] (64 * bucket + r)
  let exps := fun r => c.exps.get [] (64 * bucket + r)
  if cDt b = 2 then
    (List.range (len / 32)).foldl (fun acc j =>
      let blk := lo / 32 + j
      acc.append (combineBlock (cOutf b) n
        (fun r => (((data r).drop (32 * blk)).take 32).map BitVec.toInt) (fun r => ((exps r).getD blk 127).toNat))) {}
  else
    let z := cSize b
    (List.range len).foldl (fun acc j =>
      let k := lo + j
      acc.append (combineFloat b (k / cChunk b)
        (fun r => cElem (cDt b) (ofBytes (((data r).drop (z * k)).take z)) ((exps r).getD k 127).toNat))) {}

/-- Splits a write at the boundaries of lines, each part with its events. -/
def lineWrites : Nat → Nat → CollOut → List CollWrite
  | 0, _, _ => []
  | fuel + 1, va, o =>
    if o.bytes.isEmpty then []
    else
      let m := 128 - va % 128
      let part := fun (l : List Nat) => (l.filter (· < m)).length
      let rest := fun (l : List Nat) => (l.filter (m ≤ ·)).map (· - m)
      { va := va, bytes := o.bytes.take m, sat := part o.sat, nan := part o.nan } ::
        lineWrites fuel (va + m) { bytes := o.bytes.drop m, sat := rest o.sat, nan := rest o.nan }

/-- The writes of a bucket (R386): its results at DSTVA, with what they count, and its exponents at DXVA. -/
def Coll.outputs (c : Coll) (rank bucket : Nat) : List CollWrite :=
  let b := c.block
  let n := cNrank b
  let z := if cOutf b then 4 else cSize b
  let dst := word64 b 4
  let dx := word64 b 5
  let e := cElems b
  let put := fun (first : Nat) (o : CollOut) =>
    lineWrites (o.bytes.length + 1) (dst + z * first) o ++ lineWrites (o.exps.length + 1) (dx + first / 32) { bytes := o.exps }
  match cOp b with
  | 0 =>
    put (bucket * e) (c.combine bucket 0 e)
  | 1 =>
    put (bucket * cChunk b) (c.combine bucket (rank * cChunk b) (cChunk b))
  | _ =>
    put (bucket * e)
      { bytes := ((List.range n).map (fun r => c.data.get [] (64 * bucket + r))).flatten
        exps := if cDt b = 2 then ((List.range n).map (fun r => c.exps.get [] (64 * bucket + r))).flatten else [] }

/-! ## Packets (R377, R388, R390) -/

/-- Flits of the packets that carry `n` bytes: 16 flits hold 992 beside the packet's header and tag (R368). -/
def chunkFlits : Nat → Nat → List Nat
  | 0, _ => []
  | fuel + 1, n => if n = 0 then [] else ceilDiv (min n 992 + 32) 64 :: chunkFlits fuel (n - 992)

/-- The packets of `k` chunks of `n` elements, of `z` bytes each, to each of `dsts`. -/
def chunkPackets (k n z : Nat) (dsts : List Nat) : List (Nat × List Nat) :=
  if dsts.isEmpty then [] else (List.replicate k ((chunkFlits (n * z) (n * z)).map (·, dsts))).flatten

/-- Device of rank `r`. -/
def rankDev (b : List Nat) (r : Nat) : Nat := (collRanks b).getD r 0

/-- What this rank sends of a bucket that has started: its chunks to the next rank of the ring, or its sum to its parent in
the tree. What the packets hold, and when each goes, is the model's choice (log entry 103). -/
def Coll.opening (b : List Nat) (rank : Nat) : List (Nat × List Nat) :=
  let n := cNrank b
  if cTree b then (if rank = 0 then [] else chunkPackets n (cChunk b) 4 [rankDev b ((rank - 1) / 2)])
  else chunkPackets (n - 1) (cChunk b) (cSize b) [rankDev b ((rank + 1) % n)]

/-- What this rank sends of the results of a bucket (R388): round the ring, or from rank 0 to every other rank as a
multicast. -/
def Coll.closing (b : List Nat) (rank : Nat) : List (Nat × List Nat) :=
  let n := cNrank b
  let z := if cOutf b then 4 else cSize b
  if cOp b ≠ 0 then []
  else if cTree b then
    (if rank = 0 then chunkPackets n (cChunk b) z ((List.range' 1 (n - 1)).map (rankDev b)) else [])
  else chunkPackets (n - 1) (cChunk b) z [rankDev b ((rank + 1) % n)]

/-- Gives the pool the packets of a collective that it has room for, in order. -/
def State.collSends (s : State) (i : Nat) : Nat → State
  | 0 => s
  | fuel + 1 =>
    match s.fab.colls[i]? with
    | none => s
    | some c =>
      match c.sends with
      | [] => s
      | (n, dsts) :: t =>
        match s.multicast c.tag (cWclass c.block) n dsts with
        | none => s
        | some s => (s.setColl i { c with sends := t }).collSends i fuel

/-! ## The collective's progress -/

/-- Makes the writes still to be made, in order, each with its events (R70); stops at one that the slice cannot take, or
that faults. -/
def State.collWrites (s : State) (i : Nat) : Nat → State
  | 0 => s
  | fuel + 1 =>
    match s.fab.colls[i]? with
    | none => s
    | some c =>
      match c.todo with
      | [] => s
      | x :: t =>
        match s.translate .direct c.ctx x.va .write false with
        | (.error e, s) => if e = waitCode then s else s.suspendColl i c e x.va
        | (.ok p, s) =>
          match s.storeAt .direct p x.bytes { va := x.va, acc := c.tag } with
          | (false, s) => s
          | (true, s) =>
            let s := s.countWin (if p.tgt = 0 then some p.pa else none) (fun w =>
              { w with sat := satAdd 64 w.sat x.sat, nanp := satAdd 64 w.nanp x.nan })
            (s.setColl i { c with todo := t }).collWrites i fuel

/-- A started bucket that is not combined yet, all of whose operands are here. -/
def Coll.whole (c : Coll) : Option Nat :=
  (List.range c.started).find? (fun k =>
    !c.written.contains k && (List.range (cNrank c.block)).all (fun r => (c.data.find (64 * k + r)).isSome))

/-- The next bucket all of whose operands are here is combined and written, and its results are sent on. -/
def State.collStep (s : State) (i : Nat) : State :=
  match s.fab.colls[i]? with
  | none => s
  | some c =>
    if c.susp || c.status.isSome then s
    else
      let rank := s.collRank c.block
      let c := match (if c.todo.isEmpty then c.whole else none) with
        | none => c
        | some k => { c with todo := c.outputs rank k, written := c.written ++ [k], sends := c.sends ++ Coll.closing c.block rank }
      ((s.setColl i c).collSends i c.sends.length).collWrites i (c.todo.length + 1)

/-- The signal of a bucket suffices (R387), `none` where the read faults or must wait. The acquire asks for nothing more:
Confluence reads past every L1, and its reads of the source follow. A word in device memory that does not suffice is read again
when its line is stored to. -/
def State.collSignal (s : State) (i : Nat) (c : Coll) (bucket : Nat) : Option Bool × State :=
  let b := c.block
  if cNbkt b = 0 ∨ c.got ≠ [] then (some true, s)
  else match s.vread .direct c.party c.ctx (word64 b 9) 8 false with
    | (.error (e, a), s) => (none, s.collFault i c e a)
    | (.ok v, s) =>
      let ok := decide ((word64 b 10 + bucket + 1) % 2 ^ 64 ≤ ofBytes v)
      let line := match (s.translate .direct c.ctx (word64 b 9) .read false).1 with
        | .ok p => if p.tgt = 0 ∧ !ok then some (p.pa / 128) else none
        | .error _ => none
      (some ok, s.setColl i { c with watch := line, reread := false })

/-- COLLECTIVE_SIGNAL_READ (R387): buckets start in increasing order; a bucket that starts has its source
read. -/
def execCollectiveSignalRead (i bucket : Nat) (s : State) : Res :=
  match s.fab.colls[i]? with
  | none => .next s
  | some c =>
    let b := c.block
    if c.susp || c.status.isSome || bucket != c.started || decide (cBuckets b ≤ bucket) then .next s
    else match s.collSignal i c bucket with
      | (some true, s) =>
        let own := cOwn b bucket
        let z := cSize b
        let rank := s.collRank b
        let key := 64 * bucket + rank
        match s.collRead c (word64 b 3 + own.1 * z) (own.2 * z) (own.2 * z + 2) c.got with
        | (.error (e, a), got, s) =>
          let c := { c with got := got, watch := none, reread := false }
          .next ((s.setColl i c).collFault i c e a)
        | (.ok _, v, s) =>
          let scales := (List.range (own.2 / (if cDt b = 2 then 32 else 1))).map (fun j =>
            BitVec.ofNat 8 ((v.getD (j * (if cDt b = 2 then 32 else z)) (0, 127)).2))
          .next ((s.setColl i { c with
            started := bucket + 1, watch := none, reread := false, got := [], sends := c.sends ++ Coll.opening b rank
            data := c.data.set key (v.map Prod.fst), exps := c.exps.set key scales }).collStep i)
      | (_, s) => .next s

/-- What ranks compare at the first exchange (R391). -/
def collHeader (b : List Nat) : List Nat :=
  [cOp b, cDt b, (cTree b).toNat, (cOutf b).toNat, cNrank b, cCount b, cNbkt b, cBkte b] ++ collRanks b

/-- The collective that a chunk of identifier `cid` belongs to (R391, Table 16-10): the oldest of that identifier that still
waits for it. -/
def State.collFor (s : State) (cid bucket rank : Nat) : Option Nat :=
  s.fab.colls.findIdx? (fun c => cCid c.block == cid && c.status.isNone && (c.data.find (64 * bucket + rank)).isNone)

/-- COLLECTIVE_CHUNK (R386, R391): the operands of another rank for a bucket of identifier `cid`, from a device whose session is
open (R106): elements, with one scale an element, or one exponent a block for DT 2, and the fields compared. Its device has an
acknowledgement on VC2 (Table 16-4). -/
def execCollectiveChunk (cid bucket rank : Nat) (data exps : List Byte) (hdr : List Nat) (s : State) : Res :=
  let i := (s.collFor cid bucket rank).getD s.fab.colls.length
  match s.fab.colls[i]? with
  | none => .next s
  | some c =>
    let b := c.block
    let dev := rankDev b rank
    if decide (rank < cNrank b) && !(s.peer dev).sess then .next s
    else if hdr != collHeader b then .next (s.setColl i { c with status := some (2, rank) })
    else if decide (cNrank b ≤ rank) || rank == s.collRank b || decide (cBuckets b ≤ bucket) then .next s
    else if data.length != (cOwn b bucket).2 * cSize b then .next s
    else
      .next (((s.setColl i { c with
        data := c.data.set (64 * bucket + rank) data, exps := c.exps.set (64 * bucket + rank) exps }).collStep i).queueOut dev 2 1 [])

/-- The status word (R391). -/
def collStatus (code rank buckets : Nat) : Nat := code + rank * 256 + buckets % 2 ^ 32 * 2 ^ 16

/-- A store of the collective's to a peer is not acknowledged yet: one of its results (`arg` 0), or its status word (3). -/
def State.collStoring (s : State) (c : Coll) (arg : Nat) : Bool :=
  s.fab.reqs.any (fun r => r.rill == noRill && r.kind == .store && r.arg == arg && r.acc == c.tag)

/-- Some packet or store of the collective is not acknowledged yet (R377). -/
def State.collOut (s : State) (c : Coll) : Bool :=
  !c.sends.isEmpty || s.fab.packets.any (fun p => p.coll == c.tag) || s.collStoring c 0

/-- Buckets wholly written. -/
def Coll.completed (c : Coll) : Nat := c.written.length - (if c.todo.isEmpty then 0 else 1)

/-- The status with which a collective ends, once it does (R391): an error, a rank without a route for 100 ms, or completion. -/
def State.collOver (s : State) (c : Coll) : Option (Nat × Nat) :=
  match c.status with
  | some x => some x
  | none =>
    match s.lostRank c.block, c.since with
    | some r, some t => if !s.holding (rankDev c.block r) && decide (t + 100000000 ≤ s.now 1) then some (1, r) else none
    | _, _ => if c.completed = cBuckets c.block ∧ !s.collOut c then some (0, 0) else none

/-- The completion action of a collective (R34), after its last write. -/
def State.collAction (s : State) (c : Coll) : Bool × State :=
  match hCmode c.block with
  | 2 => s.deviceStore .direct c.ctx { va := word64 c.block 1, arg := 2 } (toBytes 8 (word64 c.block 2))
  | _ => s.completionOf c.room c.core c.ctx c.block

/-- The collective leaves Confluence. -/
def State.dropColl (s : State) (i : Nat) (c : Coll) : State :=
  { s with
    fab := { s.fab with colls := dropNth s.fab.colls i, packets := s.fab.packets.filter (fun p => p.coll != c.tag) }
    traps := { s.traps with
      waiting := s.traps.waiting.filter (· != EventOf.coll c.tag)
      events := s.traps.events.filter (fun e => e.2 != EventOf.coll c.tag) } }

/-- COLLECTIVE_END (R391): a collective that is complete, or has met an error, stores its status word once its writes to peers are
acknowledged, and, once that is acknowledged too, performs its completion action (R34, R320). -/
def execCollectiveEnd (i : Nat) (s : State) : Res :=
  let s := s.collStep i
  match s.fab.colls[i]? with
  | none => .next s
  | some c =>
    let b := c.block
    match s.collOver c with
    | none => .next s
    | some st =>
      let c := { c with status := some st, susp := false }
      let s := s.setColl i c
      if s.collStoring c 0 then .next s
      else
        let r := if c.told || word64 b 6 = 0 then (true, s)
          else s.deviceStore .direct c.ctx { va := word64 b 6, arg := 3, acc := c.tag } (toBytes 8 (collStatus st.1 st.2 c.completed))
        if !r.1 then .next r.2
        else
          let s := r.2.setColl i { c with told := true }
          if s.collStoring c 3 then .next s
          else
            let a := s.collAction c
            .next (if a.1 then a.2.dropColl i c else a.2)

end Sys2Proof.Machine
end

