-- ==== Sys2Proof/Machine/Sluice.lean ====
section
/-! DEFINITION. The Sluices: requests of peers, applied once each (R378, R379), and the Sluice programs
(R382). -/
namespace Sys2Proof.Machine

/-- Key of a Sluice's window for a source and channel. -/
def winKey (sluice src vc : Nat) : Nat := 128 * sluice + 2 * src + vc

/-- A Sluice may access a line now: device memory at the home-tower slice, or basin store (R267). -/
def State.sluiceMay (s : State) (addr : Nat) (write : Bool) : Bool :=
  let line := addr / 128
  if bitOf 40 addr then !s.basinBusy (addr % 2 ^ 40)
  else if write then s.canWrite line (homeBd line) else s.canRead line (homeBd line)

def State.sluiceWant (s : State) (addr : Nat) (write : Bool) : State :=
  if bitOf 40 addr then s else s.wantLine (addr / 128) (homeBd (addr / 128)) write

def State.sluiceDone (s : State) (addr : Nat) (write : Bool) : State :=
  if bitOf 40 addr then s else s.lineDone (addr / 128) (homeBd (addr / 128)) write

/-- An access of a Sluice within a line, with its response. It is `none`, with the tokens asked for, while the slice lacks
them. -/
def State.sluiceLine (s : State) (addr : Nat) (write : Bool) (f : State → State × List Byte) : Option (List Byte) × State :=
  if s.sluiceMay addr write then
    let r := f s
    (some r.2, r.1.sluiceDone addr write)
  else (none, s.sluiceWant addr write)

/-- Target and address of an operand of a request: SPACE is bit 40. -/
def spaceOf (addr : Nat) : Nat × Nat := if bitOf 40 addr then (1, addr % 2 ^ 40) else (0, addr % 2 ^ 40)

def State.sluiceWrite (s : State) (addr : Nat) (bs : List Byte) : State :=
  let p := spaceOf addr
  (s.poke p.1 p.2 bs).clearPoison (homeBd (p.2 / 128)) p.1 p.2 (fun a => decide (p.2 ≤ a) && decide (a < p.2 + bs.length))

def State.sluicePeek (s : State) (addr n : Nat) : List Byte :=
  let p := spaceOf addr
  s.peek p.1 p.2 n

/-- A read of a Sluice meets a poisoned half. -/
def State.sluicePsn (s : State) (addr n : Nat) : Bool :=
  let p := spaceOf addr
  s.poisoned (homeBd (p.2 / 128)) p.1 p.2 n

/-- NaN blocks that a Sluice's read of the parts `rs` of a line consumes (R70). -/
def State.sluiceNan (s : State) (addr : Nat) (rs : List (Nat × Nat)) : State :=
  if bitOf 40 addr then s else s.countGrains (s.sidecar (addr / 128)) rs

/-- A lane atomic (R380): the sub-operation, and its operands of `n` bytes; the response is the old value. -/
def State.sluiceAtomic (s : State) (addr n sub v w : Nat) : State × List Byte :=
  let old := s.sluicePeek addr n
  let r := atomNew sub (8 * n) (ofBytes old) v w
  let t := (s.sluiceNan addr [(addr % 128, n)]).sluiceWrite addr (toBytes n r.1)
  let t := if sub = 10 ∧ !bitOf 40 addr ∧ (atomFadd (ofBytes old) v).2 then
      t.countWin (some addr) (fun w => { w with nanp := satAdd 64 w.nanp 1 })
    else t
  (t, old)

/-- Word `i` of a line. -/
def lineWord (bs : List Byte) (i : Nat) : Nat := ofBytes ((bs.drop (8 * i)).take 8)

/-- Pads a result to the 64 bytes of words 0 to 7. -/
def pad64 (bs : List Byte) : List Byte := (bs ++ List.replicate 64 0).take 64

/-- CASN (Table 16-7) on a line that may be written: the response, with the old words and whether every comparison held. -/
def State.casn (s : State) (b : List Nat) (t : Nat) : State × List Byte :=
  let idx := List.range (ropNw b)
  if idx.any (fun i => s.sluicePsn (t + 8 * ropWidx b i) 8) then (s, [2])
  else
    let s := s.sluiceNan t (idx.map (fun i => (8 * ropWidx b i, 8)))
    let bs := s.sluicePeek t 128
    let ok := idx.all (fun i => lineWord bs (ropWidx b i) == word64 b (7 + i))
    let old := (idx.map (fun i => toBytes 8 (lineWord bs (ropWidx b i)))).flatten
    let s := if ok then idx.foldl (fun s i => s.sluiceWrite (t + 8 * ropWidx b i) (toBytes 8 (word64 b (11 + i)))) s else s
    (s, 0 :: pad64 (toBytes 8 (if ok then 0 else 1) ++ old))

/-- The window of key `key`. -/
def State.setWin (s : State) (key : Nat) (f : SluiceWin → SluiceWin) : State :=
  { s with fab := { s.fab with wins := s.fab.wins.set key (f (s.fab.wins.get {} key)) } }

/-- ENQ (Table 16-7), request `n` of a window. The second line operation follows in a later event, with other accesses between; the
answer is `none` until it ends. -/
def State.enq (s : State) (b : List Nat) (t key n : Nat) : Option (List Byte) × State :=
  let new_ := toBytes 8 (word64 b 7)
  let answer := fun (st old : Nat) => some (0 :: pad64 (toBytes 8 st ++ toBytes 8 old))
  match (s.fab.wins.get {} key).enqs.find n with
  | some old =>
    let second := old + ropNoff b
    if !s.sluiceMay second true then (none, s.sluiceWant second true)
    else (answer 0 old, ((s.sluiceWrite second new_).sluiceDone second true).setWin key (fun w => { w with enqs := w.enqs.del n }))
  | none =>
    if !s.sluiceMay t true then (none, s.sluiceWant t true)
    else if s.sluicePsn t 8 then (some [2], s)
    else
      let old := ofBytes (s.sluicePeek t 8)
      let s := (s.sluiceNan t [(t % 128, 8)]).sluiceWrite t new_
      let s := (if old = 0 then s.sluiceWrite (t + 8) new_ else s).sluiceDone t true
      if old = 0 then (answer 0 old, s)
      else if badPointer old then (answer 4 old, s)
      else (none, s.setWin key (fun w => { w with enqs := w.enqs.set n old }))

/-- CHASE (R382): weak reads along the chain: the last pointer, the hops taken, the status and the addresses read; or the
address at which it must wait. -/
def State.chase (s : State) (noff : Nat) : Nat → Nat → Nat → List Nat → Except Nat (Nat × Nat × Nat × List Nat)
  | 0, p, h, rs => .ok (p, h, 0, rs)
  | fuel + 1, p, h, rs =>
    if !s.sluiceMay (p + noff) false then .error (p + noff)
    else
      let rs := rs ++ [p + noff]
      let nxt := ofBytes (s.sluicePeek (p + noff) 8)
      if nxt = 0 then .ok (p, h, 2, rs)
      else if badPointer nxt then .ok (p, h, 4, rs)
      else s.chase noff fuel nxt (h + 1) rs

/-- CHASE to its end: with the 32 bytes at the last pointer. Nothing is counted before every line is to hand. -/
def State.chaseAll (s : State) (b : List Nat) (t : Nat) : Option (List Byte) × State :=
  match s.chase (ropNoff b) (ropHops b) t 0 [] with
  | .error a => (none, s.sluiceWant a false)
  | .ok (p, h, st, rs) =>
    let words := (List.range 4).map (fun i => p + ropDoff b + 8 * i)
    match words.find? (fun a => !s.sluiceMay a false) with
    | some a => (none, s.sluiceWant a false)
    | none =>
      if (rs ++ words).any (fun a => s.sluicePsn a 8) then (some [2], s)
      else
        let data := (words.map (fun a => s.sluicePeek a 8)).flatten
        let read := fun (s : State) (a n : Nat) => (s.sluiceNan a [(a % 128, n)]).sluiceDone a false
        let s := rs.foldl (fun s a => read s a 8) s
        let first := p + ropDoff b
        let m := min 32 (128 - first % 128)
        let s := read s first m
        let s := if m < 32 then read s (first + m) (32 - m) else s
        (some (0 :: pad64 (toBytes 8 (st + 256 * h) ++ toBytes 8 p ++ data)), s)

/-- A Sluice program on target address `t` (Table 16-7): its response, or `none` where a line is not yet to hand. -/
def State.program (s : State) (b : List Nat) (t key n : Nat) : Option (List Byte) × State :=
  let len := ropLen b
  match ropProg b with
  | 0x01 => s.sluiceLine t false (fun s =>
      if s.sluicePsn t len then (s, [2]) else (s.sluiceNan t [(t % 128, len)], 0 :: pad64 (toBytes 8 0 ++ s.sluicePeek t len)))
  | 0x02 =>
    let data := (((List.range 6).map (fun i => toBytes 8 (word64 b (7 + i)))).flatten).take len
    s.sluiceLine t true (fun s => (s.sluiceWrite t data, 0 :: pad64 []))
  | 0x03 => s.sluiceLine t true (fun s => s.casn b t)
  | 0x04 => s.enq b t key n
  | _ => s.chaseAll b t

/-- Performs a request: op 0 a lane load of data[0] bytes, 1 a lane store, 2 a lane atomic (size, sub-operation,
two operands of 8 bytes), 3 a unit read, 4 a unit write, 5 an ROP's block. The first byte of the response is
its code: 0 done, 1 refused, 2 poisoned. -/
def State.perform (s : State) (key num op addr : Nat) (data : List Byte) : Option (List Byte) × State :=
  let arg := fun (i : Nat) => (data.getD i 0).toNat
  let n := arg 0
  let read := fun (len : Nat) => s.sluiceLine addr false (fun s =>
    if s.sluicePsn addr len then (s, [2]) else (s.sluiceNan addr [(addr % 128, len)], 0 :: s.sluicePeek addr len))
  if bitOf 40 addr && !s.basinOk false (addr % 2 ^ 40) then (some [1], s)
  else match op with
    | 0 => read n
    | 1 => s.sluiceLine addr true (fun s => (s.sluiceWrite addr data, [0]))
    | 2 => s.sluiceLine addr true (fun s =>
        if s.sluicePsn addr n then (s, [2])
        else (fun r => (r.1, 0 :: r.2)) (s.sluiceAtomic addr n (arg 1) (ofBytes ((data.drop 2).take 8)) (ofBytes ((data.drop 10).take 8))))
    | 3 => read 64
    | 4 => s.sluiceLine addr true (fun s => (s.sluiceWrite addr (data.take 64), [0]))
    | _ => s.program (words64 data) addr key num

/-- Sends a response on VC2 (R379). -/
def State.respond (s : State) (src : Nat) (bs : List Byte) : State := s.queueOut src 2 (if bs.length ≤ 17 then 1 else 2) []

/-! ## The result caches (R266, R379) -/

/-- Address of the entry of number `n` of a window: 64 bytes, 1,024 for each Sluice, source and channel. How the entries
lie in the region is the model's choice (log entry 104). -/
def cacheEntry (key n : Nat) : Nat := 0xBFDE000000 + (1024 * key + n % 1024) * 64

/-- The cached response to request `n` of a window. -/
def State.cached (s : State) (key n : Nat) : List Byte :=
  let c := (s.fab.wins.get {} key).cache.get (0, 0) n
  BitVec.ofNat 8 c.1 :: memRead s.dram (cacheEntry key n) c.2

/-- Bytes of the result cache that the response to an operation takes: those beside its code. -/
def replyBytes (op : Nat) (data : List Byte) : Nat :=
  match op with
  | 0 => (data.getD 0 0).toNat
  | 2 => (data.getD 0 0).toNat
  | 3 => 64
  | 5 => 64
  | _ => 0

/-- Applies request `n` of a window, once: its response is stored at its entry, a line of which its home slice needs every token
(R323); where a line is not to hand the request is to be tried again. -/
def State.applyReq (s : State) (key src n op addr : Nat) (data : List Byte) : Bool × State :=
  if !s.homeOpen (cacheEntry key n) (replyBytes op data) true then (false, s.homeAsk (cacheEntry key n) (replyBytes op data) true)
  else match s.perform key n op addr data with
  | (none, s) => (false, s)
  | (some bs, s) =>
    let s := s.setWin key (fun w => { w with
      applied := n :: w.applied, last := n, cache := w.cache.set n ((bs.headD 0).toNat, bs.length - 1)
      held := w.held.filter (fun h => h.n != n) })
    (true, (s.homePut (cacheEntry key n) bs.tail).respond src bs)

/-- Requests held for their order, or for a line, that may now be applied (R379): on VC0 the next in order, on VC1 in the order of
arrival. -/
def State.applyHeld (s : State) (key src : Nat) : Nat → List HeldReq → State
  | 0, _ => s
  | _, [] => s
  | fuel + 1, h :: t =>
    let w := s.fab.wins.get {} key
    if key % 2 = 0 then
      match w.held.find? (fun h => h.n == (w.last + 1) % 65536) with
      | none => s
      | some x =>
        match s.applyReq key src x.n x.op x.addr x.data with
        | (false, s) => s
        | (true, s) => s.applyHeld key src fuel (h :: t)
    else
      match s.applyReq key src h.n h.op h.addr h.data with
      | (false, s) => s
      | (true, s) => s.applyHeld key src fuel t

/-- What a window holds is tried again. -/
def State.retryHeld (s : State) (key src : Nat) : State := s.applyHeld key src 1024 (s.fab.wins.get {} key).held

/-- SLUICE_REQUEST (R379), of a peer whose session is open (R106). What lies before the latest u is free, and a late copy from
there is a duplicate. A request whose line is not yet to hand, or which has a predecessor on VC0 that is not applied, is held;
it is tried again when its window meets a request. -/
def execSluiceRequest (sluice src vc n u op addr : Nat) (data : List Byte) (s : State) : Res :=
  let key := winKey sluice src vc
  if 12 ≤ sluice ∨ 64 ≤ src ∨ 2 ≤ vc ∨ 65536 ≤ n ∨ 65536 ≤ u ∨ sluiceOf addr ≠ sluice ∨ !(s.peer src).sess then .next s
  else
    let w := s.fab.wins.get {} key
    let oldest := if before16 w.oldest u then u else w.oldest
    let live := fun (x : Nat) => decide ((x + 65536 - oldest) % 65536 < 1024)
    let w := { w with oldest := oldest, applied := w.applied.filter live, cache := w.cache.filter (fun p => live p.1) }
    let s := s.setWin key (fun _ => w)
    let again := fun (s : State) => { s with fab := { s.fab with dups := satAdd 64 s.fab.dups 1 } }
    if w.applied.contains n then .next ((again s).respond src (s.cached key n))
    else if before16 n oldest then .next (again s)
    else if !live n then .next s
    else
      let s := if w.held.any (fun h => h.n == n) then s
        else s.setWin key (fun w => { w with held := w.held ++ [{ n := n, op := op, addr := addr, data := data }] })
      .next (s.retryHeld key src)

end Sys2Proof.Machine
end

