-- ==== Sys2Proof/Machine/Drop.lean ====
section
/-! DEFINITION. Dropping rills (R427), saved contexts (R428, R429), and the launches that end early (R95,
R438). -/
namespace Sys2Proof.Machine

/-- Something has come or become free at die `d`: its candidates are to be evaluated (R117), and a span's refused
choices may be tried again. -/
def State.evaluateAt (s : State) (d : Nat) : State :=
  let s := s.modDie d (fun x => { x with evaluate := true })
  match s.spanReqs.get none (dieTower d) with
  | some r => if r.choice = 192 then { s with spanReqs := s.spanReqs.set (dieTower d) none } else s
  | none => s

/-! ## The firmware agents (R115, R420) -/

/-- The firmware agent of a core. -/
def agentKey (core : Nat) : Nat := slotKey core 0 15

def agentRill : Rill := { live := true, agent := true, started := true, width := 16, nvec := 0, nuni := 384, th := [(0, {})] }

def upperDie (t : Nat) : Nat := 7 + 2 * t
def dieCores (d : Nat) : List Nat := (List.range 24).map (coreKey d)

/-- Agents of a die's enabled cores start. -/
def State.loadAgents (s : State) (d : Nat) : State :=
  ((dieCores d).filter (fun c => bitOf (corePos c) (s.die d).enm)).foldl (fun (s : State) c => s.setRill (agentKey c) agentRill) s

/-! ## One rill -/

/-- Removes the event of an engine or rill that no longer waits. -/
def State.dropEvent (s : State) (e : EventOf) : State :=
  { s with traps := { s.traps with
      waiting := s.traps.waiting.filter (· != e), events := s.traps.events.filter (fun x => x.2 != e) } }

/-- What an issue that is still in its passes has written is discarded, in the lanes whose regions have not ended since (R198,
R427). -/
def State.unwind (s : State) (k : Nat) : State :=
  let clk := (s.core (keyCore k)).clk
  ((s.rill k).undo.filter (fun u => decide (clk < u.till))).foldl (fun s u =>
    let open_ := fun (l : Nat) => ((s.rill k).thread l).region == (u.th.get {} l).region
    let s' := (u.regs.filter (fun x => open_ x.2.1)).foldl (fun s x => s.setVreg k x.1 x.2.1 x.2.2) s
    s'.mapThreads k ((u.th.map (·.1)).filter open_) (fun l t =>
      let o := u.th.get {} l
      { t with flags := o.flags, g1 := o.g1, g2 := o.g2, g3 := o.g3 })) s

/-- Steps 1 and 2 of R427: issue stops, every latch of the partition is cleared (R139), held threads are released with nothing taken effect, and
register-only work is discarded. Accesses with stores or atomics, arrivals and copies go on (steps 3, 4), for which the reserve
stays until the slot is freed. -/
def State.dropRill (s : State) (k : Nat) : State :=
  let r := s.rill k
  if !r.live || r.dropped || r.agent then s
  else
    let s := (s.clearLatches (keyCore k) (keyPart k) (fun _ _ => true)).dropReads k
    let s := (s.modCore (keyCore k) (fun c => { c with rsv := c.rsv.filter (· != k) })).unwind k
    s.modRill k (fun r => { r with
      dropped := true, waits := [], undo := [], vtoks := [], denials := 0, intent := none
      accs := r.accs.filter (fun a => !a.isLoad) })

/-- The rill's drains have ended (R427): a command held by a fault that no arrival waits for is abandoned
(R299). -/
def State.drained (s : State) (k : Nat) : Bool :=
  let r := s.rill k
  r.accs.isEmpty && r.arrivals.isEmpty &&
    r.copies.all (fun c => c.kind != .acopy || (c.held.isSome && !r.awaits c))

/-- Requests of the rill whose answers nothing awaits any more. -/
def State.forgetReqs (s : State) (k : Nat) : State :=
  { s with fab := { s.fab with reqs := s.fab.reqs.map (fun r => if r.rill = k then { r with rill := noRill } else r) } }

/-- RCOPY and ROP commands, and COLLs that Confluence has not taken, go on without their rill, on the core that holds them (R302, R384, R392). -/
def State.orphan (s : State) (k : Nat) : State :=
  let r := s.rill k
  let cs := r.copies.filter (fun c => c.kind != .acopy)
  let s := (r.copies.filter (fun c => c.kind == .acopy)).foldl (fun s c => s.dropEvent (.copy k c.id)) s
  if cs.isEmpty then s
  else
    let o := orphanBase + s.fresh
    let mine := fun (acc : Nat) => cs.any (fun c => c.id == acc)
    let e := fun (x : EventOf) => match x with
      | .copy j id => if j = k then EventOf.copy o id else x
      | _ => x
    let x : Rill :=
      { group := r.group, card := r.card, rid := r.rid, room := r.room, ctx := r.ctx, launch := r.launch
        pclass := r.pclass, obsm := r.obsm, homeCore := s.coreOf k, copies := cs }
    { s.setRill o x with
      fresh := s.fresh + 1
      fab := { s.fab with
        reqs := s.fab.reqs.map (fun q => if q.rill = k && !q.kind.isLane && mine q.acc then { q with rill := o } else q) }
      traps := { s.traps with
        waiting := s.traps.waiting.map e, events := s.traps.events.map (fun p => (p.1, e p.2)) } }

/-- Tile operations of the rill go on without it. -/
def State.disown (s : State) (k : Nat) : State :=
  let mine := fun (o : TileOp) => if o.rill = k then { o with rill := noRill } else o
  { s with tiles := s.tiles.map (fun p => if p.2.queue.isEmpty then p else (p.1, { p.2 with queue := p.2.queue.map mine })) }

/-- The slot is free: nothing of the rill is left in it. An extended block that it holds is released (R415, R443). -/
def State.freeSlot (s : State) (k : Nat) : State :=
  let s := (s.leaveBlock k).disown k
  let r := s.rill k
  let s := (s.clearLatches (keyCore k) (keyPart k) (fun _ h => h.rill == k)).dropReads k
  let s := s.modCore (keyCore k) (fun c => { c with rsv := c.rsv.filter (· != k), bal := c.bal + r.reserve })
  let s := ((s.orphan k).forgetReqs k).setRill k {}
  s.evaluateAt (keyDie k)

/-- The parts of a rill a saved context keeps: the rest starts as at rill start (R428). Passed counts and yield marks are
among the rest, though R151 names them with what is saved. DEDUCED: log entry 114. -/
def Rill.kept (r : Rill) : Rill :=
  { r with
    th := r.th.map (fun p => (p.1, { p.2 with pc := p.2.region, passed := 0, yieldAt := none }))
    nld := 0, nst := 0, ncp := [], ntl := 0, issues := 0, seq := 0, reserve := 0, denials := 0, intent := none, drawn := 0, hist := []
    waits := [], undo := [], accs := [], vtoks := [], arrivals := [], copies := [], started := false, dropped := false }

/-! ## The frame (Table 18-6) -/

/-- Logical partition of a rill index (R429). -/
def logPart (rid : Nat) : Nat := rid / 2 % 8

/-- Bytes of a rill's uniform registers and of its vector registers. -/
def Rill.uniBytes (r : Rill) : List Byte := ((List.range r.nuni).map (fun i => toBytes 4 (r.kreg i).toNat)).flatten
def blockBytes (v : Tbl Word) (width lo n : Nat) : List Byte :=
  ((List.range n).map (fun i => ((List.range width).map (fun l => toBytes 4 (v.get 0 (64 * (lo + i) + l)).toNat)).flatten)).flatten

/-- A thread record (R429). -/
def threadBytes (kcode : Nat) (t : Thread) : List Byte :=
  let w1 := t.stack.length + t.exited.toNat * 256 + t.g1.toNat * 512 + t.g2.toNat * 1024 + t.g3.toNat * 2048
  (toBytes 4 (t.region.toNat - kcode) ++ toBytes 4 w1 ++ toBytes 4 t.flags.toNat ++ toBytes 4 0 ++
    (t.stack.map (fun (w : Word) => toBytes 4 w.toNat)).flatten ++ List.replicate 144 0).take 160

/-- Accumulator bytes of a tile unit. -/
def TileUnit.bytes (u : TileUnit) : List Byte :=
  ((List.range (15 * 4096)).map (fun i => toBytes 4 (u.acc.get 0 i).toNat)).flatten ++
  ((List.range 4096).map (fun i => toBytes 3 (u.carry.get 0 i).toNat)).flatten

/-- The index of each rill of a saved list in its frame: a group's or a card's own rills by their rill index, and those of
own-core cards the lowest left in their logical partition; 64 where none is left. DESIGN CHOICE: log entry 134. -/
def frameIndexes (start : Nat) (own : Rill → Bool) (xs : List (Nat × Rill)) : List Nat :=
  let used := (xs.filter (fun p => own p.2)).map (·.2.rid)
  (xs.foldl (fun (acc : List Nat × List Nat) p =>
    if own p.2 then (acc.1, acc.2 ++ [p.2.rid])
    else
      let part := (keyPart p.1 + 8 - start) % 8
      let i := ((List.range 64).find? (fun i => logPart i == part && !acc.1.contains i)).getD 64
      (i :: acc.1, acc.2 ++ [i])) (used, [])).2

/-- Where the frame has the bytes of each rill of a saved list (R429): in a logical partition in increasing index, a rill's
block of width × register after another, and the extended block of a slot pair after the pair. -/
def frameLayout (start : Nat) (own : Rill → Bool) (xs : List (Nat × Rill)) : List FrameItem :=
  let all := (xs.zip (frameIndexes start own xs)).zipIdx.map (fun p => (p.2, p.1.2, p.1.1))
  ((List.range 8).map (fun j =>
    let mine := (List.range 64).filterMap (fun i => if logPart i = j then all.find? (fun p => p.2.1 == i) else none)
    (mine.zipIdx.foldl (fun (acc : List FrameItem × Nat × Nat) p =>
      let (n, i, k, r) := p.1
      let more := (mine.drop (p.2 + 1)).any (fun q => q.2.2.1 / 2 == k / 2)
      let len := 4 * r.width * r.nvec
      let ext := if r.xregs && !more then some (acc.2.2 + len) else none
      let item : FrameItem := { at_ := n, index := i, uni := 0x10000 + 0x6000 * j + acc.2.1, vec := 0xE0000 + 0x10000 * j + acc.2.2
                                ext := ext.map (0xE0000 + 0x10000 * j + ·) }
      (acc.1 ++ [item], acc.2.1 + 4 * r.nuni, acc.2.2 + len + (if ext.isSome then 256 * r.width else 0))) ([], 0, 0)).1)).flatten

def boolByte (b : Bool) : List Byte := toBytes 1 b.toNat

/-- A rill record (Table 18-6): %rmode, the observer slots, WB, KB, %rowprog and the holding of the block, and a pending trap
with the fields of Table 18-2. The spec gives their places no further. DESIGN CHOICE: log entry 134. -/
def Rill.record (r : Rill) : List Byte :=
  let trap := match r.trap with
    | none => List.replicate 56 0
    | some t =>
      toBytes 4 (t.event * 2 ^ 16 + t.fcause * 256 + t.cause) ++ toBytes 4 (t.pc.toNat - r.kcode) ++ toBytes 4 (t.resume.toNat - r.kcode) ++
        toBytes 4 t.word.toNat ++ toBytes 8 t.addr.toNat ++ toBytes 8 (t.cohort.foldl (fun n l => n + 2 ^ l) 0) ++ toBytes 4 t.aux.toNat ++
        List.replicate 20 0
  (toBytes 4 r.rmode.toNat ++ toBytes 8 (ofBytes r.obsm) ++ toBytes 4 r.wb ++ toBytes 4 r.kb ++ toBytes 4 r.rowprog.toNat ++
    boolByte r.holdsX ++ List.replicate 3 0 ++ toBytes 4 (r.pend.getD 0) ++ trap ++ List.replicate 512 0).take 512

/-- The header: launch, group index, span and unit membership, LSIZE, TUSE, rill count, the rings, SFREE of the rills' channels.
DESIGN CHOICE: log entry 134. -/
def frameHeader (launch index lvlp rills : Nat) (span : Bool) (room : Room) (sfree : List Nat) : List Byte :=
  let ring := fun (i : Nat) =>
    let g := room.rings.get {} i
    toBytes 2 g.size ++ toBytes 2 g.pi ++ toBytes 4 (g.phases.zipIdx.foldl (fun n p => n + p.1.toNat * 2 ^ p.2) 0)
  (toBytes 8 launch ++ toBytes 8 index ++ toBytes 4 lvlp ++ toBytes 4 span.toNat ++ toBytes 4 room.lsize ++ toBytes 4 room.units.length ++
    toBytes 8 rills ++ ((List.range 16).map ring).flatten ++ (sfree.map (toBytes 1)).flatten ++ List.replicate 4096 0).take 4096

/-- A tile operation of a queue, and its progress where it is suspended. DESIGN CHOICE: log entry 134. -/
def TileOp.bytes (o : TileOp) : List Byte :=
  (toBytes 8 o.id ++ toBytes 1 (match o.kind with
      | .tmma => 1
      | .tzero => 2
      | .tlda => 3
      | .tsta => 4
      | .tcvt => 5) ++ boolByte o.susp ++ toBytes 2 o.steps ++ toBytes 4 o.done ++ toBytes 8 o.addr ++ toBytes 8 o.addr2 ++ toBytes 8 o.stride ++
    toBytes 4 o.slot ++ toBytes 4 o.ty ++ (o.block.map (toBytes 8)).flatten ++ List.replicate 256 0).take 256

/-- Entries of a Flume channel in order, of the rills' width. -/
def Chan.bytes (c : Chan) (width : Nat) : List Byte :=
  ((c.ready ++ c.flight).map (fun e => (List.range width).map (fun l => toBytes 4 (e.getD l 0).toNat) |>.flatten)).flatten

/-- Bytes of a frame up to its reserved part. -/
def frameBytes : Nat := 0x264000

def State.frameAt (s : State) (frame : Nat) : Nat := s.traps.cxpbase + 0x400000 * frame

/-- What a frame is to hold, as pieces: offset and bytes (R429, Table 18-6). `chans` are the two directions of a span's channels,
up and down, by rill index. -/
def framePieces (header : List Byte) (items : List FrameItem) (rills : List Rill) (xs : Nat → Xblk) (room : Room) (tiles : List TileUnit)
    (chans : List (Nat × Chan × Chan)) (width : Nat) : List (Nat × List Byte) :=
  let of_ := fun (i : FrameItem) =>
    let r := rills.getD i.at_ {}
    [(0x1000 + 512 * i.index, r.record), (i.uni, r.uniBytes), (i.vec, blockBytes r.v r.width 0 r.nvec)] ++
    (match i.ext with
      | some o => [(o, blockBytes (xs i.at_).v r.width 192 64)]
      | none => []) ++
    r.lanes.map (fun l => (0x40000 + 160 * (64 * i.index + l), threadBytes r.kcode (r.thread l)))
  let place := fun (i : Nat) => 0x220000 + 0x8000 * logPart i + 32 * width * (2 * (i / 16) + i % 2)
  (0, header) :: (items.map of_).flatten ++ [(0x160000, memRead room.mem 0 (1024 * 256))] ++
    tiles.zipIdx.map (fun p => (0x1A0000 + 0x40000 * p.2, p.1.bytes)) ++
    (chans.map (fun c => [(place c.1, c.2.1.bytes width), (place c.1 + 0x4000, c.2.2.bytes width)])).flatten ++
    [(0x260000, ((tiles.map (fun u => (u.queue.map TileOp.bytes).flatten)).flatten).take 0x4000)]

def State.writeFrame (s : State) (frame : Nat) (ps : List (Nat × List Byte)) : State :=
  ps.foldl (fun s p => s.homePut (s.frameAt frame + p.1) p.2) s

/-! ## Loading from a frame (R430) -/

/-- 32-bit words from an address of device memory on. -/
def State.wordsAt (s : State) (a n : Nat) : List Word := (List.range n).map (fun i => BitVec.ofNat 32 (memNat s.dram (a + 4 * i) 4))

/-- A block of registers as the frame has it, from register `lo` on (R429). -/
def State.blockAt (s : State) (a width lo n : Nat) : Tbl Word :=
  ((List.range n).map (fun r => (List.range width).map (fun l => (64 * (lo + r) + l, BitVec.ofNat 32 (memNat s.dram (a + 4 * (width * r + l)) 4))))).flatten

/-- A thread as its record has it. -/
def State.threadAt (s : State) (a kcode : Nat) (t : Thread) : Thread :=
  let w := memNat s.dram (a + 4) 4
  let pc : DWord := BitVec.ofNat 64 (kcode + memNat s.dram a 4)
  { t with
    pc := pc, region := pc, exited := bitOf 8 w, g1 := bitOf 9 w, g2 := bitOf 10 w, g3 := bitOf 11 w
    flags := BitVec.ofNat 5 (memNat s.dram (a + 8) 4), stack := s.wordsAt (a + 16) (min 32 (w % 256)) }

/-- A rill takes its registers and threads from the frame. -/
def State.loadRill (s : State) (base k : Nat) (i : FrameItem) : State :=
  let r := s.rill k
  let at_ := fun (l : Nat) => base + 0x40000 + 160 * (64 * i.index + l)
  let s' := s.setRill k { r with
    v := s.blockAt (base + i.vec) r.width 0 r.nvec
    k := (s.wordsAt (base + i.uni) r.nuni).zipIdx.map (fun p => (p.2, p.1))
    th := r.lanes.map (fun l => (l, s.threadAt (at_ l) r.kcode (r.thread l))) }
  match i.ext with
  | none => s'
  | some o => s'.setXblk k { s.xblk k with v := s.blockAt (base + o) r.width 192 64 }

/-- Slots and carries of a tile unit as the frame has them. -/
def State.loadTile (s : State) (base u : Nat) : State :=
  let acc := (List.range (15 * 4096)).map (fun i => (i, BitVec.ofNat 32 (memNat s.dram (base + 4 * i) 4)))
  let carry := (List.range 4096).map (fun i => (i, BitVec.ofNat 24 (memNat s.dram (base + 245760 + 3 * i) 3)))
  s.modTile u (fun t => { t with acc := acc, carry := carry })

/-- What a restored room takes from its frame: local store, registers and threads of the rills `keys`, accumulators. -/
def State.loadFrame (s : State) (frame room : Nat) (keys units : List Nat) (items : List FrameItem) : State :=
  let base := s.frameAt frame
  let s := s.modRoom room (fun x => { x with mem := memWrite [] 0 (memRead s.dram (base + 0x160000) x.lsize) })
  let s := items.foldl (fun s i => s.loadRill base (keys.getD i.at_ noRill) i) s
  units.zipIdx.foldl (fun s p => s.loadTile (base + 0x1A0000 + 0x40000 * p.2) p.1) s

/-! ## Frames -/

def State.freeFrames (s : State) : Nat := s.traps.cxpn - s.traps.frames.length

/-- Takes the lowest free frame. -/
def State.takeFrame (s : State) : Option (Nat × State) :=
  match (List.range s.traps.cxpn).find? (fun f => !s.traps.frames.contains f) with
  | none => none
  | some f => some (f, { s with traps := { s.traps with frames := f :: s.traps.frames } })

def State.releaseFrame (s : State) (f : Option Nat) : State :=
  match f with
  | none => s
  | some f => { s with traps := { s.traps with frames := s.traps.frames.filter (· != f) } }

/-! ## Groups and cards -/

/-- Keys of the live rills of a room. -/
def State.roomKeys (s : State) (room : Nat) : List Nat :=
  (s.rills.filter (fun p => p.2.live && p.2.room == room && decide (p.1 < 0x10000))).map (·.1)

/-- Keys of a room's tile units. -/
def Room.unitKeys (x : Room) : List Nat := x.units.map (fun u => 2 * x.core + u)

/-- A tile unit taken off its core: its running operation is suspended as R351 suspends it, without an event
(R427), and its operations name their rills by index in the saved list. -/
def TileUnit.stored (u : TileUnit) (keys : List Nat) : TileUnit :=
  let name := fun (o : TileOp) => { o with rill := (keys.findIdx? (· == o.rill)).getD 64, counted := false }
  { u with queue := match u.queue with
      | [] => []
      | o :: t => name (if o.susp then o else o.rewind) :: t.map name }

/-- Begins the drop of every rill of a room. -/
def State.dropRoom (s : State) (room : Nat) : State := (s.roomKeys room).foldl State.dropRill s

/-- Every rill of a room is drained. -/
def State.roomDrained (s : State) (room : Nat) : Bool := (s.roomKeys room).all s.drained

/-- Takes a room off its core: its rills as saved, the extended blocks by index, and the state with its slots
and units free. A rill that leaves while it holds its block keeps it from others (R415). -/
def State.liftRoom (s : State) (room : Nat) (keep : Bool) : List Nat × List Rill × List (Nat × Xblk) × State :=
  let keys := s.roomKeys room
  let rills := keys.map (fun k => (s.rill k).kept)
  let xs := (keys.zipIdx.filter (fun p => (s.rill p.1).xregs && (p.2 = 0 || keys.getD (p.2 - 1) 0 / 2 != p.1 / 2))).map
    (fun p => (p.2, s.xblk p.1))
  let x := s.room room
  let stored := x.unitKeys.map (fun u => (s.tile u).stored keys)
  let s := keys.foldl State.freeSlot s
  let s := x.unitKeys.foldl (fun s u => s.setTile u {}) s
  (keys, rills, xs, s.setRoom room { x with live := false, saved := if keep then stored else [] })

/-- Events of the rills and tile units that leave for saved context `room`, or come back from it (R431): `f`
gives the new name of each. -/
def State.renameEvents (s : State) (f : EventOf → EventOf) : State :=
  { s with traps := { s.traps with waiting := s.traps.waiting.map f, events := s.traps.events.map (fun p => (p.1, f p.2)) } }

def savedName (room : Nat) (keys units : List Nat) : EventOf → EventOf
  | .rill k => (match keys.findIdx? (· == k) with
    | some i => .savedRill room i
    | none => .rill k)
  | .tile u id => (match units.findIdx? (· == u) with
    | some i => .savedTile room i id
    | none => .tile u id)
  | e => e

def restoredName (room : Nat) (keys units : List Nat) : EventOf → EventOf
  | .savedRill r i => if r = room then .rill (keys.getD i 0) else .savedRill r i
  | .savedTile r i id => if r = room then .tile (units.getD i 0) id else .savedTile r i id
  | e => e

/-! ## A group or card that ends without a save -/

/-- Events of the rills of a list of keys, and of suspended units, are gone. -/
def State.dropRoomEvents (s : State) (room : Nat) : State :=
  let keys := s.roomKeys room
  let units := (s.room room).unitKeys
  let gone := fun (e : EventOf) => match e with
    | .rill k => keys.contains k
    | .tile u _ => units.contains u
    | .savedRill r _ => r == room
    | .savedTile r _ _ => r == room
    | _ => false
  { s with
    traps := { s.traps with
      waiting := s.traps.waiting.filter (fun e => !gone e), events := s.traps.events.filter (fun p => !gone p.2) }
    fab := { s.fab with reqs := s.fab.reqs.map (fun r =>
      if savedKey room 0 ≤ r.rill ∧ r.rill < savedKey room 64 then { r with rill := noRill } else r) } }

/-- A group is gone: its room, its cards' rooms, its frame. -/
def State.discardGroup (s : State) (g : Nat) : State :=
  let x := s.group g
  let s := s.dropRoomEvents x.room
  let s := (s.liftRoom x.room false).2.2.2
  let s := s.setRoom x.room {}
  let s := (s.releaseFrame x.frame).setGroup g { x with st := .retired, frame := none, saved := [], chans := [] }
  let s := x.cards.foldl (fun (s : State) c => if (s.card c).own && (s.card c).group = g then s.setCard c {} else s) s
  ({ s with active := s.active.filter (· != g) }).evaluateAt x.die

def State.discardCard (s : State) (c : Nat) : State :=
  let x := s.card c
  if x.own then s.setCard c {}
  else
    let s := s.dropRoomEvents x.room
    let die := coreDie (s.room x.room).core
    let s := (s.liftRoom x.room false).2.2.2
    (((s.setRoom x.room {}).releaseFrame x.frame).setCard c {}).evaluateAt die

def State.groupsOf (s : State) (lid : Nat) : List Nat := s.active.filter (fun g => (s.group g).launch == lid)
def State.cardsOf (s : State) (lid : Nat) : List Nat := (s.cards.filter (fun p => p.2.live && p.2.launch == lid)).map (·.1)

/-- A launch ends early with a halt code (R95, R438, R253): unplaced groups and posted cards are discarded,
placed rills are dropped with their stores drained and no context saved, and saved groups are given up. -/
def State.endLaunch (s : State) (lid code : Nat) : State :=
  let s := s.modLaunch lid (fun l =>
    let ranges := l.ranges.map (fun (p : Nat × Range) => (p.1, { p.2 with placed := p.2.count }))
    { l with code := code, st := .ending, ranges := ranges })
  let cores := s.cores.map (fun (p : Nat × Core) => (p.1, { p.2 with jobs := p.2.jobs.filter (fun j => j.launch != lid) }))
  let spans := s.spanReqs.map (fun (p : Nat × Option SpanReq) => (p.1, p.2.filter (fun r => r.launch != lid)))
  let s := { s with cores := cores, spanReqs := spans }
  let s := (s.groupsOf lid).foldl (fun (s : State) (g : Nat) =>
    let x := s.group g
    if x.st = GroupState.saved then s.discardGroup g
    else (s.dropRoom x.room).modGroup g (fun x => { x with st := .saving })) s
  (s.cardsOf lid).foldl (fun (s : State) (c : Nat) =>
    let x := s.card c
    if x.own then s
    else if x.st = GroupState.saved then s.discardCard c
    else (s.dropRoom x.room).modCard c (fun x => { x with st := .saving })) s

end Sys2Proof.Machine
end

