-- ==== Sys2Proof/Machine/Fit.lean ====
section
/-! DEFINITION. The resources of a core and the fit of a group's rills on them (R15, R114 to R122, R124). -/
namespace Sys2Proof.Machine

/-! ## Resources -/

/-- What a partition has left: its slots in use, its width mode, and bytes of its files (Table 5-3). -/
structure Part where
  used : List Nat := []
  mode : Option Nat := none
  vec : Nat := 65536
  uni : Nat := 24576
  flume : Nat := 16384
  deriving DecidableEq, Repr, Inhabited

/-- What a core has left. -/
structure Space where
  parts : List Part := []
  store : Nat := 262144
  units : List Nat := [0, 1]
  copies : Nat := 16
  deriving DecidableEq, Repr, Inhabited

/-- A rill to be placed: its index and its role. -/
structure Member where
  rid : Nat := 0
  role : Nat := 0
  deriving DecidableEq, Repr, Inhabited

/-- What a group or card asks of a core. -/
structure Need where
  width : Nat := 32
  nvec : Nat := 32
  nuni : Nat := 32
  xregs : Bool := false
  members : List Member := []
  store : Nat := 0
  units : Nat := 0
  span : Bool := false
  /-- Rill indexes with no member of their own whose Flume buffers it needs (R124). -/
  flumes : List Nat := []
  deriving DecidableEq, Repr, Inhabited

/-- A rill's place. -/
structure Seat where
  rid : Nat := 0
  part : Nat := 0
  slot : Nat := 0
  deriving DecidableEq, Repr, Inhabited

def roundUp (a g : Nat) : Nat := ceilDiv a g * g

def vecBytes (width nvec : Nat) : Nat := roundUp (width * nvec * 4) 1024
def uniBytes (nuni : Nat) : Nat := roundUp (nuni * 4) 128
def extBytes (width : Nat) : Nat := width * 256
/-- Flume buffer of one pair, in each direction (R124). -/
def flumeBytes (width : Nat) : Nat := width * 32

def roleHasCopy (role : Nat) : Bool := bitOf 0 role
def roleHasTile (role : Nat) : Bool := bitOf 1 role

/-- Only the firmware's reservation is taken (R114, R122). -/
def emptySpace : Space := { parts := { used := [15], uni := 24576 - 1536 } :: List.replicate 7 {} }

def Space.part (x : Space) (p : Nat) : Part := x.parts.getD p {}
def Space.setPart (x : Space) (p : Nat) (y : Part) : Space := { x with parts := setNth x.parts p y }

/-- Takes what one rill holds. Bytes beyond what is there make the rest 0, which `Space.has` has excluded. -/
def Space.take (x : Space) (q : Need) (m : Member) (e : Seat) (newPair : Bool) : Space :=
  let p := x.part e.part
  let mate := if newPair then [if e.slot % 2 = 0 then e.slot + 1 else e.slot - 1] else []
  { x.setPart e.part { p with
      used := e.slot :: mate ++ p.used, mode := some q.width
      vec := p.vec - vecBytes q.width q.nvec - (if newPair then extBytes q.width else 0)
      uni := p.uni - uniBytes q.nuni
      flume := p.flume - (if q.span then flumeBytes q.width else 0) } with
    copies := x.copies - (if roleHasCopy m.role then 1 else 0) }

/-- The conditions of Table 5-4 for one rill, its slot apart. -/
def Space.has (x : Space) (q : Need) (m : Member) (part : Nat) (newPair : Bool) : Bool :=
  let p := x.part part
  (p.mode.isNone || p.mode == some q.width) &&
  decide (vecBytes q.width q.nvec + (if newPair then extBytes q.width else 0) ≤ p.vec) &&
  decide (uniBytes q.nuni ≤ p.uni) && (!q.span || decide (flumeBytes q.width ≤ p.flume)) &&
  (!roleHasCopy m.role || decide (1 ≤ x.copies))

def Part.free (p : Part) (slot : Nat) : Bool := decide (slot < 16) && !p.used.contains slot

/-- The slot of a rill in its partition by R118: that beside its mate's, half of a free pair, or the lowest. -/
def Space.chooseSlot (x : Space) (q : Need) (m : Member) (part : Nat) (seats : List Seat) : Option (Nat × Bool) :=
  let p := x.part part
  if q.xregs then
    match seats.find? (fun e => m.rid % 2 == 1 && e.rid + 1 == m.rid) with
    | some e => some (e.slot + 1, false)
    | none =>
      match seats.find? (fun e => m.rid % 2 == 0 && e.rid == m.rid + 1) with
      | some e => some (e.slot - 1, false)
      | none => ((List.range 8).find? (fun n => p.free (2 * n) && p.free (2 * n + 1))).map (fun n => (2 * n + m.rid % 2, true))
  else ((List.range 16).find? p.free).map (fun n => (n, false))

/-- A given slot, where it is free (R124, R430). -/
def Space.givenSlot (x : Space) (q : Need) (m : Member) (part slot : Nat) (seats : List Seat) : Option (Nat × Bool) :=
  let p := x.part part
  if q.xregs then
    if m.rid % 2 = 1 && seats.any (fun e => e.rid + 1 == m.rid) then some (slot, false)
    else if p.free slot && p.free (if slot % 2 = 0 then slot + 1 else slot - 1) then some (slot, true) else none
  else if p.free slot then some (slot, false) else none

/-- Places the rills in order, from start partition `s`; `given` names the slots of some, and R118 chooses the
others. -/
def Space.seat (q : Need) (s : Nat) (given : Option (List Seat)) : List Member → Space → List Seat → Option (List Seat × Space)
  | [], x, seats => some (seats, x)
  | m :: t, x, seats =>
    let part := (s + m.rid / 2) % 8
    let c := match given with
      | none => x.chooseSlot q m part seats
      | some g => (match g.find? (fun e => e.rid == m.rid) with
        | some e => x.givenSlot q m part e.slot seats
        | none => x.chooseSlot q m part seats)
    match c with
    | none => none
    | some (slot, newPair) =>
      let e : Seat := ⟨m.rid, part, slot⟩
      if x.has q m part newPair then Space.seat q s given t (x.take q m e newPair) (seats ++ [e])
      else none

/-- Takes the Flume buffers of rill indexes without a member. -/
def Space.takeFlumes (width s : Nat) : List Nat → Space → Option Space
  | [], x => some x
  | i :: t, x =>
    let p := (s + i / 2) % 8
    if flumeBytes width ≤ (x.part p).flume then
      Space.takeFlumes width s t (x.setPart p { x.part p with flume := (x.part p).flume - flumeBytes width })
    else none

/-- The members in the order in which they are seated: those whose slots are given come first. -/
def Need.order (q : Need) (given : Option (List Seat)) : List Member :=
  let is := fun (m : Member) => (given.getD []).any (fun e => e.rid == m.rid)
  q.members.filter is ++ q.members.filter (fun m => !is m)

/-- A group or card fits at start partition `s` (Table 5-4). -/
def Space.fitsAt (x : Space) (q : Need) (s : Nat) (given : Option (List Seat)) : Option (List Seat × Space) :=
  let store := roundUp q.store 4096
  if x.store < store ∨ x.units.length < q.units then none
  else match Space.takeFlumes q.width s q.flumes { x with store := x.store - store, units := x.units.drop q.units } with
    | none => none
    | some x => Space.seat q s given (q.order given) x []

/-- Several that share a room, each at its own distance from the start partition (R430): their seats in order. -/
def Space.fitsAll (s : Nat) (given : Option (List Seat)) : List (Need × Nat) → Space → Option (List (List Seat) × Space)
  | [], x => some ([], x)
  | (q, off) :: t, x =>
    match x.fitsAt q ((s + off) % 8) given with
    | none => none
    | some (seats, y) => (Space.fitsAll s none t y).map (fun r => (seats :: r.1, r.2))

/-- The first start partition at which they fit, in the order of R119. -/
def Space.fits (x : Space) (qs : List (Need × Nat)) (s0 : Nat) : Option (Nat × List (List Seat) × Space) :=
  (List.range 8).findSome? (fun i =>
    let s := (s0 + i) % 8
    (Space.fitsAll s none qs x).map (fun r => (s, r.1, r.2)))

def lastPartOf (s : Nat) (ms : List Member) : Nat := (s + (ms.foldl (fun n m => max n m.rid) 0) / 2) % 8

/-- Groups that a core with space `x` holds at once (R122). -/
def Space.holds (q : Need) : Nat → Space → Nat → Nat
  | 0, _, _ => 0
  | fuel + 1, x, s0 =>
    match x.fits [(q, 0)] s0 with
    | none => 0
    | some (s, _, y) => 1 + Space.holds q fuel y ((lastPartOf s q.members + 1) % 8)

/-! ## What is in use on a core -/

def LaunchRec.has (r : LaunchRec) (i : Nat) : Bool := bitOf i r.lvlp
def LaunchRec.extent (r : LaunchRec) (i : Nat) : Nat := (r.lv.getD i (0, 0)).1
def LaunchRec.groups (r : LaunchRec) : Nat := r.gx * r.gy * r.gz
def LaunchRec.nrills (r : LaunchRec) : Nat := r.nrill + 1
def LaunchRec.role (r : LaunchRec) (i : Nat) : Nat := r.roles / 4 ^ i % 4
def LaunchRec.nvec (r : LaunchRec) : Nat := 32 + 16 * r.vregs
def LaunchRec.nuni (r : LaunchRec) : Nat := 32 * r.uregs
def LaunchRec.rillWidth (r : LaunchRec) : Nat := 16 * 2 ^ r.width

/-- Rills of the launch's groups, and of a card: the highest index. -/
def State.lastRid (s : State) (r : Rill) : Nat :=
  if r.card = 0 then (s.launch r.launch).lr.nrill else bitsOf 13 8 (word64 (s.card r.card).words 0)

/-- A rill seen as what it takes: its need, itself, its seat. -/
def Rill.asNeed (r : Rill) (span : Bool) : Need :=
  { width := r.width, nvec := r.nvec, nuni := r.nuni, xregs := r.xregs, members := [], span := span }

/-- Takes the place of one live or reserved rill. Its block is counted once for a slot pair, and a lone last
rill keeps its neighbour slot empty (R118). -/
def State.takeRill (s : State) (r : Rill) (part slot : Nat) (x : Space) : Space :=
  let m : Member := { rid := r.rid, role := r.role.toNat }
  let p := x.part part
  let lone := r.xregs && r.rid % 2 == 0 && r.rid == s.lastRid r
  let x := if lone then x.setPart part { p with used := (slot + 1) :: p.used } else x
  x.take (r.asNeed (r.card == 0 && (s.group r.group).span)) m ⟨r.rid, part, slot⟩ false

/-- Work rills of a core, with their keys. -/
def State.coreRills (s : State) (c : Nat) : List (Nat × Rill) :=
  s.rills.filter (fun p => decide (p.1 < 0x10000) && keyCore p.1 == c && p.2.live && !p.2.agent)

/-- Groups whose place on core `c` stays bound while their layer is gated (Table 5-5). -/
def State.boundGroups (s : State) (c : Nat) : List Group :=
  (s.active.map s.group).filter (fun g => g.gated && g.span && (g.st == .saved || g.st == .saving) && coreKey g.die g.pos == c)

/-- A rill index of a group is live, on its core or saved. -/
def State.ridLive (s : State) (g rid : Nat) : Bool :=
  let x := s.group g
  if x.st = .saved then x.saved.any (fun r => r.rid == rid && r.card == 0)
  else x.liveRills.any (fun k => (s.rill k).live && (s.rill k).rid == rid && (s.rill k).group == g && (s.rill k).card == 0)

/-- Rill indexes of a span's group whose rill has retired: their Flume buffers stay allocated until both groups have retired
(R459). -/
def State.flumeRids (s : State) (g : Nat) : List Nat :=
  (List.range (s.launch (s.group g).launch).lr.nrills).filter (fun i => !s.ridLive g i)

/-- Flume buffers on core `c` that a span's group `g`, not retired, keeps there beside those of its live rills: of its retired
rills, where it lies on the core, and of its partner, once that has retired, where that lay on the core (R124, R459). The
partition and the bytes. -/
def State.flumeLeft (s : State) (c g : Nat) : List (Nat × Nat) :=
  let x := s.group g
  let l := s.launch x.launch
  let at_ := fun (i : Nat) => ((x.start + i / 2) % 8, flumeBytes l.lr.rillWidth)
  (if coreKey x.die x.pos = c then (s.flumeRids g).map at_ else []) ++
  (if bonded (coreKey x.die x.pos) = c && (s.group x.partner).st == .retired then (List.range l.lr.nrills).map at_ else [])

/-- Resources of core `c` that are free. -/
def State.spaceOf (s : State) (c : Nat) : Space :=
  let live := s.coreRills c
  let bound := s.boundGroups c
  let kept : List (Rill × Nat × Nat) :=
    (bound.map (fun g => if g.st = .saved then g.saved.zip g.slots |>.map (fun p => (p.1, keyPart p.2, keySlot p.2)) else [])).flatten
  let all := live.map (fun p => (p.2, keyPart p.1, keySlot p.1)) ++ kept
  let x := all.foldl (fun x (e : Rill × Nat × Nat) => s.takeRill e.1 e.2.1 e.2.2 x) emptySpace
  let pairs := ((all.filter (fun e => e.1.xregs)).map (fun e => (e.2.1, e.2.2 / 2, e.1.width))).eraseDups
  let x := pairs.foldl (fun (x : Space) e => x.setPart e.1 { x.part e.1 with vec := (x.part e.1).vec - extBytes e.2.2 }) x
  let spans := s.active.filter (fun g =>
    let y := s.group g
    y.span && (y.st == .placed || y.st == .running || (y.gated && y.st == .saved)))
  let x := ((spans.map (s.flumeLeft c)).flatten).foldl (fun (x : Space) e => x.setPart e.1 { x.part e.1 with flume := (x.part e.1).flume - e.2 }) x
  let rooms := (s.rooms.filter (fun p => p.2.live && p.2.core == c)).map (·.2)
  let heldRooms := (bound.filter (fun g => g.st == .saved)).map (fun g => s.room g.room)
  let held := rooms ++ heldRooms
  { x with
    store := x.store - held.foldl (fun n r => n + roundUp r.lsize 4096) 0
    units := x.units.filter (fun u => !held.any (fun r => r.units.contains u)) }

/-- Start partition at which the search on a core begins (R119). -/
def State.startPart (s : State) (c : Nat) : Nat :=
  match (s.core c).lastPart with
  | none => 0
  | some p => (p + 1) % 8

/-! ## Launches and their needs -/

/-- What a group asks (Table 5-4). -/
def LaunchRec.need (r : LaunchRec) : Need :=
  { width := r.rillWidth, nvec := r.nvec, nuni := r.nuni, xregs := r.xregs
    members := (List.range r.nrills).map (fun i => { rid := i, role := r.role i })
    store := 1024 * r.lsize, units := r.tuse, span := r.has 3 }

/-- What a job card asks of a core (R29, R121). -/
def LaunchRec.cardNeed (r : LaunchRec) (words : List Nat) (own : Bool) : Need :=
  let w := word64 words 0
  let roles := word64 words 1 + word64 words 2 * 2 ^ 64
  { r.need with
    members := (List.range (bitsOf 13 8 w + 1)).map (fun i => { rid := i, role := roles / 4 ^ i % 4 })
    store := if own then 0 else 1024 * bitsOf 24 16 w
    units := if own then 0 else bitsOf 15 14 w
    span := false }

/-! ## The split (R88 to R90, R122) -/

/-- Groups in one unit of L3 or L4. -/
def LaunchRec.unit (r : LaunchRec) : Nat := (if r.has 3 then 2 else 1) * (if r.has 4 then r.extent 4 else 1)

/-- Enabled count and pairable count as last reported (R88). -/
def State.enCount (s : State) (d : Nat) : Nat := popcount (s.die d).rmask
def State.pairCount (s : State) (t : Nat) : Nat := popcount ((s.die (6 + 2 * t)).rmask &&& (s.die (7 + 2 * t)).rmask)

/-- first and count of each receiver (R89). -/
def splitBy (n : Nat) (ws : List Nat) : List (Nat × Nat) :=
  let w := ws.foldl (· + ·) 0
  let start := fun (i : Nat) => n * ((ws.take i).foldl (· + ·) 0) / w
  (List.range ws.length).map (fun i => (start i, start (i + 1) - start i))

/-- The range of every die, dies 6 to 13; none where the weight is 0. -/
def State.split (s : State) (r : LaunchRec) : Option (List Range) :=
  let towers := [0, 1, 2, 3]
  let n := r.groups / r.unit
  if r.has 3 then
    let ws := towers.map s.pairCount
    if ws.all (· == 0) then none
    else some (((splitBy n ws).map (fun p =>
      [{ first := p.1 * r.unit, count := p.2 * r.unit / 2, stride := 2 },
       { first := p.1 * r.unit + 1, count := p.2 * r.unit / 2, stride := 2 }])).flatten)
  else if r.has 4 then
    let ws := towers.map (fun t => s.enCount (6 + 2 * t) + s.enCount (7 + 2 * t))
    if ws.all (· == 0) then none
    else some (((splitBy n ws).zipIdx.map (fun p =>
      let halves := if p.1.2 = 0 then [(0, 0), (0, 0)] else splitBy (p.1.2 * r.unit) [s.enCount (6 + 2 * p.2), s.enCount (7 + 2 * p.2)]
      halves.map (fun h => { first := p.1.1 * r.unit + h.1, count := h.2 }))).flatten)
  else
    let ws := (List.range 8).map (fun i => s.enCount (6 + i))
    if ws.all (· == 0) then none else some ((splitBy n ws).map (fun p => { first := p.1, count := p.2 }))

/-- Every unit fits its receiver (R122). -/
def State.unitsFit (s : State) (r : LaunchRec) (rs : List Range) : Bool :=
  let h := Space.holds r.need 128 emptySpace 0
  let cores := fun (i : Nat) => if r.has 3 then s.pairCount (i / 2) else s.enCount (6 + i)
  h != 0 &&
  rs.zipIdx.all (fun p =>
    p.1.count == 0 ||
    ((!r.has 4 || (if r.has 3 then decide (r.extent 4 ≤ h * s.pairCount (p.2 / 2))
                   else decide (min p.1.count r.unit ≤ h * s.enCount (6 + p.2)))) &&
     (!r.has 5 || decide (p.1.count ≤ h * cores p.2))))

end Sys2Proof.Machine
end

