-- ==== Sys2Proof/Machine/Launch.lean ====
section
/-! DEFINITION. Queues, arbitration, prologues, the check of a launch record, format windows and the end of a
launch (03; R10 to R13, R36 to R40, R445 to R448). -/
namespace Sys2Proof.Machine

/-- The FED takes part: no queue runs during a save, or while an image is held (R255). -/
def State.fedUp (s : State) : Bool := (s.die 0).st == .active && !s.save.active && !s.save.saved && s.power.src == 0

/-! ## Command entries (R73, R74) -/

def HeadCmd.w (h : HeadCmd) (i : Nat) : Nat := word64 h.words i
def HeadCmd.ty (h : HeadCmd) : Nat := bitsOf 7 0 (h.w 0)
def HeadCmd.waits (h : HeadCmd) (i : Nat) : Bool := bitOf (8 + i) (h.w 0)
def HeadCmd.faddr (h : HeadCmd) (i : Nat) : Nat := h.w (1 + 2 * i)
def HeadCmd.fval (h : HeadCmd) (i : Nat) : Nat := h.w (2 + 2 * i)
def HeadCmd.sat (h : HeadCmd) (i : Nat) : Bool := if i = 0 then h.sat0 else h.sat1
def HeadCmd.satisfy (h : HeadCmd) (i : Nat) : HeadCmd := if i = 0 then { h with sat0 := true } else { h with sat1 := true }
def HeadCmd.arg0 (h : HeadCmd) : Nat := h.w 5
def HeadCmd.arg1 (h : HeadCmd) : Nat := h.w 6
/-- SERIAL, or a SIGNAL (R75). -/
def HeadCmd.serial (h : HeadCmd) : Bool := bitOf 10 (h.w 0) || h.ty == 2
def HeadCmd.fencesOk (h : HeadCmd) : Bool := [0, 1].all (fun i => !h.waits i || h.sat i)

/-- An entry invalid under R74. -/
def badEntry (h : HeadCmd) : Bool :=
  bitsOf 63 11 (h.w 0) != 0 || h.ty == 0 || decide (3 < h.ty) || h.w 7 != 0 ||
  [0, 1].any (fun i => if h.waits i then decide (2 ^ 57 ≤ h.faddr i) else h.faddr i != 0) ||
  (if h.ty = 3 then h.arg0 != 0 || h.arg1 != 0 else decide (2 ^ 57 ≤ h.arg0))

def Queue.entryVa (x : Queue) : Nat := x.qbase + 64 * (x.qhead % 2 ^ x.log2sz)

/-- The parties as which a queue reads its fence objects (0 and 1) and its entry (2). -/
def queueWho (q i : Nat) : Nat := 2 ^ 41 + 4 * q + i

def State.dropQueueReads (s : State) (q : Nat) : State := [0, 1, 2].foldl (fun s i => s.dropReads (queueWho q i)) s

/-- The entry at the head is read (R73). -/
def State.readHead (s : State) (q : Nat) : State :=
  let x := s.queue q
  if !s.fedUp || x.head.isSome || x.halt || !x.en || x.qtail = x.qhead || x.held then s
  else match s.vread .direct (queueWho q 2) x.ctx x.entryVa 64 false with
    | (.error (c, _), s) => if c = waitCode then s else s.haltQueue q 0x15 x.qhead (some x.entryVa)
    | (.ok bs, s) =>
      let h : HeadCmd := { words := words64 bs }
      if badEntry h then s.haltQueue q 0x0D x.qhead none else s.setQueue q { x with head := some h }

/-- A fence object is read (R79). A satisfied wait stays so; another watches the line for stores. -/
def State.pollFence (s : State) (q i : Nat) : State :=
  let x := s.queue q
  match x.head with
  | none => s
  | some h =>
    if !s.fedUp || x.held || x.halt || !h.waits i || h.sat i then s
    else
      let f := h.faddr i
      let fail := fun (s : State) => s.haltQueue q 0x0E x.qhead (some f)
      if f % 8 ≠ 0 then fail s
      else match s.translate .direct x.ctx f .read false with
        | (.error c, s) => if c = waitCode then s else fail s
        | (.ok p, s) =>
          match s.readAt .direct (queueWho q i) x.ctx f p 8 with
          | (.error c, s) => if c = waitCode then s else fail (s.dropReads (queueWho q i))
          | (.ok bs, s) =>
            let others := h.watch.filter (·.1 != i)
            let h := if h.fval i ≤ ofBytes bs then h.satisfy i
              else { h with watch := if p.tgt = 0 then (i, p.pa / 128) :: others else others }
            (s.setQueue q { x with head := some h }).dropReads (queueWho q i)

/-- An earlier launch of the queue has not retired. -/
def State.earlierLive (s : State) (q : Nat) : Bool := s.running.any (fun l => (s.launch l).queue == q)

/-- WAITF and WAITR (R77). -/
def State.headBits (s : State) (q : Nat) : State :=
  let x := s.queue q
  match x.head with
  | none => s.setQueue q { x with waitf := false, waitr := false }
  | some h =>
    let free := !x.held || x.again
    s.setQueue q { x with waitf := free && !h.fencesOk, waitr := free && h.serial && s.earlierLive q }

/-- The head command is read, its fences are read, and its wait bits are set. -/
def State.headUp (s : State) (q : Nat) : State := (((s.readHead q).pollFence q 0).pollFence q 1).headBits q

def State.queuesUp (s : State) : State := (s.queues.map (·.1)).foldl State.headUp s

/-- The head command leaves the head (R76). -/
def State.leaveHead (s : State) (q : Nat) : State :=
  ((s.dropQueueReads q).modQueue q (fun x => { x with
    qhead := (x.qhead + 1) % 2 ^ 32, head := none, held := false, again := false, rep := 0
    waitw := false, waitf := false, waitr := false, run := false })).headUp q

/-! ## Register writes of a queue -/

def Queue.pending (x : Queue) : Nat := (x.qtail + 2 ^ 32 - x.qhead) % 2 ^ 32

/-- The ring is overrun (R73). -/
def State.checkOverrun (s : State) (q : Nat) : State :=
  let x := s.queue q
  if !x.halt && decide (2 ^ x.log2sz < x.pending) then s.haltMark q 0x11 ((x.qhead + 2 ^ x.log2sz) % 2 ^ 32) none else s

/-- QTAIL_WRITE (R73). -/
def execQtailWrite (q : Nat) (v : DWord) (s : State) : Res :=
  if 64 ≤ q then .next s
  else .next (((s.modQueue q (fun x => { x with qtail := v.toNat % 2 ^ 32 })).checkOverrun q).headUp q)

/-- QHEAD_WRITE (R81): only while HALT is 1. Another count leaves whatever was at the head: a processor or launch that
holds it no longer holds the head. -/
def execQheadWrite (q : Nat) (v : DWord) (s : State) : Res :=
  let n := v.toNat % 2 ^ 32
  if q < 64 && (s.queue q).halt then
    .next (if n = (s.queue q).qhead then s else ((s.dropHead q).dropQueueReads q).modQueue q (fun x => { x with qhead := n }))
  else .next s

/-- HALT_CLEAR (R81, R73). -/
def execHaltClear (q : Nat) (s : State) : Res :=
  if q < 64 && (s.queue q).halt then
    .next (((s.modQueue q (fun x => { x with halt := false, errc := 0 })).checkOverrun q).headUp q)
  else .next s

/-! ## Format windows (R36 to R39) -/

def WinDesc.ofWords (d : List Nat) : WinDesc :=
  { tid := bitsOf 15 0 (word64 d 0), fmt := bitsOf 19 16 (word64 d 0), sgran := bitsOf 23 20 (word64 d 0)
    base := word64 d 1, limit := word64 d 2, scalep := word64 d 3, statva := word64 d 4 }

/-- Reserved fields and alignments of a descriptor (code 0x02). -/
def winReserved (d : List Nat) : Bool :=
  bitsOf 63 24 (word64 d 0) != 0 || [1, 2, 3].any (fun i => decide (2 ^ 40 ≤ word64 d i)) || decide (2 ^ 57 ≤ word64 d 4) ||
  [5, 6, 7].any (fun i => word64 d i != 0) || word64 d 1 % 65536 != 0 || word64 d 2 % 65536 != 0 ||
  word64 d 3 % 128 != 0 || word64 d 4 % 64 != 0

/-- R37, where code 0x02 does not cover it. Table 1-2 names no code for a LIMIT that is not above BASE: the model takes
0x08, that of the other faults of a window. DESIGN CHOICE: log entry 105. -/
def WinDesc.bad (w : WinDesc) : Bool :=
  w.fmt == 0 || decide (7 < w.fmt) || decide (w.limit ≤ w.base) ||
  (if 6 ≤ w.fmt then w.sgran != 0 || w.scalep == 0 else w.scalep != 0 && decide (4 ≤ w.sgran))

/-- Bytes of the scale region (R38). -/
def WinDesc.scaleLen (w : WinDesc) : Nat :=
  if w.scalep = 0 then 0 else if w.grain = 0 then 1 else ceilDiv (w.limit - w.base) w.grain

def WinDesc.meets (w v : WinDesc) : Bool := decide (w.base < v.limit) && decide (v.base < w.limit)
def WinDesc.scaleMeets (w v : WinDesc) : Bool :=
  decide (0 < w.scaleLen) && decide (w.scalep < v.limit) && decide (v.base < w.scalep + w.scaleLen)
/-- Identical in every field but STATVA (R39). -/
def WinDesc.shares (w v : WinDesc) : Bool := { w with statva := 0 } == { v with statva := 0 }

/-- The conflicts of R39. -/
def winConflict (inst ws : List WinDesc) : Bool :=
  ws.zipIdx.any (fun p =>
    let clash := fun (v : WinDesc) => v.tid == p.1.tid || p.1.meets v || p.1.scaleMeets v
    (dropNth ws p.2).any clash || p.1.scaleMeets p.1 || (!inst.any p.1.shares && inst.any clash))

def State.installed (s : State) : List WinDesc := s.windows.map (·.desc)

/-- Windows the launch would add. -/
def State.newWins (s : State) (ws : List WinDesc) : List WinDesc := ws.filter (fun w => !s.installed.any w.shares)

def State.winsFit (s : State) (ws : List WinDesc) : Bool := decide (s.windows.length + (s.newWins ws).length ≤ 256)

def State.installWins (s : State) (ws : List WinDesc) : State :=
  let fresh := s.newWins ws
  let old := s.windows.map (fun x => if ws.any (fun w => w.shares x.desc) then { x with refs := x.refs + 1 } else x)
  { s with windows := old ++ fresh.map (fun w => { desc := w, refs := 1 }) }

/-! ## The launch record (R10 to R13) -/

/-- LVDi. -/
def lvd (b : List Nat) (i : Nat) : Nat := word64 b (14 + i / 2) / 2 ^ (32 * (i % 2)) % 2 ^ 32

def recNent (b : List Nat) : Nat := bitsOf 7 0 (word64 b 3)
def recArgw (b : List Nat) : Nat := bitsOf 31 25 (word64 b 3)
def recFwn (b : List Nat) : Nat := bitsOf 8 0 (word64 b 10)

def words32 (bs : List Byte) : List Nat := (List.range (bs.length / 4)).map (fun i => ofBytes ((bs.drop (4 * i)).take 4))

/-- A record's fields. -/
def LaunchRec.ofWords (b ents args : List Nat) (wins : List (List Nat)) : LaunchRec :=
  let w0 := word64 b 0
  let w3 := word64 b 3
  { lvlp := bitsOf 62 55 w0, rmode := fld 2 53 w0, pclass := bitsOf 52 51 w0, tuse := bitsOf 50 49 w0
    uregs := bitsOf 48 45 w0, xregs := bitOf 44 w0, vregs := bitsOf 43 40 w0, nrill := bitsOf 39 34 w0
    width := bitsOf 33 32 w0, kcode := word64 b 1, argw := recArgw b, lsize := bitsOf 24 16 w3
    maine := bitsOf 15 8 w3, nent := recNent b
    gx := bitsOf 31 0 (word64 b 5), gy := bitsOf 47 32 (word64 b 5), gz := bitsOf 63 48 (word64 b 5)
    donef := word64 b 7, donev := word64 b 8, roles := word64 b 12 + word64 b 13 * 2 ^ 64
    lv := (List.range 8).map (fun i => (bitsOf 23 8 (lvd b i), bitsOf 7 0 (lvd b i)))
    ents := ents, args := args.map (BitVec.ofNat 32), wins := wins.map WinDesc.ofWords }

/-- Code 0x02 of Table 1-2. -/
def recMalformed (addr : Nat) (b : List Nat) (wins : List (List Nat)) : Bool :=
  let w0 := word64 b 0
  let bad := fun (i al : Nat) => decide (2 ^ 57 ≤ word64 b i) || word64 b i % al != 0
  bitsOf 15 0 w0 != 1 || bitsOf 23 16 w0 != 4 || bitsOf 31 24 w0 != 0 || bitOf 63 w0 || addr % 256 != 0 ||
  bad 1 256 || bad 2 4 || bitsOf 63 32 (word64 b 3) != 0 || decide (2 ^ 57 ≤ word64 b 4) || (recArgw b != 0 && bad 4 4) || bad 6 4 || bad 7 8 || bad 9 64 ||
  bitsOf 63 9 (word64 b 10) != 0 || word64 b 11 != 0 ||
  (List.range 8).any (fun i => bitsOf 31 24 (lvd b i) != 0 || ((i != 4 && i != 6) && bitsOf 23 8 (lvd b i) != 0)) ||
  (b.drop 18).any (· != 0) || wins.any winReserved

/-- Code 0x07. Table 1-2 names no code for a record that does not declare L0 to L2: the model takes that of the other
faults of the hierarchy. DESIGN CHOICE: log entry 106. -/
def LaunchRec.badHierarchy (r : LaunchRec) : Bool :=
  r.lvlp % 8 != 7 ||
  (List.range 8).any (fun i => !r.has i && r.lv.getD i (0, 0) != (0, 0)) ||
  (r.has 4 && (r.extent 4 == 0 || decide (48 < r.extent 4))) ||
  (r.has 6 && (decide (r.extent 6 < 2) || decide (64 < r.extent 6))) ||
  ((r.has 6 || r.has 7) && !r.has 5) || r.groups % r.unit != 0

/-- The first check that fails, in the order of Table 1-2; 0 where none does. -/
def recCode (inst : List WinDesc) (addr : Nat) (b : List Nat) (wins : List (List Nat)) (r : LaunchRec) : Nat :=
  if recMalformed addr b wins then 2
  else if r.width = 3 ∨ 10 < r.vregs ∨ r.uregs = 0 ∨ 12 < r.uregs ∨ 64 < r.argw ∨ 32 * r.uregs < r.argw ∨ 256 < r.lsize ∨
    r.tuse = 3 ∨ 256 < recFwn b then 3
  else if r.nent = 0 ∨ 64 < r.nent ∨ r.nent ≤ r.maine ∨ r.ents.any (fun e => e % 4 != 0 || decide (2 ^ 24 ≤ e)) then 4
  else if r.roles / 4 ^ r.nrills ≠ 0 ∨ (r.tuse = 0 ∧ (List.range r.nrills).any (fun i => roleHasTile (r.role i))) then 5
  else if r.gx = 0 ∨ r.gy = 0 ∨ r.gz = 0 ∨ 2 ^ 32 ≤ r.groups then 6
  else if r.badHierarchy then 7
  else if r.wins.any WinDesc.bad || winConflict inst r.wins then 8
  else 0

/-- Reads the tables a record names: entries, arguments and descriptors, or the cause and the address that faulted. -/
def State.readTables (s : State) (who ctx : Nat) (b : List Nat) :
    Except (Nat × Nat) (List Nat × List Nat × List (List Nat)) × State :=
  let part := fun (s : State) (i n : Nat) => s.vreadPart .direct who ctx (word64 b i % 2 ^ 57) n false
  match part s 2 (4 * recNent b) with
  | (.error e, s) => (.error e, s)
  | (.ok es, s) =>
    match part s 4 (4 * recArgw b) with
    | (.error e, s) => (.error e, s)
    | (.ok as_, s) =>
      match part s 9 (64 * recFwn b) with
      | (.error e, s) => (.error e, s)
      | (.ok ws, s) =>
        let ds := words64 ws
        (.ok (words32 es, words32 as_, (List.range (recFwn b)).map (fun i => (ds.drop (8 * i)).take 8)), s)

/-! ## Hand-off and the window installer (R81, R85, R89) -/

/-- Step 7 of Table 3-3: the dies receive their ranges. -/
def State.handOff (s : State) (lid : Nat) : State :=
  let l := s.launch lid
  let q := l.queue
  let s := s.setLaunch lid { l with
    st := .running, order := s.fresh, ranges := l.ranges }
  let s := { s with running := s.running ++ [lid], fresh := s.fresh + 1 }
  let s := l.ranges.foldl (fun (s : State) p => if p.2.count = 0 then s else s.evaluateAt p.1) s
  if !s.atHead q l.cmd then s
  else if l.again then s.modQueue q (fun x => { x with waitw := false, run := false })
  else s.leaveHead q

/-- A launch that waits for its windows is tried (R81): a conflict that has arisen ends it with code 0x08. -/
def State.tryInstall (s : State) (lid : Nat) : State :=
  let l := s.launch lid
  if winConflict s.installed l.lr.wins then
    (s.setLaunch lid { l with st := .done }).haltQueue l.queue 0x08 l.cmd none
  else if s.winsFit l.lr.wins then (s.installWins l.lr.wins).handOff lid
  else if s.atHead l.queue l.cmd then s.modQueue l.queue (fun x => { x with waitw := true, run := false })
  else s

/-- Launches that wait for windows, by level and then in the order in which they began to wait. -/
def State.windowWaiters (s : State) : List Nat :=
  ([3, 2, 1, 0].map (fun p =>
    (s.launches.filter (fun l => l.2.st == .windows && (s.queue l.2.queue).prio == p)).map (·.1))).flatten

def State.installWaiting (s : State) : State := s.windowWaiters.foldl State.tryInstall s

/-- WINDOW_INSTALL (R39, R81). -/
def execWindowInstall (s : State) : Res := .next (if s.fedUp then s.installWaiting else s)

/-! ## Steps 4 to 7 of a LAUNCH -/

/-- A processor's read of the record or of a table has failed: the processor goes on with stage `st` later where it has to
wait, and the command ends with code 0x01 otherwise. -/
def State.recordFault (s : State) (cp : Nat) (e : Nat × Nat) (st : CpStage) : State :=
  if e.1 = waitCode then s.modCp cp (fun c => { c with stage := st }) else s.failPrologue cp 0x01 (some e.2)

/-- The record is read and checked, the split is made, and the windows are installed or waited for. -/
def State.launchSteps (s : State) (cp : Nat) (again : Bool) : State :=
  let c := s.cp cp
  let q := c.queue
  let ctx := (s.queue q).ctx
  match s.vreadPart .direct (cpKey cp) ctx c.recAddr 256 false with
  | (.error e, s) => s.recordFault cp e (.record again)
  | (.ok bs, s) =>
    let b := words64 bs
    match s.readTables (cpKey cp) ctx b with
    | (.error e, s) => s.recordFault cp e (.record again)
    | (.ok (es, as_, ws), s) =>
      let r := LaunchRec.ofWords b es as_ ws
      let code := recCode s.installed c.recAddr b ws r
      if code ≠ 0 then s.failPrologue cp code none
      else match s.split r with
        | none => s.failPrologue cp 0x09 none
        | some rs =>
          if !s.unitsFit r rs then s.failPrologue cp 0x09 none
          else
            let lid := s.fresh
            let l : Launch :=
              { lr := r, queue := q, cmd := c.cmd, ctx := ctx, recAddr := c.recAddr, st := .windows, again := again, grant := (s.queue q).grant
                rep := (s.queue q).rep, total := r.groups, ranges := rs.zipIdx.map (fun p => (6 + p.2, p.1)), order := lid }
            ((({ s with fresh := lid + 1 }).setLaunch lid l).freeCp cp).tryInstall lid

/-- A cancelled launch (R86): DONEF is checked and, where there is one, stored before the command completes. -/
def State.cancelSteps (s : State) (cp : Nat) : State :=
  let c := s.cp cp
  let q := c.queue
  let ctx := (s.queue q).ctx
  match s.vread .direct (cpKey cp) ctx (c.recAddr + 0x38) 16 false with
  | (.error e, s) => s.recordFault cp e .cancel
  | (.ok bs, s) =>
    let f := word64 (words64 bs) 0
    if f % 8 ≠ 0 ∨ 2 ^ 57 ≤ f then s.failPrologue cp 0x02 none
    else if f = 0 then
      let s := s.freeCp cp
      if s.atHead q c.cmd then s.leaveHead q else s
    else
      let lid := s.fresh
      let l : Launch :=
        { lr := { donef := f, donev := word64 (words64 bs) 1 }, queue := q, cmd := c.cmd, ctx := ctx, st := .ending
          order := lid, cancel := some cp }
      let s := { s with fresh := lid + 1, running := s.running ++ [lid] }
      ((s.setLaunch lid l).setRill (cpKey cp) {}).modCp cp (fun c => { c with stage := .prologue })

/-- The first EXIT of a prologue (R83, R85). -/
def State.prologueEnd (s : State) (cp : Nat) : State :=
  let action := ((s.rill (cpKey cp)).kreg 0).toNat
  let s := (s.setRill (cpKey cp) {}).modQueue (s.cp cp).queue (fun x => { x with run := false })
  match action with
  | 0 => s.launchSteps cp false
  | 1 => s.cancelSteps cp
  | 2 => s.launchSteps cp true
  | _ => s.failPrologue cp 0x0C none

/-! ## Arbitration and starts (R77, R78, R83) -/

/-- The queue may be granted (R77, R78); so must the next pass of a repeating command be. DEDUCED: log entry 140. -/
def State.eligible (s : State) (q : Nat) : Bool :=
  let x := s.queue q
  x.en && !x.halt && x.qtail != x.qhead &&
  (match x.head with
    | none => false
    | some h => (!x.held || x.again) && !x.waitw && h.fencesOk && !(h.serial && s.earlierLive q))

/-- The queue granted: the highest level with an eligible queue, and in it the one after the last granted. -/
def State.arbitrate (s : State) : Option Nat :=
  let el := (List.range 64).filter s.eligible
  match [3, 2, 1, 0].find? (fun p => el.any (fun q => (s.queue q).prio == p)) with
  | none => none
  | some p =>
    let from_ := ((s.lastGrant.get none p).getD 63) + 1
    ((List.range 64).map (fun i => (from_ + i) % 64)).find? (fun q => el.contains q && (s.queue q).prio == p)

/-- The state in which a prologue starts (R83). -/
def prologueRill (x : Queue) (q rec_ pc : Nat) : Rill :=
  let va := x.entryVa
  { live := true, started := true, ctx := x.ctx, width := 1, nvec := 0, nuni := 128, kb := 64
    th := [(0, { pc := BitVec.ofNat 64 pc, region := BitVec.ofNat 64 pc })]
    k := [(0, BitVec.ofNat 32 rec_), (1, BitVec.ofNat 32 (rec_ / 2 ^ 32)), (2, BitVec.ofNat 32 x.rep), (3, BitVec.ofNat 32 q)
         , (4, BitVec.ofNat 32 va), (5, BitVec.ofNat 32 (va / 2 ^ 32))] }

/-- Step 3 of Table 3-3: PROLOG is read with the first 64 bytes of the record, and checked. -/
def State.startPrologue (s : State) (cp : Nat) : State :=
  let c := s.cp cp
  let q := c.queue
  let x := s.queue q
  match s.vread .direct (cpKey cp) x.ctx c.recAddr 64 false with
  | (.error e, s) => s.recordFault cp e .start
  | (.ok bs, s) =>
    let pro := word64 (words64 bs) 6
    if pro = 0 then s.launchSteps cp false
    else if pro % 4 ≠ 0 ∨ 2 ^ 57 ≤ pro then s.failPrologue cp 0x02 none
    else ((s.modCp cp (fun c => { c with stage := .prologue })).setRill (cpKey cp) (prologueRill x q c.recAddr pro)).modQueue q
      (fun x => { x with run := true })

/-- A SIGNAL's store (R75), after which the command completes; the processor holds it until the line is to hand. -/
def State.signal (s : State) (cp : Nat) : State :=
  let c := s.cp cp
  let q := c.queue
  let x := s.queue q
  let a := (x.head.getD {}).arg0
  let v := (x.head.getD {}).arg1
  if !s.atHead q c.cmd then s.freeCp cp
  else if a % 8 ≠ 0 then s.failPrologue cp 0x0E (some a)
  else match s.translate .direct x.ctx a .write false with
    | (.error e, s) => if e = waitCode then s else s.failPrologue cp 0x0E (some a)
    | (.ok p, s) =>
      match s.storeAt .direct p (toBytes 8 v) { va := a, arg := signalArg, queue := q, cmd := c.cmd } with
      | (true, s) => (s.freeCp cp).leaveHead q
      | (false, s) => s

/-- What the processor does next with the command that it holds; a prologue goes on by its own issues. -/
def State.cpGoOn (s : State) (cp : Nat) : State :=
  match (s.cp cp).stage with
  | .signal => s.signal cp
  | .start => s.startPrologue cp
  | .prologue => s
  | .record again => s.launchSteps cp again
  | .cancel => s.cancelSteps cp

/-- ARBITER_GRANT (R78): the head command of the queue granted starts. A processor that holds a command for which a line was
not to hand goes on with it. -/
def execArbiterGrant (cp : Nat) (s : State) : Res :=
  if 4 ≤ cp ∨ !s.fedUp then .next s
  else if (s.cp cp).busy then .next (s.cpGoOn cp)
  else
    match s.arbitrate with
    | none => .next s
    | some q =>
      let x := s.queue q
      match x.head with
      | none => .next s
      | some h =>
        let s := { s with lastGrant := s.lastGrant.set x.prio (some q) }
        if h.ty = 3 then .next (s.leaveHead q)
        else
          let s := s.setQueue q { x with held := true, grant := if x.again then x.grant else x.grant + 1, again := false, waitf := false, waitr := false }
          let c : CmdProc := { busy := true, stage := if h.ty = 2 then .signal else .start, queue := q, cmd := x.qhead, recAddr := h.arg0 }
          .next ((s.setCp cp c).cpGoOn cp)

/-- FENCE_OBJECT_READ (R79). -/
def execFenceObjectRead (q i : Nat) (s : State) : Res :=
  if q < 64 && i < 2 then .next (((s.readHead q).pollFence q i).headBits q) else .next s

/-- PROLOGUE_LIMIT (R84). -/
def execPrologueLimit (cp : Nat) (s : State) : Res :=
  let r := s.rill (cpKey cp)
  if cp < 4 && r.live && decide (4096 ≤ (s.cp cp).count) && r.accs.isEmpty then .next (s.failPrologue cp 0x0B none) else .next s

/-! ## EXIT (R161) -/

/-- All live lanes of the rill are now held by unsatisfied cross-lane waits (R204): the rill parks at the
lowest PC among them (log). -/
def State.exitMismatch (s : State) (k : Nat) : State :=
  if s.mismatch k then
    let ws := (s.rill k).waits.filter (fun w => isCross w.ins)
    match ws with
    | [] => s
    | w :: t =>
      let w := t.foldl (fun (a b : Wait) => if b.pc.ult a.pc then b else a) w
      (s.modRill k (fun r => { r with waits := r.waits.filter (fun w => !isCross w.ins) })).park k
        { cause := 0x0E, pc := w.pc, resume := w.pc, word := BitVec.ofNat 32 ((encode w.ins).getD 0), cohort := w.lanes }
  else s

/-- EXIT: the acting lanes become exited; in a prologue it ends the pass. -/
def execExit (g : BitVec 2) (s : State) : Res :=
  let k := s.cur.rill
  if isCp k then .next (s.prologueEnd (k - 0x10000))
  else
    let act := s.acting g.toNat
    .next (((s.endRegion act).advance.mapThreads k act (fun _ t => { t with exited := true })).exitMismatch k)

/-! ## The end of a launch (R445 to R448) -/

/-- The groups of the launch have all been counted, or, where it ends early, are gone. -/
def State.launchOver (s : State) (lid : Nat) : Bool :=
  let l := s.launch lid
  match l.st with
  | .running => decide (l.count + l.lost = l.total)
  | .ending => (s.groupsOf lid).isEmpty && (s.cardsOf lid).isEmpty
  | _ => false

/-- Launches other than `lid` that have written a window out and have still to give up their reference (R445, R448). -/
def State.pendingRefs (s : State) (lid tid : Nat) : Nat :=
  (s.running.filter (fun l => l != lid && (((s.launch l).lr.wins.take (s.launch l).wrote).any (fun w => w.tid == tid)))).length

/-- The statistics area (Table 19-1); `refs` launches reference the window after this write-out. -/
def statBytes (w : Window) (refs : Nat) (l : Launch) (now : Nat) : List Byte :=
  toBytes 8 w.sat ++ toBytes 8 w.ftz ++ toBytes 8 w.nanp ++ toBytes 8 w.nanb ++
  toBytes 8 ((w.wseq + 1) % 2 ^ 32 * 2 ^ 32 + refs % 256 * 2 ^ 20 + w.desc.fmt * 2 ^ 16 + w.desc.tid) ++
  toBytes 8 now ++ toBytes 8 (l.cmd % 65536 + l.queue * 65536) ++ toBytes 8 0

/-- Write-out `i` of a launch (R446, R447); `false` while the line is not to hand. -/
def State.writeStat (s : State) (lid i : Nat) : Bool × State :=
  let l := s.launch lid
  match l.lr.wins[i]? with
  | none => (true, s)
  | some d =>
    match s.windows.findIdx? (fun w => w.desc.tid == d.tid) with
    | none => (true, s)
    | some j =>
      let w := s.windows.getD j {}
      let skip := fun (s : State) (code : Nat) => s.record { kind := 0x0A, code := code, arg0 := d.statva, arg1 := d.tid }
      match s.translate .direct l.ctx d.statva .write false with
      | (.error c, s) => if c = waitCode then (false, s) else (true, skip s c)
      | (.ok p, s) =>
        if 2 ≤ p.tgt then (true, skip s 6)
        else match s.storeAt .direct p (statBytes w (w.refs - 1 - s.pendingRefs lid d.tid) l (s.now 0)) {} with
          | (true, s) => (true, { s with windows := setNth s.windows j { w with wseq := w.wseq + 1 } })
          | (false, s) => (false, s)

/-- Step 2 of R445: each window of the launch loses a reference, and one whose last this was is removed (R40). -/
def State.dropWins (s : State) (lid : Nat) : State :=
  let mine := fun (x : Window) => (s.launch lid).lr.wins.any (fun w => w.tid == x.desc.tid)
  { s with windows := (s.windows.map (fun x => if mine x then { x with refs := x.refs - 1 } else x)).filter (fun x => x.refs != 0 || !mine x) }

/-- Steps 2 and 4 of R445: the windows that nothing references any more go, the launch is done, and a new attempt is made to
install waiting windows (R81). -/
def State.doneLaunch (s : State) (lid : Nat) : State :=
  let s := (s.dropWins lid).modLaunch lid (fun l => { l with st := .done })
  ({ s with running := s.running.filter (· != lid) }).installWaiting

/-- Steps 2 to 4 of R445, in one step of the model, the DONEF store included: until it can be made, nothing is done. A
repetition follows where the command has been held at the head since (R85, R96). -/
def State.finishLaunch (s : State) (lid : Nat) : State :=
  let l := s.launch lid
  let q := l.queue
  if l.code ≠ 0 then
    let s := s.doneLaunch lid
    let late := l.code = 0x0F ∨ l.code = 0x13
    (if late then (if l.again then s.haltQueue q l.code l.cmd none else s.haltMark q l.code l.cmd none) else s).queuesUp
  else if l.again then
    let s := s.doneLaunch lid
    (if s.atHead q l.cmd && (s.queue q).grant == l.grant then s.modQueue q (fun x => { x with again := true, rep := (l.rep + 1) % 2 ^ 32 }) else s).queuesUp
  else
    let f := l.lr.donef
    let end_ := fun (s : State) =>
      let s := s.doneLaunch lid
      match l.cancel with
      | some cp =>
        let s := s.freeCp cp
        if s.atHead q l.cmd then s.leaveHead q else s
      | none => s
    if f = 0 then (end_ s).queuesUp
    else
      match s.translate .direct l.ctx f .write false with
      | (.error c, s) =>
        if c = waitCode then s
        else ((end_ (s.skipStore (Via.direct.place 4) c f 4)).haltMark q 0x0E l.cmd (some f)).queuesUp
      | (.ok p, s) =>
        match s.storeAt .direct p (toBytes 8 l.lr.donev) { va := f, arg := 4, queue := q, cmd := l.cmd } with
        | (false, s) => s
        | (true, s) => (end_ s).queuesUp

/-- LAUNCH_RETIRE (R445): one window's write-out, or the end. -/
def execLaunchRetire (lid : Nat) (s : State) : Res :=
  let l := s.launch lid
  if !s.fedUp || !s.launchOver lid then .next s
  else if l.wrote < l.lr.wins.length then
    match s.writeStat lid l.wrote with
    | (true, s) => .next (s.modLaunch lid (fun l => { l with wrote := l.wrote + 1 }))
    | (false, s) => .next s
  else .next (s.finishLaunch lid)

/-- A retirement in progress runs again from step 1 (R453). -/
def State.rewindRetire (s : State) (lid : Nat) : State :=
  if (s.launch lid).wrote = 0 then s else s.modLaunch lid (fun l => { l with wrote := 0 })

/-! ## ABORT (R95, R96) and the end of one launch by KILL (R438) -/

/-- A processor gives up its command; a prologue stops before its next instruction, and a store it has issued is still
performed. -/
def State.abortCp (s : State) (n : Nat) : State :=
  if (s.rill (cpKey n)).accs.isEmpty then s.freeCp n else s.modRill (cpKey n) (fun r => { r with pend := some 0x10 })

/-- A launch that ABORT affects: it has started and its count has not reached its total. -/
def State.abortable (s : State) (q : Nat) (p : Nat × Launch) : Bool :=
  p.2.queue == q &&
  (match p.2.st with
    | .windows => true
    | .running => !s.launchOver p.1
    | .ending => p.2.cancel.isSome
    | .done => false)

/-- ABORT. -/
def execAbort (q : Nat) (s : State) : Res :=
  if 64 ≤ q then .next s
  else
    let x := s.queue q
    let ls := s.launches.filter (s.abortable q)
    let cps := (List.range 4).filter (fun n => (s.cp n).busy && (s.cp n).queue == q)
    let age := fun (c : Nat) => (x.qhead + 2 ^ 32 - c) % 2 ^ 32
    let cmds := ls.map (fun p => p.2.cmd)
    let erri := cmds.foldl (fun a b => if age a < age b then b else a) x.qhead
    let s := cps.foldl State.abortCp s
    let s := ls.foldl (fun (s : State) p =>
      if p.2.st = LaunchState.running then s.endLaunch p.1 0x10
      else { s.setLaunch p.1 { p.2 with st := .done } with running := s.running.filter (· != p.1) }) s
    .next (((s.dropHead q).dropQueueReads q).haltMark q 0x10 erri none)

/-- KILL ends a launch, and it alone (R438). -/
def State.killLaunch (s : State) (lid : Nat) : State :=
  let l := s.launch lid
  if l.st ≠ .running then s
  else
    let s := s.endLaunch lid 0x14
    if l.again then s.haltQueue l.queue 0x14 l.cmd none else s.haltMark l.queue 0x14 l.cmd none

/-- KILL: the rill is dropped unsaved and its launch ends, with an entry of kind 0x04 (R419, R438). -/
def State.eretKill (s : State) (k : Nat) : State :=
  let r := s.rill k
  match r.trap with
  | none => s
  | some t =>
    let tpc := (t.pc.toNat - r.kcode) % 2 ^ 32
    let s := s.record (boxAt k 0x04 t.cause (tpc * 2 ^ 32 + t.word.toNat) t.event)
    ((s.unpark k { t with restart := true } t.pc).leaveBlock k).killLaunch r.launch

end Sys2Proof.Machine
end

