-- ==== Sys2Proof/Machine/Preempt.lean ====
section
/-! DEFINITION. Pre-emption: which groups leave, their frames, and the end of a save (R426 to R429, R431). -/
namespace Sys2Proof.Machine

/-- A group that is on its core. -/
def Group.onCore (g : Group) : Bool := g.st == .placed || g.st == .running
def Card.onCore (c : Card) : Bool := c.live && (c.st == .placed || c.st == .running)

/-- A deferred pre-emption (R426). -/
def State.defer (s : State) (n : Nat) : State :=
  if s.traps.deferred.contains n then s else { s with traps := { s.traps with deferred := s.traps.deferred ++ [n] } }

/-- A group begins to leave its core: it takes a frame, or its pre-emption is deferred. One that has been restored and has not
started keeps the frame it came from (R460). -/
def State.preemptGroup (s : State) (g : Nat) : State :=
  let x := s.group g
  if !x.onCore then s
  else match (x.frame.map (fun f => (f, s))).or s.takeFrame with
    | none => s.defer (2 * g)
    | some (f, s) => (s.dropRoom x.room).setGroup g { x with st := .saving, frame := some f }

/-- A neighbour-core card does so, in a frame of its own. -/
def State.preemptCard (s : State) (c : Nat) : State :=
  let x := s.card c
  if !x.onCore || x.own then s
  else match (x.frame.map (fun f => (f, s))).or s.takeFrame with
    | none => s.defer (2 * c + 1)
    | some (f, s) => (s.dropRoom x.room).setCard c { x with st := .saving, frame := some f }

/-- A group with the neighbour-core cards of its rills. -/
def State.preemptWith (s : State) (g : Nat) : State := ((s.group g).cards).foldl State.preemptCard (s.preemptGroup g)

/-- Groups of the unit that group `g` belongs to (R426). -/
def State.unitOfGroup (s : State) (g : Nat) : List Nat :=
  let x := s.group g
  let r := (s.launch x.launch).lr
  let mine := s.active.filter (fun h => (s.group h).launch == x.launch)
  if r.has 5 then mine
  else if r.has 3 || r.has 4 then mine.filter (fun h => (s.group h).index / r.unit == x.index / r.unit)
  else [g]

def State.preemptUnit (s : State) (g : Nat) : State := (s.unitOfGroup g).foldl State.preemptWith s

/-- DEFERRED_PREEMPTION (R426): one group for a freed frame, in the order of deferral. -/
def execDeferredPreemption (s : State) : Res :=
  match s.traps.deferred with
  | [] => .next s
  | n :: t =>
    if s.freeFrames = 0 then .next s
    else
      let s := { s with traps := { s.traps with deferred := t } }
      .next (if n % 2 = 0 then s.preemptGroup (n / 2) else s.preemptCard (n / 2))

/-! ## The end of a save (R427, R428, R431) -/

/-- Credits in flight of a span's channels land before its groups are saved (R413). -/
def Chan.land (c : Chan) : Chan := { c with credits := 0, sfree := c.sfree + c.credits }

def State.landCredits (s : State) (g : Nat) : State :=
  let land := fun (x : Group) => { x with chans := x.chans.map (fun p => (p.1, p.2.land)) }
  if (s.group g).span then (s.modGroup g land).modGroup (s.group g).partner land else s

/-- A saved rill's trap restarts its threads at their region starts (R431). -/
def Rill.stored (r : Rill) : Rill := { r with trap := r.trap.map (fun t => { t with restart := true }) }

/-- Takes room `room` off its core: its keys, rills and blocks. -/
def State.storeRoom (s : State) (room : Nat) : List Nat × List Rill × List (Nat × Xblk) × State :=
  let units := (s.room room).unitKeys
  let die := coreDie (s.room room).core
  let (keys, rills, xs, s) := s.liftRoom room true
  (keys, rills.map Rill.stored, xs, (s.renameEvents (savedName room keys units)).evaluateAt die)

/-- The layout of a group's frame, and what it is to hold, before the group is taken off its core. -/
def State.groupFrame (s : State) (g : Nat) : List FrameItem × List (Nat × List Byte) :=
  let x := s.group g
  let l := s.launch x.launch
  let keys := s.roomKeys x.room
  let rills := keys.map (fun k => ((s.rill k).kept).stored)
  let items := frameLayout x.start (fun r => r.card == 0) (keys.zip rills)
  let p := s.group x.partner
  let up := fun (i : Nat) => if dieLayer x.die = 0 then (x.chans.get {} i, p.chans.get {} i) else (p.chans.get {} i, x.chans.get {} i)
  let ids := List.range l.lr.nrills
  let chans := if x.span then ids.map (fun i => (i, (up i).1, (up i).2)) else []
  let sfree := ids.map (fun i => (x.chans.get {} i).sfree)
  let room := s.room x.room
  (items, framePieces (frameHeader x.launch x.index l.lr.lvlp keys.length x.span room (if x.span then sfree else [])) items rills
    (fun n => s.xblk (keys.getD n 0)) room (room.unitKeys.map (fun u => (s.tile u).stored keys)) chans l.lr.rillWidth)

/-- Those of a neighbour-core card. -/
def State.cardFrame (s : State) (c : Nat) : List FrameItem × List (Nat × List Byte) :=
  let x := s.card c
  let l := s.launch x.launch
  let keys := s.roomKeys x.room
  let rills := keys.map (fun k => ((s.rill k).kept).stored)
  let items := frameLayout x.start (fun r => r.card == c) (keys.zip rills)
  let room := s.room x.room
  (items, framePieces (frameHeader x.launch (s.group x.group).index l.lr.lvlp keys.length false room []) items rills
    (fun n => s.xblk (keys.getD n 0)) room (room.unitKeys.map (fun u => (s.tile u).stored keys)) [] l.lr.rillWidth)

/-- CONTEXT_SAVE_COMPLETE (R427): once every drain of a room has ended and the homes have the lines of its frame, its context
is saved, or, for a launch that ends, it is gone. A group without a frame leaves in an emergency save; one that has not been
loaded from its frame finds it there still. -/
def execContextSaveComplete (room : Nat) (s : State) : Res :=
  let g := s.group room
  let c := s.card room
  let ask := fun (f : Nat) => s.homeAsk (s.frameAt f) frameBytes true
  let open_ := fun (f : Nat) => s.homeOpen (s.frameAt f) frameBytes true
  if g.st = .saving ∧ g.room = room then
    if !s.roomDrained room then .next s
    else if (s.launch g.launch).st = .ending then .next (s.discardGroup room)
    else match g.frame with
      | none => .next s
      | some f =>
        if g.layout.isEmpty && !open_ f then .next (ask f)
        else
          let s := s.landCredits room
          let p := s.groupFrame room
          let (keys, rills, xs, s) := s.storeRoom room
          let s := if g.layout.isEmpty then s.writeFrame f p.2 else s
          let s := if g.span then s.evaluateAt (otherLayer g.die) else s
          .next (s.modGroup room (fun y => { y with
            st := .saved, saved := rills, savedX := xs, slots := keys, liveRills := [], filled := false, since := none
            layout := if g.layout.isEmpty then p.1 else g.layout }))
  else if c.live && c.st == .saving && !c.own then
    if !s.roomDrained room then .next s
    else if (s.launch c.launch).st = .ending then .next (s.discardCard room)
    else match c.frame with
      | none => .next s
      | some f =>
        if c.layout.isEmpty && !open_ f then .next (ask f)
        else
          let p := s.cardFrame room
          let (keys, rills, xs, s) := s.storeRoom room
          let s := if c.layout.isEmpty then s.writeFrame f p.2 else s
          .next (s.modCard room (fun y => { y with
            st := .saved, saved := rills, savedX := xs, slots := keys, liveRills := [], layout := if c.layout.isEmpty then p.1 else c.layout }))
  else .next s

/-! ## PGO and PREST (R431) -/

/-- Groups of the launches of a queue. -/
def State.queueGroups (s : State) (q : Nat) : List Nat := s.active.filter (fun g => (s.launch (s.group g).launch).queue == q)

/-- PREST: the queue's groups may be placed again. -/
def execPreemptRestore (v : DWord) (s : State) : Res :=
  let q := v.toNat % 64
  let s := { s with traps := { s.traps with pq := q } }
  if bitOf 30 v.toNat then
    .next ((List.range 8).foldl (fun (s : State) i => s.evaluateAt (6 + i)) (s.modQueue q (fun x => { x with pheld := false })))
  else .next s

end Sys2Proof.Machine
end

