-- ==== Sys2Proof/Machine/System.lean ====
section
/-! DEFINITION. Special registers (R141, R437, Table 6-3, Table 18-2), the privileged instructions but ERET
(R439 to R441), and PINT and EQRES (R233, R234). -/
namespace Sys2Proof.Machine

/-- ENM and PAIRM of a compute die (R112). -/
def State.enmOf (s : State) (d : Nat) : Nat := (s.die d).enm
def State.pairmOf (s : State) (d : Nat) : Nat :=
  if (s.die d).gated || (s.die (otherLayer d)).gated then 0 else (s.enmOf d) &&& (s.enmOf (otherLayer d))

/-- %coreid of rill `k` (Table 5-2). -/
def State.coreid (s : State) (k : Nat) : Nat :=
  let d := keyDie k
  d * 2 ^ 28 + dieTower d * 2 ^ 26 + dieLayer d * 2 ^ 25 + corePos (keyCore k) * 2 ^ 20 + keyPart k * 2 ^ 17 +
    keySlot k * 2 ^ 13 + (if (s.group (s.rill k).group).span then 2 ^ 12 else 0)

/-- A mask of lanes. -/
def laneMask (ls : List Nat) : Nat := ls.foldl (fun m l => m + 2 ^ l) 0

/-- %cohort of the issue in hand. -/
def State.cohortMask (s : State) : Nat := laneMask (s.cur.lanes.filter (fun l => !(s.curRill.thread l).exited))

/-- The rill %tsel selects (Table 18-2). -/
def State.selected (s : State) (core : Nat) : Nat :=
  let t := (s.core core).tsel.toNat
  slotKey core (t / 16 % 8) (t % 16)

/-- Pending traps of four partitions of a core, one bit a slot. -/
def State.tpend (s : State) (core part : Nat) : Nat :=
  laneMask ((List.range 64).filter (fun i => (s.rill (slotKey core (part + i / 16) (i % 16))).trap.isSome))

/-- What MFS reads of a register, in lane `l` (Table 6-3, Table 18-2). -/
def State.special (s : State) (k i l : Nat) : Nat :=
  let r := s.rill k
  let c := s.core (keyCore k)
  let sel := s.rill (s.selected (keyCore k))
  let trapOf := fun (f : TrapRec → Nat) => (sel.trap.map f).getD 0
  if i = 0x001 then (r.thread l).flags.toNat
  else if i = 0x002 then r.rmode.toNat
  else if i = 0x010 then l
  else if i = 0x011 then s.cohortMask
  else if i = 0x012 then r.rid * r.width + l
  else if i = 0x013 then r.rid
  else if i = 0x014 then r.gid
  else if i = 0x020 then s.coreid k
  else if i = 0x021 then s.enmOf (keyDie k) + s.pairmOf (keyDie k) * 2 ^ 24
  else if i = 0x030 then r.wb + r.kb * 2 ^ 16
  else if 0x040 ≤ i ∧ i ≤ 0x047 then (r.obsm.getD (i - 0x040) 0).toNat
  else if i = 0x050 then s.vfree k
  else if i = 0x060 then c.eqbal
  else if i = 0x061 then s.power.chg % 2 ^ 16
  else if i = 0x070 then s.now (keyDie k)
  else if i = 0x080 then r.rowprog.toNat
  else if i = 0x800 then c.tsel.toNat
  else if i = 0x801 then trapOf (fun t => t.event * 2 ^ 16 + t.fcause * 2 ^ 8 + t.cause)
  else if i = 0x802 then trapOf (fun t => (t.pc.toNat - sel.kcode) % 2 ^ 32)
  else if i = 0x803 then trapOf (fun t => (t.resume.toNat - sel.kcode) % 2 ^ 32)
  else if i = 0x804 then trapOf (fun t => t.word.toNat)
  else if i = 0x805 then trapOf (fun t => t.addr.toNat)
  else if i = 0x806 then trapOf (fun t => laneMask t.cohort)
  else if i = 0x807 then trapOf (fun t => t.aux.toNat)
  else if i = 0x808 then s.tpend (keyCore k) 0
  else s.tpend (keyCore k) 4

def word (n i : Nat) : Word := BitVec.ofNat 32 (n / 2 ^ (32 * i))

/-- MFS (R437). An index with no register raises the illegal-instruction trap (R141). -/
def execMfs (d : BitVec 7) (i : BitVec 12) (g : BitVec 2) (s : State) : Res :=
  match specialInfo i with
  | none => .next (s.trap 0x01)
  | some x =>
    let k := s.cur.rill
    let n := if x.width = 64 then 2 else 1
    .next ((List.range n).foldl (fun t j =>
      if s.curRill.agent then t.udst d.toNat j (word (s.special k i.toNat 0) j)
      else t.vdst d.toNat j none (s.acting g.toNat) (fun l => word (s.special k i.toNat l) j)) s).advance

/-- MTS (R437): the source in lane `l`, or the agent's uniform register. Nonzero reserved bits for
%obsm and %tsel are dropped. DESIGN CHOICE: log entry 138. -/
def execMts (d : BitVec 7) (i : BitVec 12) (g : BitVec 2) (s : State) : Res :=
  let k := s.cur.rill
  let agent := s.curRill.agent
  let lanes := if agent then [0] else s.acting g.toNat
  let val := fun l => if agent then s.usrc d.toNat 0 else s.src d.toNat 0 l
  let n := i.toNat
  match lanes with
  | [] => .next s.advance
  | l :: _ =>
    if n = 0x001 then
      .next ((s.mapThreads k lanes (fun l t => { t with flags := (val l).truncate 5 })).endRegion lanes).advance
    else if n = 0x002 then
      .next ((s.modRill k (fun r => { r with rmode := (val l).truncate 2 })).endRegion lanes).advance
    else if 0x040 ≤ n ∧ n ≤ 0x047 then
      .next ((s.modRill k (fun r => { r with obsm := setNth r.obsm (n - 0x040) ((val l).truncate 8) })).endRegion lanes).advance
    else if n = 0x800 then
      .next (s.modCore (keyCore k) (fun c => { c with tsel := BitVec.ofNat 32 ((val l).toNat % 128) })).advance
    else .next (s.trap 0x01)

/-! ## CCTL (R439) -/

/-- Address and length of a CCTL's quad. -/
def State.cctlRange (s : State) (d : BitVec 7) : Nat × Nat :=
  ((s.usrc d.toNat 0).toNat + (s.usrc d.toNat 1).toNat % 256 * 2 ^ 32, (s.usrc d.toNat 2).toNat)

def cctlBad (r : Nat × Nat) : Bool := r.1 % 128 != 0 || r.2 % 128 != 0 || decide (dramTop < r.1 + r.2)

/-- Lines of a range that have left their state at reset and are not lent. -/
def State.rangeLines (s : State) (a n : Nat) : List Nat :=
  (s.coh.lines.filter (fun l => l.2.lent == 0 && decide (a ≤ 128 * l.1) && decide (128 * l.1 < a + n))).map (·.1)

/-- Dirty data of a line is written to DRAM, whose poison is then that of the data (R331). -/
def State.cleanLine (s : State) (line : Nat) : State :=
  let hs := (s.line line).hs
  match hs.find? (·.dirty) with
  | none => s
  | some o =>
    let home := (s.line line).holder 4
    s.setLine line { s.line line with hs := (setNth hs 4 { home with psn := o.psn }).map (fun h => { h with dirty := false }) }

def State.evictLines (s : State) (ls : List Nat) : State :=
  ls.foldl (fun s line => [0, 1, 2, 3].foldl (fun s t =>
    match s.persFor t line with
    | some _ => s
    | none => s.sendAll line t 4) s) s

def State.cleanRange (s : State) (a n : Nat) : State := (s.rangeLines a n).foldl State.cleanLine s

/-- No dirty data of the range is on its way between holders. -/
def cleanReady (s : State) (_k : Nat) (w : Wait) : Bool :=
  let a := w.vals.getD 0 0
  (s.coh.msgs ++ s.coh.resend).all (fun m => !(m.kind == .tok && m.dirty && decide (a ≤ 128 * m.line) && decide (128 * m.line < a + w.vals.getD 1 0)))

def cleanDone (s : State) (k : Nat) (w : Wait) : State := (s.cleanRange (w.vals.getD 0 0) (w.vals.getD 1 0)).release k w

/-- CCTL.clean (R439): what is dirty is written; the cohort is held until what was on its way has come and is written too. -/
def execCctlClean (d : BitVec 7) (s : State) : Res :=
  let r := s.cctlRange d
  if cctlBad r then .next (s.trap 0x1A)
  else .next ((s.cleanRange r.1 r.2).holdOr (s.mkWait (.cctlClean d) [r.1, r.2]) cleanReady cleanDone)

/-- Every token of the range is at its home; lent lines are skipped. -/
def cctlReady (s : State) (_k : Nat) (w : Wait) : Bool :=
  (s.rangeLines (w.vals.getD 0 0) (w.vals.getD 1 0)).all (fun line => (s.holder line 4).cnt == 64)

def cctlDone (s : State) (k : Nat) (w : Wait) : State :=
  (s.cleanRange (w.vals.getD 0 0) (w.vals.getD 1 0)).release k w

def execCctlEvict (d : BitVec 7) (s : State) : Res :=
  let r := s.cctlRange d
  if cctlBad r then .next (s.trap 0x1A)
  else
    let t := s.evictLines (s.rangeLines r.1 r.2)
    .next (t.holdOr (s.mkWait (.cctlEvict d) [r.1, r.2]) cctlReady cctlDone)

/-! ## TLBINV (R440) -/

/-- Work that may use a translation of a context, or of any context, as pairs: an access of a rill and its place in the
rill's order; 2^42 + the rill of a remote operation and its command; 2^43 and a request to a peer. -/
def State.pendingOf (s : State) (ctx : Option Nat) : List Nat :=
  let mine := s.rills.filter (fun p => (ctx.map (· == p.2.ctx)).getD true)
  let accs := (mine.map (fun p => ((p.2.accs.filter (fun a => a.reqs.any (fun q => !q.done && !q.isLocal))).map (fun a => [p.1, a.seq])).flatten)).flatten
  let rops := (mine.map (fun p => ((p.2.copies.filter (fun c => c.kind == .rop && c.result.isEmpty)).map (fun c => [2 ^ 42 + p.1, c.id])).flatten)).flatten
  accs ++ rops ++ (s.fab.reqs.map (fun r => [2 ^ 43, r.id])).flatten

def pairs : List Nat → List (Nat × Nat)
  | a :: b :: t => (a, b) :: pairs t
  | _ => []

/-- A remote operation of rill `k`, or of what has become of it, has its result. -/
def State.ropOver (s : State) (k id : Nat) : Bool :=
  !s.rills.any (fun p => (p.1 == k || (decide (orphanBase ≤ p.1) && p.2.homeCore == keyCore k)) &&
    p.2.copies.any (fun c => c.id == id && c.kind == .rop && c.result.isEmpty))

def tlbinvReady (s : State) (_k : Nat) (w : Wait) : Bool :=
  (pairs w.vals).all (fun p =>
    if p.1 = 2 ^ 43 then !s.fab.reqs.any (fun r => r.id == p.2)
    else if 2 ^ 42 ≤ p.1 then s.ropOver (p.1 - 2 ^ 42) p.2
    else (s.access p.1 p.2).isNone)
def tlbinvDone (s : State) (k : Nat) (w : Wait) : State := s.release k w

/-- Drops from every TLB the entries `q` accepts, and from the walker's caches those `c` accepts (R440). -/
def State.tlbDrop (s : State) (q : TlbEntry → Bool) (c : PwcEntry → Bool) : State :=
  { s with
    cores := s.cores.map (fun p => (p.1, { p.2 with tlb := p.2.tlb.filter (fun e => !q e) }))
    towerTlb := s.towerTlb.map (fun p => (p.1, p.2.filter (fun e => !q e)))
    walker := { s.walker with pwc := s.walker.pwc.filter (fun e => !c e) } }

def State.tlbinv (s : State) (i : Instr) (ctx : Option Nat) (q : TlbEntry → Bool) (c : PwcEntry → Bool) : State :=
  (s.tlbDrop q c).holdOr (s.mkWait i (s.pendingOf ctx)) tlbinvReady tlbinvDone

def execTlbinvAll (s : State) : Res := .next (s.tlbinv .tlbinvAll none (fun _ => true) (fun _ => true))

def execTlbinvCtx (d : BitVec 7) (s : State) : Res :=
  let c := (s.usrc d.toNat 0).toNat
  if 4095 < c then .next (s.trap 0x1A)
  else .next (s.tlbinv (.tlbinvCtx d) (some c) (fun e => e.ctx == c) (fun e => e.ctx == c))

def execTlbinvPage (d : BitVec 7) (s : State) : Res :=
  let va := (s.usrcPair d.toNat).toNat
  let c := (s.usrc d.toNat 2).toNat
  if 2 ^ 57 ≤ va ∨ 4095 < c then .next (s.trap 0x1A)
  else .next (s.tlbinv (.tlbinvPage d) (some c) (fun e => e.covers c va)
    (fun e => e.ctx == c && e.base == va - va % pageSize (e.level + 1)))

/-! ## HALT (R441) -/

def haltReady (s : State) (k : Nat) (_w : Wait) : Bool :=
  let c := keyCore k
  (s.core c).agentTask || s.tpend c 0 != 0 || s.tpend c 4 != 0

def haltDone (s : State) (k : Nat) (w : Wait) : State :=
  (s.modCore (keyCore k) (fun c => { c with agentTask := false })).release k w

def execHalt (s : State) : Res := .next (s.holdOr (s.mkWait .halt []) haltReady haltDone)

/-! ## PINT, EQRES (R233, R234) -/

/-- PINT. The fall is DEPTH / 16 of the rill's mean draw over its last 32 epochs (R245), which is 1,024 clocks at
0.3 × (CUR + 2) GHz and 16 pJ to an EQ. -/
def execPint (a b : BitVec 7) (s : State) : Res :=
  let w := (s.usrc b.toNat 0).toNat
  let p := (s.usrcPair a.toNat).toNat
  let addr := p % 2 ^ 57
  let dur := bitsOf 27 24 w
  let depth := bitsOf 23 20 w
  let plen := bitsOf 15 0 w
  let k := s.cur.rill
  if 2 ^ 28 ≤ w ∨ 6 < dur ∨ decide (dur = 0) ≠ decide (depth = 0) ∨ (plen ≠ 0 ∧ (addr % 4096 ≠ 0 ∨ 2 ^ 57 ≤ p)) then
    .next (s.modDom (coreDom (keyCore k)) (fun d => { d with intrej := satAdd 64 d.intrej 1 })).advance
  else if dur = 0 then .next (s.modRill k (fun r => { r with intent := none })).advance
  else
    let cur := (s.dom (coreDom (keyCore k))).cur
    let x : Intent :=
      { dur := dur, depth := depth, lead := bitsOf 19 16 w, addr := addr, plen := plen, since := s.now 0
        fall := s.curRill.hist.foldl (· + ·) 0 * (3 * (cur + 2)) * depth / 10240 }
    .next (s.modRill k (fun r => { r with intent := some x })).advance

/-- EQRES (R234): the draw of its issue has paid the price and the transfer; an excess returns to the bucket. -/
def execEqres (d a : BitVec 7) (s : State) : Res :=
  let k := s.cur.rill
  let n := s.eqresWant k (s.usrc a.toNat 0).toNat
  let r := s.curRill.reserve
  let s := if n < r then s.modCore (keyCore k) (fun x => { x with bal := x.bal + (r - n) }) else s
  let s := s.modRill k (fun x => { x with reserve := n })
  .next (s.udst d.toNat 0 (BitVec.ofNat 32 n)).advance

end Sys2Proof.Machine
end

