-- ==== Sys2Proof/Machine/Place.lean ====
section
/-! DEFINITION. Placement (R16, R21, R111, R117 to R127, R430): new rills, new and restored groups and cards,
spans, whole units and the start of rills. -/
namespace Sys2Proof.Machine

/-! ## A rill at its first instruction (R16, R21) -/

/-- Default mask of a level (Table 1-5). -/
def defaultMask : Nat → Nat
  | 0 => 0x01
  | 1 => 0x01
  | 2 => 0x31
  | 3 => 0x33
  | 4 => 0x37
  | 5 => 0x3F
  | 6 => 0x7F
  | _ => 0xFF

def LaunchRec.levelMask (r : LaunchRec) (i : Nat) : Nat :=
  if (r.lv.getD i (0, 0)).2 = 0 then defaultMask i else (r.lv.getD i (0, 0)).2

/-- Slot `i` takes the mask of its level, or of the nearest present level below it. -/
def LaunchRec.slotMask (r : LaunchRec) : Nat → Nat
  | 0 => r.levelMask 0
  | i + 1 => if r.has (i + 1) then r.levelMask (i + 1) else r.slotMask i

/-- A rill of launch `lid` (Table 1-3). -/
def Launch.newRill (l : Launch) (lid group room card gid ent : Nat) (args : List Word) (m : Member) : Rill :=
  let r := l.lr
  let pc : DWord := BitVec.ofNat 64 (r.kcode + r.ents.getD ent 0)
  { live := true, launch := lid, group := group, room := room, card := card, ctx := l.ctx, rid := m.rid, gid := gid
    role := BitVec.ofNat 2 m.role, width := r.rillWidth, nvec := r.nvec, nuni := r.nuni, xregs := r.xregs
    pclass := r.pclass, kcode := r.kcode, rmode := r.rmode
    th := (List.range r.rillWidth).map (fun i => (i, { pc := pc, region := pc }))
    k := args.zipIdx.map (fun p => (p.2, p.1))
    obsm := (List.range 8).map (fun i => BitVec.ofNat 8 (r.slotMask i)) }

def Seat.key (e : Seat) (core : Nat) : Nat := slotKey core e.part e.slot

/-- Members by rill index. -/
def sortMembers (ms : List Member) : List Member := (List.range 64).filterMap (fun i => ms.find? (fun m => m.rid == i))

/-- Clocks from placement to start (R116, R121): the fill of `lsize` bytes, or the setting of a width mode. -/
def Space.fillClocks (x : Space) (seats : List Seat) (lsize : Nat) : Nat :=
  max (if seats.any (fun e => (x.part e.part).mode.isNone) then 64 else 0) (lsize / 128)

/-! ## New groups -/

/-- Resources of a new group are allocated (R121): its number, and the state. -/
def State.allocGroup (s : State) (lid index die pos start : Nat) (seats : List Seat) : Nat × State :=
  let l := s.launch lid
  let r := l.lr
  let id := s.fresh
  let c := coreKey die pos
  let x := s.spaceOf c
  let units := x.units.take r.tuse
  let lsize := 1024 * r.lsize
  let keys := seats.map (fun e => e.key c)
  let g : Group :=
    { launch := lid, index := index, die := die, pos := pos, start := start, room := id, span := r.has 3, st := .placed, liveRills := keys
      slots := keys, fillAt := (s.core c).clk + x.fillClocks seats lsize, order := id }
  let s := { s with fresh := id + 1, active := s.active ++ [id] }
  let s := (s.setGroup id g).setRoom id { live := true, core := c, lsize := lsize, units := units }
  let s := units.foldl (fun (s : State) u => s.setTile (2 * c + u) {}) s
  let s := seats.foldl (fun (s : State) e =>
    let rill := l.newRill lid id id 0 index r.maine r.args { rid := e.rid, role := r.role e.rid }
    (s.setRill (e.key c) rill).setXblk (e.key c) (if r.xregs then {} else s.xblk (e.key c))) s
  let s := s.modCore c (fun k => { k with lastPart := some (lastPartOf start (r.need).members) })
  let s := s.modDie die (fun d => { d with lastPlaced := pos, evaluate := true })
  let s := s.modLaunch lid (fun l => { l with
    ranges := l.ranges.map (fun p =>
      if p.1 = die then (p.1, { p.2 with placed := p.2.placed + 1, since := none, blocks := false }) else p) })
  (id, s)

/-! ## Restored rooms (R430) -/

/-- Own-core cards of group `g` whose rills share a room. -/
def State.roomCards (s : State) (g room : Nat) : List Nat :=
  ((s.group g).cards).filter (fun c => (s.card c).live && (s.card c).own && (s.card c).room == room)

/-- Own-core cards in the room of group `g` itself. -/
def State.ownCards (s : State) (g : Nat) : List Nat := s.roomCards g g

/-- What a saved list of rills needs, for those of one card. -/
def State.savedNeed (s : State) (lid card : Nat) (saved : List Rill) (store units : Nat) : Need :=
  { (s.launch lid).lr.need with
    members := sortMembers ((saved.filter (fun r => r.card == card)).map (fun r => { rid := r.rid, role := r.role.toNat }))
    store := store, units := units, span := false }

/-- The needs of the own-core cards that share a saved room, each at its distance from the room's start (R118, R430). -/
def State.cardNeeds (s : State) (lid start : Nat) (cards : List Nat) (saved : List Rill) : List (Need × Nat) :=
  cards.map (fun c => (s.savedNeed lid c saved 0 0, ((s.card c).start + 8 - start) % 8))

/-- The needs of a saved group: its own rills, with the Flume buffers of a span member, then its own-core cards'. -/
def State.groupNeeds (s : State) (g : Nat) : List (Need × Nat) :=
  let x := s.group g
  let room := s.room x.room
  let own := s.savedNeed x.launch 0 x.saved room.lsize room.saved.length
  ({ own with span := x.span, flumes := if x.span then s.flumeRids g else [] }, 0) :: s.cardNeeds x.launch x.start (s.ownCards g) x.saved

/-- Puts a saved room back on core `c`: `seatOf` gives each rill's seat. The keys of its rills. -/
def State.placeRoom (s : State) (room c : Nat) (saved : List Rill) (xs : List (Nat × Xblk)) (seatOf : Rill → Option Seat) : List Nat × State :=
  let x := s.room room
  let space := s.spaceOf c
  let units := space.units.take x.saved.length
  let keys := saved.map (fun r => ((seatOf r).map (fun e => e.key c)).getD 0)
  let back := fun (o : TileOp) => { o with rill := keys.getD o.rill noRill }
  let s := s.setRoom room { x with live := true, core := c, units := units, saved := [] }
  let s := (units.zip x.saved).foldl (fun (s : State) p => s.setTile (2 * c + p.1) { p.2 with queue := p.2.queue.map back }) s
  let s := (keys.zip saved).foldl (fun (s : State) p =>
    s.setRill p.1 { p.2 with live := true, started := false, dropped := false, wb := 64, kb := 64 }) s
  let s := xs.foldl (fun (s : State) p => s.setXblk (keys.getD p.1 0) p.2) s
  let name := fun (r : RemReq) => match (List.range keys.length).find? (fun i => savedKey room i == r.rill) with
    | some i => { r with rill := keys.getD i 0 }
    | none => r
  let s := { s with fab := { s.fab with reqs := s.fab.reqs.map name } }
  (keys, s.renameEvents (restoredName room keys (units.map (fun u => 2 * c + u))))

/-- The last partition that a restored group uses (R119): that of its own last rill, else of its last card's; `none` where
no rill is left. -/
def State.lastPartUsed (s : State) (g start : Nat) : Option Nat :=
  let of_ := fun (q : Need × Nat) => if q.1.members.isEmpty then none else some (lastPartOf ((start + q.2) % 8) q.1.members)
  match s.groupNeeds g with
  | [] => none
  | q :: t => (of_ q).or ((t.reverse.map of_).findSome? id)

/-- Restores group `g` at a place; `seats` are those of its rills and then of each own-core card. Own-core cards that are
queued still follow it to the end of the new core's queue, without the limit of 64: R168 does not say where they go.
DESIGN CHOICE: log entry 113. -/
def State.restoreGroup (s : State) (g pos start : Nat) (seats : List (List Seat)) : State :=
  let x := s.group g
  let c := coreKey x.die pos
  let old := (s.room x.room).core
  let cards := s.ownCards g
  let listOf := fun (card : Nat) => if card = 0 then seats.headD [] else (seats.tail).getD ((cards.findIdx? (· == card)).getD 0) []
  let fill := (s.spaceOf c).fillClocks seats.flatten (s.room x.room).lsize
  let at_ := (s.core c).clk + fill
  let last := s.lastPartUsed g start
  let (keys, s) := s.placeRoom x.room c x.saved x.savedX (fun r => (listOf r.card).find? (fun e => e.rid == r.rid))
  let mine := fun (card : Nat) => (keys.zip x.saved).filterMap (fun p => if p.2.card = card then some p.1 else none)
  let s := cards.foldl (fun (s : State) i => s.modCard i (fun k => { k with
    liveRills := mine i, st := .placed, fillAt := at_, start := (k.start + 8 - x.start + start) % 8 })) s
  let jobs := (s.core old).jobs.filter (fun j => j.own && j.room == x.room)
  let s := if old = c then s
    else (s.modCore old (fun k => { k with jobs := k.jobs.filter (fun j => !(j.own && j.room == x.room)) })).modCore c
      (fun k => { k with jobs := k.jobs ++ jobs })
  let s := s.setGroup g { x with
    pos := pos, start := start, st := .placed, slots := keys, liveRills := keys, saved := [], savedX := [], gated := false
    fillAt := at_, filled := false, order := s.fresh }
  let s := { s with fresh := s.fresh + 1 }
  let s := s.modCore c (fun k => { k with lastPart := last.or k.lastPart })
  s.modDie x.die (fun d => { d with lastPlaced := pos, evaluate := true })

/-! ## Whole units (R126) -/

/-- Every group of unit `u` that range `p` holds has been placed. -/
def Range.unitDone (p : Range) (unit u : Nat) : Bool :=
  p.placed == p.count || decide ((u + 1) * unit ≤ p.first + p.placed * p.stride) ||
  decide (p.first + (p.count - 1) * p.stride < u * unit)

/-- Every group of an L4 unit, or of the whole launch, is placed. -/
def State.unitPlaced (s : State) (lid u : Nat) : Bool :=
  let l := s.launch lid
  let here := s.active.filter (fun g => (s.group g).launch == lid && (l.lr.has 5 || (s.group g).index / l.lr.unit == u))
  here.all (fun g => (s.group g).onCore) &&
  l.ranges.all (fun p => if l.lr.has 5 then p.2.placed == p.2.count else p.2.unitDone l.lr.unit u)

def LaunchRec.whole (r : LaunchRec) : Bool := r.has 4 || r.has 5

/-- Every group of an L4 unit is placed, whatever an L5 unit around it needs. -/
def State.towerUnitPlaced (s : State) (lid u : Nat) : Bool :=
  let l := s.launch lid
  (s.active.filter (fun g => (s.group g).launch == lid && (s.group g).index / l.lr.unit == u)).all (fun g => (s.group g).onCore) &&
  l.ranges.all (fun p => p.2.unitDone l.lr.unit u)

/-- Groups of launches that are placed and have not started. -/
def State.waitingGroups (s : State) : List Group := (s.active.map s.group).filter (fun x => x.st == .placed)

/-- Incomplete L4 units: the launch, the unit, the tower. -/
def State.openTowerUnits (s : State) : List (Nat × Nat × Nat) :=
  (s.waitingGroups.filter (fun x =>
    let r := (s.launch x.launch).lr
    r.has 4 && !s.towerUnitPlaced x.launch (x.index / r.unit))).map
    (fun x => (x.launch, x.index / (s.launch x.launch).lr.unit, dieTower x.die))

/-- Launches whose L5 unit is incomplete. -/
def State.openWholes (s : State) : List Nat :=
  ((s.waitingGroups.filter (fun x => (s.launch x.launch).lr.has 5 && !s.unitPlaced x.launch 0)).map (·.launch)).eraseDups

/-- Towers whose dispatchers hold groups of a launch. -/
def State.towersOf (s : State) (lid : Nat) : List Nat :=
  (((s.launch lid).ranges.filter (fun p => p.2.count != 0)).map (fun p => dieTower p.1)).eraseDups

/-- A group of a whole unit may be placed on die `d` (R126): its unit is the incomplete one, or may become it, since no
other is incomplete on a tower whose dispatchers it concerns. -/
def State.unitMay (s : State) (lid index d : Nat) : Bool :=
  let r := (s.launch lid).lr
  let towers := s.openTowerUnits
  let wholes := s.openWholes
  let others := fun (l : Nat) => wholes.any (fun o => o != lid && (s.towersOf o).contains l)
  let mine := s.towersOf lid
  (!r.has 4 || towers.any (fun p => p.1 == lid && p.2.1 == index / r.unit) ||
    (!towers.any (fun p => p.2.2 == dieTower d) && !others (dieTower d))) &&
  (!r.has 5 || wholes.contains lid || (wholes.isEmpty && !towers.any (fun p => p.1 != lid && mine.contains p.2.2)))

/-! ## Candidates (R117) -/

structure Cand where
  lid : Nat
  index : Nat
  /-- A saved group to be restored. -/
  group : Option Nat
  deriving DecidableEq, Repr

def State.prioOf (s : State) (lid : Nat) : Nat := (s.queue (s.launch lid).queue).prio

/-- A saved group that die `d` may restore: a span's upper group is restored by request of the lower die, with its partner
or, where that is on its core or has retired, by itself (R123), unless it is gated and its partner is not saved: then it
returns to its place (R430). -/
def State.restorable (s : State) (d g : Nat) : Bool :=
  let x := s.group g
  let p := s.group x.partner
  x.st == .saved &&
  (if !x.span then x.die == d
   else if dieLayer x.die = 0 then x.die == d && p.st != .saving
   else if x.gated then x.die == d && p.st != .saved
   else (p.st == .retired || p.onCore) && otherLayer x.die == d)

def minIndex (s : State) (gs : List Nat) : Option Nat :=
  gs.foldl (fun b g => match b with
    | none => some g
    | some h => if (s.group g).index < (s.group h).index then some g else some h) none

/-- The launch's candidate on die `d`. -/
def State.candOf (s : State) (d lid : Nat) : Option Cand :=
  let l := s.launch lid
  if l.st ≠ .running ∨ (s.queue l.queue).pheld then none
  else match minIndex s (s.active.filter (fun g => (s.group g).launch == lid && s.restorable d g)) with
    | some g => some ⟨lid, (s.group g).index - (if (s.group g).die = d then 0 else 1), some g⟩
    | none =>
      let p := l.ranges.get {} d
      if p.placed < p.count ∧ ¬ (l.lr.has 3 ∧ dieLayer d = 1) then some ⟨lid, p.first + p.placed * p.stride, none⟩ else none

/-- Candidates in the order of R117. -/
def State.cands (s : State) (d : Nat) : List Cand :=
  ([3, 2, 1, 0].map (fun p => (s.running.filter (fun l => s.prioOf l == p)).filterMap (s.candOf d))).flatten

/-- The dispatcher places nothing while its die is not ACTIVE, gated, or being gated or restored (R432). -/
def State.mayPlace (s : State) (d : Nat) : Bool :=
  (s.die d).st == .active && !(s.die d).gated && !(dieLayer d == 1 && s.gbusy.get 0 (dieTower d) != 0) &&
  !s.save.active && !s.save.saved

def State.positions (s : State) (d : Nat) : List Nat := (List.range 24).map (fun i => ((s.die d).lastPlaced + 1 + i) % 24)

/-- The first place from choice `n0` on at which needs fit, in the order of R119 and R120; a span's upper group that is
restored alone asks nothing of the lower die. -/
def State.findPlace (s : State) (d : Nat) (ok : Nat → Bool) (qs : List (Need × Nat)) (n0 : Nat) : Option (Nat × Nat × Nat × List (List Seat)) :=
  (List.range 192).findSome? (fun n =>
    let pos := (s.positions d).getD (n / 8) 0
    if n < n0 || !bitOf pos (s.enmOf d) || !ok pos then none
    else
      let st := (s.startPart (coreKey d pos) + n) % 8
      (Space.fitsAll st none qs (s.spaceOf (coreKey d pos))).map (fun r => (n, pos, st, r.1)))

/-- The candidate is an upper group for which the lower dispatcher makes a request. -/
def State.candUpper (s : State) (d : Nat) (c : Cand) : Bool := c.group.any (fun g => (s.group g).die != d)

/-- Needs of a candidate on die `d`. For an upper group whose partner has retired, the partner's Flume buffers are kept on the
lower core (R459). -/
def State.candNeeds (s : State) (d : Nat) (c : Cand) : List (Need × Nat) :=
  let need := (s.launch c.lid).lr.need
  match c.group with
  | none => [(need, 0)]
  | some g =>
    if !s.candUpper d c then s.groupNeeds g
    else if (s.group (s.group g).partner).st = .retired then
      [({ need with members := [], store := 0, units := 0, flumes := List.range (s.launch c.lid).lr.nrills }, 0)]
    else []

/-- The candidate goes by request to the upper die (R123): a span's pair, or its upper group. -/
def State.asPair (s : State) (d : Nat) (c : Cand) : Bool :=
  (s.launch c.lid).lr.has 3 &&
  (match c.group with
    | none => true
    | some g => (s.group (s.group g).partner).st == .saved || s.candUpper d c)

/-- The partner to whose place a saved group is bound: a gated upper group, or a lower group on its core (R123, R127, R430). -/
def State.boundPartner (s : State) (c : Cand) : Option Group :=
  match c.group with
  | none => none
  | some g =>
    let p := s.group (s.group g).partner
    if (s.group g).span && ((p.st == .saved && p.gated) || (dieLayer p.die == 0 && p.onCore)) then some p else none

/-- Seats of a group's own rills as they were when it was saved. -/
def Group.seatsOf (x : Group) (card : Nat) : List Seat :=
  ((x.slots.zip x.saved).filter (fun p => p.2.card == card)).map (fun p => ⟨p.2.rid, keyPart p.1, keySlot p.1⟩)

/-- Number of a choice that means that none is left. -/
def noChoice : Nat := 192

/-- The lower dispatcher's next request for its candidate, from choice `n0` on (R123), where one is left. -/
def State.requestSpan (s : State) (d : Nat) (c : Cand) (n0 : Nat) : Option State :=
  let t := dieTower d
  let ok := fun (pos : Nat) => bitOf pos (s.pairmOf d)
  let place : Option (Nat × Nat × Nat × List (List Seat)) := match s.boundPartner c with
    | some p =>
      if 0 < n0 ∨ !ok p.pos ∨ !bitOf p.pos (s.enmOf d) then none
      else (Space.fitsAll p.start (some (p.seatsOf 0)) (s.candNeeds d c) (s.spaceOf (coreKey d p.pos))).map (fun r => (noChoice - 1, p.pos, p.start, r.1))
    | none => s.findPlace d ok (s.candNeeds d c) n0
  place.map (fun p =>
    let r : SpanReq :=
      { launch := c.lid, index := c.index, choice := p.1, pos := p.2.1, start := p.2.2.1, upperOnly := s.candUpper d c
        slots := (p.2.2.2.headD []).map (fun e => 128 * e.rid + 16 * e.part + e.slot)
        tried := ((s.spanReqs.get none t).map (·.tried)).getD [] }
    { s with spanReqs := s.spanReqs.set t (some r) })

def decodeSeat (n : Nat) : Seat := ⟨n / 128, n / 16 % 8, n % 16⟩

/-- A gated group returns to its former place (R430). -/
def State.formerPlace (s : State) (g : Nat) : Option (Nat × Nat × List (List Seat)) :=
  let x := s.group g
  let c := coreKey x.die x.pos
  let space := { s with groups := s.groups.set g { x with gated := false } }.spaceOf c
  let go := (x.seatsOf 0 :: (s.ownCards g).map x.seatsOf).zip (s.groupNeeds g)
  let r := go.foldl (fun (acc : Option Space) p => acc.bind (fun y => (y.fitsAt p.2.1 ((x.start + p.2.2) % 8) (some p.1)).map (·.2))) (some space)
  r.map (fun _ => (x.pos, x.start, x.seatsOf 0 :: (s.ownCards g).map x.seatsOf))

/-- Tries to place a candidate now: `none` where it fits nowhere. A span's first request counts as a placement
under way. -/
def State.tryCand (s : State) (d : Nat) (c : Cand) : Option State :=
  if !s.unitMay c.lid c.index d then none
  else if s.asPair d c then
    if ((s.spanReqs.get none (dieTower d)).any (fun r => r.tried.contains c.lid)) then none else s.requestSpan d c 0
  else match c.group with
    | none =>
      (s.findPlace d (fun _ => true) (s.candNeeds d c) 0).map (fun p => (s.allocGroup c.lid c.index d p.2.1 p.2.2.1 (p.2.2.2.headD [])).2)
    | some g =>
      let x := s.group g
      if x.span && (x.gated || (s.group x.partner).onCore) then (s.formerPlace g).map (fun p => s.restoreGroup g p.1 p.2.1 p.2.2)
      else (s.findPlace d (fun pos => !x.span || bitOf pos (s.pairmOf d)) (s.candNeeds d c) 0).map (fun p => s.restoreGroup g p.2.1 p.2.2.1 p.2.2.2)

/-- The victim of R426 for a candidate that does not fit: the most recently placed group of the lowest level, of
a queue with PEMPT, below the candidate's. -/
def State.victim (s : State) (dies : List Nat) (prio : Nat) : Option Nat :=
  let ok := fun (g : Nat) =>
    let x := s.group g
    x.onCore && dies.contains x.die && (s.queue (s.launch x.launch).queue).pempt
  let at_ := fun (p : Nat) => (s.active.filter (fun g => ok g && s.prioOf (s.group g).launch == p)).foldl
    (fun (b : Option Nat) g => match b with
      | none => some g
      | some h => if (s.group h).order < (s.group g).order then some g else some h) none
  ((List.range prio).map at_).findSome? id

/-- When a candidate became one, as far as the dispatcher has noted it. -/
def State.candSince (s : State) (d : Nat) (c : Cand) : Option Nat :=
  match c.group with
  | some g => (s.group g).since
  | none => ((s.launch c.lid).ranges.get {} d).since

/-- A candidate has waited 100 µs (R117). -/
def State.waitedLong (s : State) (d : Nat) (c : Cand) : Bool :=
  (c.group.isNone && ((s.launch c.lid).ranges.get {} d).blocks) || (s.candSince d c).any (fun t => decide (t + 100000 ≤ s.now d))

/-- The present candidates of a die have begun to wait. -/
def State.noteCands (s : State) (d : Nat) : State :=
  ((s.cands d).filter (fun c => (s.candSince d c).isNone)).foldl (fun s c =>
    match c.group with
    | some g => s.modGroup g (fun x => { x with since := some (s.now d) })
    | none => s.modLaunch c.lid (fun l => { l with ranges := l.ranges.map (fun p => if p.1 = d then (p.1, { p.2 with since := some (s.now d) }) else p) })) s

/-- Considers the candidates in order (R117): `floor` is the level below which a candidate that has waited 100 µs
lets none be placed; `unfit` holds those that did not fit, in order. -/
def State.scan (s : State) (d : Nat) : List Cand → Nat → List Cand → Option State × List Cand
  | [], _, unfit => (none, unfit)
  | c :: t, floor, unfit =>
    let p := s.prioOf c.lid
    if p < floor then s.scan d t floor unfit
    else match s.tryCand d c with
      | some s' => (some s', unfit)
      | none =>
        s.scan d t (if s.waitedLong d c then max floor p else floor) (unfit ++ [c])

/-- Makes room for the first candidate for which a victim runs, unless groups are leaving the die already. -/
def State.makePlace (s : State) (d : Nat) (unfit : List Cand) : State :=
  if s.active.any (fun g => (s.group g).st == .saving && (s.group g).die == d) || !s.traps.deferred.isEmpty then s
  else
    let dies := fun (c : Cand) => if (s.launch c.lid).lr.has 3 then [d, otherLayer d] else [d]
    match unfit.findSome? (fun c => s.victim (dies c) (s.prioOf c.lid)) with
    | none => s
    | some g => s.preemptUnit g

/-! ## Cards (R29, R121, R168) -/

/-- The group and, for a card that shares it, the room are on their core; the room of a neighbour-core card is so while cards
that its rills have posted are queued (R29). -/
def State.cardMay (s : State) (j : Job) : Bool :=
  (s.group j.group).resident && (!j.own || j.room == j.group || (s.card j.room).onCore)

/-- The oldest card of a core's queue is placed, where it fits. A card's placement is not its die's previous placement in
the sense of R120, which speaks of groups. DESIGN CHOICE: log entry 112. -/
def State.placeCard (s : State) (c : Nat) : Option State :=
  match (s.core c).jobs with
  | [] => none
  | j :: t =>
    if !s.cardMay j then none
    else
      let l := s.launch j.launch
      let need := l.lr.cardNeed j.card j.own
      let x := s.spaceOf c
      match x.fits [(need, 0)] (s.startPart c) with
      | none => none
      | some (st, seatss, _) =>
        let seats := seatss.headD []
        let id := s.fresh
        let room := if j.own then j.room else id
        let keys := seats.map (fun e => e.key c)
        let units := x.units.take need.units
        let w := word64 j.card 0
        let args := (List.range (bitsOf 35 32 w)).map (fun i => BitVec.ofNat 32 (word64 j.card (3 + i / 2) / 2 ^ (32 * (i % 2))))
        let k : Card :=
          { live := true, own := j.own, launch := j.launch, group := j.group, room := room, words := j.card, liveRills := keys
            start := st, st := .placed, fillAt := (s.core c).clk + x.fillClocks seats need.store }
        let s := ({ s with fresh := id + 1 }.setCard id k).modCore c (fun y => { y with jobs := t })
        let s := if j.own then s else s.setRoom id { live := true, core := c, lsize := need.store, units := units }
        let s := units.foldl (fun (s : State) u => s.setTile (2 * c + u) {}) s
        let gid := (s.group j.group).index
        let s := seats.foldl (fun (s : State) e =>
          let m : Member := (need.members.find? (fun m => m.rid == e.rid)).getD {}
          (s.setRill (e.key c) (l.newRill j.launch j.group room id gid (bitsOf 5 0 w) args m)).setXblk (e.key c)
            (if l.lr.xregs then {} else s.xblk (e.key c))) s
        some ((s.modGroup j.group (fun g =>
          let live := if j.own && j.room == j.group then g.liveRills ++ keys else g.liveRills
          { g with cards := g.cards ++ [id], liveRills := live })).evaluateAt (coreDie c))

/-- A saved neighbour-core card returns to its core (R426, R430). -/
def State.restoreCard (s : State) (i : Nat) : Option State :=
  let k := s.card i
  let room := s.room k.room
  let c := room.core
  if (s.queue (s.launch k.launch).queue).pheld || !(s.group k.group).onCore then none
  else
    let own := s.roomCards k.group k.room
    let needs := (s.savedNeed k.launch i k.saved room.lsize room.saved.length, 0) :: s.cardNeeds k.launch k.start own k.saved
    let x := s.spaceOf c
    match x.fits needs (s.startPart c) with
    | none => none
    | some (st, seats, _) =>
      let at_ := (s.core c).clk + x.fillClocks seats.flatten room.lsize
      let listOf := fun (card : Nat) => seats.getD (if card = i then 0 else ((own.findIdx? (· == card)).getD 0) + 1) []
      let (keys, s) := s.placeRoom k.room c k.saved k.savedX (fun r => (listOf r.card).find? (fun e => e.rid == r.rid))
      let mine := fun (card : Nat) => (keys.zip k.saved).filterMap (fun p => if p.2.card = card then some p.1 else none)
      let s := own.foldl (fun (s : State) j => s.modCard j (fun y => { y with
        liveRills := mine j, st := .placed, fillAt := at_, start := (y.start + 8 - k.start + st) % 8 })) s
      some ((s.setCard i { k with st := .placed, liveRills := mine i, saved := [], savedX := [], fillAt := at_, start := st }).evaluateAt (coreDie c))

/-- Cards of die `d`, core by core: a saved one, else the oldest of the queue. -/
def State.tryCards (s : State) (d : Nat) : Option State :=
  let saved := (s.cards.filter (fun p => p.2.live && p.2.st == .saved && !p.2.own && coreDie (s.room p.2.room).core == d)).map (·.1)
  match saved.findSome? s.restoreCard with
  | some s => some s
  | none => (List.range 24).findSome? (fun pos => s.placeCard (coreKey d pos))

/-! ## The evaluation (R117) -/

/-- A request of the tower's lower dispatcher is outstanding. -/
def State.spanBusy (s : State) (d : Nat) : Bool :=
  dieLayer d == 0 && ((s.spanReqs.get none (dieTower d)).any (fun r => r.choice != noChoice))

/-- PLACEMENT_EVALUATION: the first candidate that fits is placed, and the candidates are considered again. -/
def State.evaluate (s : State) (d : Nat) : State :=
  let t := (s.modDie d (fun x => { x with evaluate := false })).noteCands d
  match t.tryCards d with
  | some t => t
  | none =>
    match t.scan d (t.cands d) 0 [] with
    | (some t, _) => t
    | (none, unfit) =>
      let t := t.makePlace d unfit
      if dieLayer d = 0 then { t with spanReqs := t.spanReqs.set (dieTower d) none } else t

/-- CANDIDATE_WAIT_LIMIT (R117): the launch's candidate on the die has waited 100 µs. -/
def execCandidateWaitLimit (die lid : Nat) (s : State) : Res :=
  match s.candOf die lid with
  | none => .next s
  | some c =>
    if !s.waitedLong die c || c.group.isSome then .next s
    else
      let p := (s.launch lid).ranges.get {} die
      .next (s.modLaunch lid (fun l => { l with ranges := l.ranges.set die { p with blocks := true } }))

/-! ## Spans (R123, R124) -/

/-- The saved group of a launch with an index. -/
def State.savedGroup (s : State) (lid index : Nat) : Option Nat :=
  s.active.find? (fun g => (s.group g).launch == lid && (s.group g).index == index && (s.group g).st == .saved)

/-- The seats of the upper group of a request at its place: a gated group's own, and those of one whose partner is on its core,
and no others. -/
def State.upperSeats (s : State) (d : Nat) (r : SpanReq) : Option (List (List Seat)) :=
  let fit := fun (qs : List (Need × Nat)) =>
    (Space.fitsAll r.start (some (r.slots.map decodeSeat)) qs (s.spaceOf (coreKey d r.pos))).map (·.1)
  match s.savedGroup r.launch (r.index + 1) with
  | none => fit [((s.launch r.launch).lr.need, 0)]
  | some g =>
    let x := s.group g
    if !x.gated && !(s.group x.partner).onCore then fit (s.groupNeeds g)
    else if x.pos = r.pos ∧ x.start = r.start then (s.formerPlace g).map (·.2.2)
    else none

/-- SPAN_RESERVATION_REQUEST: the upper dispatcher grants, and allocates, or refuses. A request for a launch that PGO holds off
is over (R431). -/
def execSpanReservationRequest (tower : Nat) (s : State) : Res :=
  match s.spanReqs.get none tower with
  | none => .next s
  | some r =>
    if r.answer.isSome || r.choice = noChoice || 4 ≤ tower then .next s
    else
      let d := 7 + 2 * tower
      let no := { s with spanReqs := s.spanReqs.set tower (some { r with answer := some false }) }
      if (s.queue (s.launch r.launch).queue).pheld then .next { s with spanReqs := s.spanReqs.set tower none }
      else if !s.mayPlace d || !bitOf r.pos (s.pairmOf d) || !s.unitMay r.launch (r.index + 1) d then .next no
      else match s.upperSeats d r with
        | none => .next no
        | some seats =>
          let s := { s with spanReqs := s.spanReqs.set tower (some { r with answer := some true }) }
          match s.savedGroup r.launch (r.index + 1) with
          | some g => .next (s.restoreGroup g r.pos r.start seats)
          | none => .next (s.allocGroup r.launch (r.index + 1) d r.pos r.start (seats.headD [])).2

/-- The answer to a request: both groups are placed, or the next choice is tried. -/
def State.spanReply (s : State) (tower : Nat) : State :=
  match s.spanReqs.get none tower with
  | none => s
  | some r =>
    let d := 6 + 2 * tower
    let lower := s.savedGroup r.launch r.index
    match r.answer with
    | none => s
    | some false =>
      let c : Cand := ⟨r.launch, r.index, if r.upperOnly then s.savedGroup r.launch (r.index + 1) else lower⟩
      match s.requestSpan d c (r.choice + 1) with
      | some s => s
      | none =>
        let r := { r with choice := noChoice, answer := none, tried := r.launch :: r.tried }
        { s with spanReqs := s.spanReqs.set tower (some r) }.modDie d (fun x => { x with evaluate := true })
    | some true =>
      let s := { s with spanReqs := s.spanReqs.set tower none }
      if r.upperOnly then s else
      match lower with
      | some g =>
        match Space.fitsAll r.start (some (r.slots.map decodeSeat)) (s.groupNeeds g) (s.spaceOf (coreKey d r.pos)) with
        | some (seats, _) => s.restoreGroup g r.pos r.start seats
        | none => s
      | none =>
        let (g, s) := s.allocGroup r.launch r.index d r.pos r.start (r.slots.map decodeSeat)
        match s.active.find? (fun h => (s.group h).launch == r.launch && (s.group h).index == r.index + 1) with
        | none => s
        | some h => (s.modGroup g (fun x => { x with partner := h })).modGroup h (fun x => { x with partner := g })

/-- SPAN_RESERVATION_REPLY. -/
def execSpanReservationReply (tower : Nat) (s : State) : Res := .next (s.spanReply tower)

/-! ## PGO (R431) -/

/-- The requests for spans of a queue end: a grant places both groups, and what has not been granted is dropped. -/
def State.endSpanReqs (s : State) (q : Nat) : State :=
  [0, 1, 2, 3].foldl (fun s t =>
    match s.spanReqs.get none t with
    | none => s
    | some r =>
      if (s.launch r.launch).queue ≠ q then s
      else if r.answer = some true then s.spanReply t
      else { s with spanReqs := s.spanReqs.set t none }) s

/-- PREEMPT_QUEUE: writes PQ; PGO holds the queue's groups off their cores. -/
def execPreemptQueue (v : DWord) (s : State) : Res :=
  let q := v.toNat % 64
  let s := { s with traps := { s.traps with pq := q } }
  if bitOf 31 v.toNat then
    let s := s.endSpanReqs q
    .next ((s.queueGroups q).foldl State.preemptWith (s.modQueue q (fun x => { x with pheld := true })))
  else .next s

/-- PHELD: a PGO holds the queue's groups, and all of them have been saved (R431, R442). -/
def State.pheldShown (s : State) (q : Nat) : Bool :=
  (s.queue q).pheld && (s.queueGroups q).all (fun g =>
    (s.group g).st == .saved && (s.group g).cards.all (fun c => !(s.card c).live || (s.card c).own || (s.card c).st == .saved))

/-! ## Starts (R121, R123, R126, R430) -/

/-- UNIT_PLACED_REPORT (R126). -/
def execUnitPlacedReport (die lid : Nat) (s : State) : Res :=
  let p := (s.launch lid).ranges.get {} die
  if (s.launch lid).st = .running && (s.launch lid).lr.has 5 && p.placed == p.count then
    .next (s.modLaunch lid (fun l => { l with ranges := l.ranges.set die { p with unitRep := true } }))
  else .next s

/-- MASK_REPORT (R111). -/
def execMaskReport (die : Nat) (s : State) : Res :=
  if !isCompute die then .next s
  else
    let d := s.die die
    .next (s.setDie die { d with rmask := if d.st = .active && !d.gated then d.enm else 0 })

/-- The group's fill has ended, and its unit is whole. -/
def State.mayStart (s : State) (g : Nat) : Bool :=
  let x := s.group g
  let l := s.launch x.launch
  let full := fun (y : Group) => y.onCore && decide (y.fillAt ≤ (s.core (coreKey y.die y.pos)).clk)
  let p := s.group x.partner
  x.st == .placed && full x && (!x.span || (x.partner != 0 && (p.st == .retired || full p))) &&
  (!l.lr.whole || s.unitPlaced x.launch (x.index / l.lr.unit)) &&
  (!l.lr.has 5 || l.ranges.all (fun p => p.2.count == 0 || p.2.unitRep))

/-- A rill that starts: a trap that it brought is pending again, or is resolved as the host has said (R430,
R442). -/
def State.startRill (s : State) (k : Nat) : State :=
  let s := s.modRill k (fun r => { r with started := true })
  match (s.rill k).trap with
  | none => s
  | some t =>
    match t.act with
    | some 0 => s.modRill k (fun r => { r with trap := none })
    | some _ => s.eretKill k
    | none => s.modCore (keyCore k) (fun c => { c with agentTask := true })

/-- A resolution that found a tile operation saved takes effect. -/
def State.startUnit (s : State) (u : Nat) : State :=
  match (s.tile u).head with
  | none => s
  | some o =>
    match o.act with
    | none => s
    | some 0 => (s.forget (.engine (u / 2)) o.ctx o.faddr).modTile u (·.setHead { o with susp := false, act := none })
    | some _ => s.endTile u { o with act := none }

/-- Rills of a room start; its core's L1 is invalidated and its frame is free (R430): their first instructions see the
stores of a spawning thread, or of a prologue (R27, R87). -/
def State.startRoom (s : State) (c : Nat) (keys units : List Nat) (frame : Option Nat) : State :=
  let s := (s.l1Clear c).releaseFrame frame
  units.foldl State.startUnit (keys.foldl State.startRill s)

/-- The homes may read a frame that is to be loaded. -/
def State.frameReady (s : State) (frame : Option Nat) (items : List FrameItem) : Bool :=
  items.isEmpty || frame.all (fun f => s.homeOpen (s.frameAt f) frameBytes false)

/-- A group, which a restore has placed, is loaded from its frame (R430), and is resident from now on. -/
def State.loadGroup (s : State) (g : Nat) : State :=
  let x := s.group g
  let s' := match x.frame with
    | some f => if x.layout.isEmpty then s else s.loadFrame f x.room x.liveRills (s.room x.room).unitKeys x.layout
    | none => s
  s'.setGroup g { x with filled := true, layout := [] }

/-- GROUP_START: of a group, or of a card. The two groups of a span are loaded together, at their common start (R123). -/
def execGroupStart (room : Nat) (s : State) : Res :=
  let x := s.group room
  let k := s.card room
  let ask := fun (frame : Option Nat) => match frame with
    | some f => s.homeAsk (s.frameAt f) frameBytes false
    | none => s
  if x.room = room ∧ x.st = .placed then
    let p := s.group x.partner
    let both := x.span && p.st == .placed && p.partner == room
    if !s.mayStart room then .next s
    else if !s.frameReady x.frame x.layout then .next (ask x.frame)
    else if both && !s.frameReady p.frame p.layout then .next (ask p.frame)
    else
      let c := coreKey x.die x.pos
      let cards := s.ownCards room
      let s := s.loadGroup room
      let s := if both && !p.filled then s.loadGroup x.partner else s
      let s := s.modGroup room (fun y => { y with st := .running, frame := none })
      let s := cards.foldl (fun (s : State) i => s.modCard i (fun k => { k with st := .running })) s
      .next (s.startRoom c x.liveRills (s.room room).unitKeys x.frame)
  else if k.live && k.st == .placed then
    let c := (s.room k.room).core
    if (s.core c).clk < k.fillAt || !(s.group k.group).resident then .next s
    else if !s.frameReady k.frame k.layout then .next (ask k.frame)
    else
      let units := if k.own then [] else (s.room k.room).unitKeys
      let s := match k.frame with
        | some f => if k.layout.isEmpty then s else s.loadFrame f k.room (s.roomKeys k.room) units k.layout
        | none => s
      let s := s.setCard room { k with st := .running, frame := none, layout := [] }
      .next (s.startRoom c k.liveRills units k.frame)
  else .next s

end Sys2Proof.Machine
end

