-- ==== Sys2Proof/Machine/Retire.lean ====
section
/-! DEFINITION. Retirement of rills, cards and groups (R31, R92, R443, R444), and the events that find them
due. -/
namespace Sys2Proof.Machine

/-- R443: every thread has exited, every counter is 0, the copy context is empty, and no trap is pending. -/
def State.rillOver (s : State) (k : Nat) : Bool :=
  let r := s.rill k
  r.live && r.started && !r.dropped && !r.agent && decide (k < 0x10000) && r.liveLanes.isEmpty &&
  r.nld == 0 && r.nst == 0 && r.ntl == 0 && (List.range 4).all (fun t => r.ncp.get 0 t == 0) &&
  r.copies.isEmpty && r.accs.isEmpty && r.arrivals.isEmpty && r.vtoks.isEmpty && r.trap.isNone && r.pend.isNone

/-- The add to a card's counter (R31), skipped under R468 where it cannot be made; `false` while its line is not to hand. An
add that meets a poisoned half is dropped: the spec does not say what it does. DESIGN CHOICE: log entry 108. -/
def State.addDone (s : State) (c ctx va group : Nat) : Bool × State :=
  match s.translate (.engine c) ctx va .atomic false with
  | (.error e, s) => if e = waitCode then (false, s) else (true, s.skipStore (coreDie c, corePos c) e va 1)
  | (.ok p, s) =>
    let line := p.pa / 128
    let t := coreTower c
    let add := fun (s : State) => s.poke p.tgt p.pa (toBytes 4 ((ofBytes (s.peek p.tgt p.pa 4) + 1) % 2 ^ 32))
    match p.tgt with
    | 0 =>
      if !s.canWrite line t then (false, s.wantLine line t true)
      else if s.poisoned t 0 p.pa 4 then (true, s.lineDone line t false)
      else (true, ((add s).lineDone line t true).l1Drop c line)
    | 1 => if s.basinBusy p.pa then (false, s) else (true, if s.poisoned t 1 p.pa 4 then s else add s)
    | _ => (true, s.newRequest { kind := .atomic, peer := p.peer, vc := 0, addr := p.pa, size := 4, rill := noRill, data := [0, 1, 0]
                                 va := va, arg := 1, queue := group, die := coreDie c, core := corePos c })

/-- Own-core cards share a neighbour-core card's room, or are queued for it (R29). -/
def State.roomShared (s : State) (room : Nat) : Bool :=
  s.cards.any (fun p => p.2.live && p.2.own && p.2.room == room) || s.cores.any (fun p => p.2.jobs.any (fun j => j.own && j.room == room))

/-- A card whose last rill has retired counts at DONEC; it frees what it held, and is over, once no other card shares that. -/
def State.tryFinishCard (s : State) (i : Nat) : State :=
  let k := s.card i
  if !k.live || k.st != .running || !k.liveRills.isEmpty then s
  else
    let c := (s.room k.room).core
    let va := word64 k.words 7
    let r := if va = 0 ∨ k.counted then (true, s) else s.addDone c (s.launch k.launch).ctx va k.group
    if !r.1 then r.2
    else if !k.own && r.2.roomShared k.room then r.2.setCard i { k with counted := true }
    else
      let s := r.2
      let s := if k.own then s else s.setRoom k.room {}
      let s := (s.setCard i {}).modGroup k.group (fun g => { g with cards := g.cards.filter (· != i) })
      s.evaluateAt (coreDie c)

/-- R444, the DONEC adds that are on their way to a peer included. -/
def State.groupOver (s : State) (g : Nat) : Bool :=
  let x := s.group g
  x.st == .running && x.liveRills.isEmpty && x.cards.isEmpty &&
  !s.cores.any (fun p => p.2.jobs.any (fun j => j.group == g)) &&
  !s.fab.reqs.any (fun r => r.arg == 1 && r.queue == g) &&
  (s.room x.room).unitKeys.all (fun u => (s.tile u).queue.isEmpty)

def State.tryRetireGroup (s : State) (g : Nat) : State :=
  if !s.groupOver g then s
  else
    let x := s.group g
    let s := (s.setRoom x.room {}).setGroup g { x with st := .retired, doneMsgs := [] }
    let s := { s with active := s.active.filter (· != g) }
    let s := s.modLaunch x.launch (fun l => { l with
      ranges := l.ranges.map (fun p => if p.1 = x.die then (p.1, { p.2 with retired := p.2.retired + 1 }) else p) })
    s.evaluateAt x.die

/-- Cards and groups that are over now. -/
def State.sweep (s : State) : State :=
  let s := (s.cards.map (·.1)).foldl State.tryFinishCard s
  s.active.foldl State.tryRetireGroup s

/-- RILL_RETIRE (R443): its slot, registers and copy context are free, and its reserve returns. -/
def execRillRetire (rill : Nat) (s : State) : Res :=
  if !s.rillOver rill then .next s
  else
    let r := s.rill rill
    let s := (s.freeSlot rill).modGroup r.group (fun g => { g with liveRills := g.liveRills.filter (· != rill) })
    let s := if r.card = 0 then s else s.modCard r.card (fun c => { c with liveRills := c.liveRills.filter (· != rill) })
    .next s.sweep

/-- COMPLETION_COUNT_REPORT (R92): a die reports the groups that have retired since its last count. -/
def execCompletionCountReport (die lid : Nat) (s : State) : Res :=
  let s := s.sweep
  let l := s.launch lid
  let p := l.ranges.get {} die
  if (s.die 0).st = .active && l.st = .running && decide (p.reported < p.retired) then
    .next (s.setLaunch lid { l with
      count := l.count + (p.retired - p.reported), ranges := l.ranges.set die { p with reported := p.retired } })
  else .next s

/-- PLACEMENT_EVALUATION (R117). -/
def execPlacementEvaluation (die : Nat) (s : State) : Res :=
  let s := s.sweep
  if isCompute die && (s.die die).evaluate && s.mayPlace die && !s.spanBusy die then .next (s.evaluate die) else .next s

end Sys2Proof.Machine
end

