-- ==== Sys2Proof/Machine/Trap.lean ====
section
/-! DEFINITION. ERET (R438), the event ring (R421 to R424) and the resolution of events. -/
namespace Sys2Proof.Machine

/-! ## ERET -/

/-- RETRY: the trapping cohort at %tpc. -/
def State.eretRetry (s : State) (k : Nat) : State :=
  match (s.rill k).trap with
  | none => s
  | some t => s.unpark k t t.pc

/-- CONT: at %tresume, for TRAP and BRK only. -/
def State.eretCont (s : State) (k : Nat) : State :=
  match (s.rill k).trap with
  | none => s
  | some t => if t.cause = 8 ∨ t.cause = 9 then s.unpark k t t.resume else s

def execEretRetry (s : State) : Res := .next (s.eretRetry (s.selected (keyCore s.cur.rill))).advance
def execEretCont (s : State) : Res := .next (s.eretCont (s.selected (keyCore s.cur.rill))).advance
def execEretKill (s : State) : Res := .next (s.eretKill (s.selected (keyCore s.cur.rill))).advance

/-! ## Event records (Table 18-4) -/

structure EventInfo where
  cause : Nat := 0x11
  fcode : Nat := 0
  eng : Nat := 0
  die : Nat := 0
  core : Nat := 0
  part : Nat := 0
  slot : Nat := 0
  addr : Nat := 0
  pc : Nat := 0
  aux : Nat := 0
  ctx : Nat := 0
  queue : Nat := 0
  deriving DecidableEq, Repr, Inhabited

/-- The saved rills, or tile units, of a room. -/
def State.savedRills (s : State) (room : Nat) : List Rill :=
  if (s.group room).st = .saved then (s.group room).saved else (s.card room).saved

/-- The slots they had. -/
def State.savedSlots (s : State) (room : Nat) : List Nat :=
  if (s.group room).st = .saved then (s.group room).slots else (s.card room).slots

def rillInfo (r : Rill) (k queue : Nat) : Option EventInfo :=
  r.trap.map (fun t =>
    { cause := t.cause, fcode := t.fcause, die := keyDie k, core := corePos (keyCore k), part := keyPart k, slot := keySlot k
      addr := t.addr.toNat, pc := (t.pc.toNat - r.kcode) % 2 ^ 32, aux := t.aux.toNat, ctx := r.ctx, queue := queue })

def tileInfo (o : TileOp) (u queue : Nat) : EventInfo :=
  { fcode := o.fcause, eng := 2 + u % 2, die := coreDie (u / 2), core := corePos (u / 2), addr := o.faddr, ctx := o.ctx, queue := queue }

/-- What the record of an event says; `none` where its subject is gone. -/
def State.eventInfo (s : State) : EventOf → Option EventInfo
  | .rill k => rillInfo (s.rill k) k (s.launch (s.rill k).launch).queue
  | .savedRill room i =>
    match (s.savedRills room)[i]? with
    | none => none
    | some r => rillInfo r ((s.savedSlots room).getD i 0) (s.launch r.launch).queue
  | .copy k id =>
    (s.copyCmd k id).map (fun c =>
      let core := s.coreOf k
      { fcode := c.fcause, eng := 1, die := coreDie core, core := corePos core, addr := c.faddr, ctx := (s.rill k).ctx
        queue := (s.launch (s.rill k).launch).queue })
  | .tile u id =>
    match (s.tile u).head with
    | none => none
    | some o => if o.id = id then some (tileInfo o u (s.launch o.launch).queue) else none
  | .savedTile room i _ =>
    match ((s.room room).saved[i]?).bind TileUnit.head with
    | none => none
    | some o => some (tileInfo o (2 * (s.room room).core + i) (s.launch o.launch).queue)
  | .coll tag =>
    (s.fab.colls.find? (fun c => c.tag == tag)).map (fun c =>
      { fcode := c.fcause, eng := 4, die := 1, addr := c.faddr, ctx := c.ctx, queue := c.queue })

def EventInfo.bytes (e : EventInfo) (id : Nat) : List Byte :=
  toBytes 8 e.addr ++
  toBytes 8 (id * 2 ^ 48 + e.cause * 2 ^ 40 + e.fcode * 2 ^ 36 + e.eng * 2 ^ 32 + e.die * 2 ^ 28 + e.core * 2 ^ 23 +
    e.part * 2 ^ 20 + e.slot * 2 ^ 16) ++
  toBytes 8 (e.pc * 2 ^ 32 + e.aux) ++ toBytes 8 (e.ctx * 2 ^ 52 + e.queue * 2 ^ 46)

/-- The party that writes an event's record is running: the core's agent, or the IOD (R422); a BRK with DBGEN 1
needs no agent (R435). -/
def State.writerUp (s : State) (e : EventOf) (x : EventInfo) : Bool :=
  match e with
  | .coll _ => (s.die 1).st == .active
  | _ => s.runs (agentKey (coreKey x.die x.core)) || (x.cause == 9 && (s.die x.die).dbgen)

def modNth {α : Type} (l : List α) (i : Nat) (f : α → α) : List α :=
  match l[i]? with
  | none => l
  | some x => setNth l i (f x)

/-- Changes the trap record of a saved rill. -/
def State.modSaved (s : State) (room i : Nat) (f : TrapRec → TrapRec) : State :=
  let g := fun (l : List Rill) => modNth l i (fun r => { r with trap := r.trap.map f })
  if (s.group room).st = .saved then s.modGroup room (fun x => { x with saved := g x.saved })
  else s.modCard room (fun x => { x with saved := g x.saved })

/-- Changes the suspended operation of a saved tile unit. -/
def State.modSavedTile (s : State) (room i : Nat) (f : TileOp → TileOp) : State :=
  s.modRoom room (fun x => { x with saved := modNth x.saved i (fun u => { u with queue := modNth u.queue 0 f }) })

def State.modColl (s : State) (tag : Nat) (f : Coll → Coll) : State :=
  { s with fab := { s.fab with colls := s.fab.colls.map (fun c => if c.tag = tag then f c else c) } }

/-- The event has its ID. -/
def State.nameEvent (s : State) (e : EventOf) (id : Nat) : State :=
  let named := fun (t : TrapRec) => { t with event := id, waiting := false }
  match e with
  | .rill k => s.modRill k (fun r => { r with trap := r.trap.map named })
  | .savedRill room i => s.modSaved room i named
  | .copy k c => (match s.copyCmd k c with
    | none => s
    | some x => s.setCopy k { x with held := some id })
  | .tile u _ => s.modTile u (fun t => { t with queue := modNth t.queue 0 (fun o => { o with event := id, waiting := false }) })
  | .savedTile room i _ => s.modSavedTile room i (fun o => { o with event := id, waiting := false })
  | .coll tag => s.modColl tag (fun c => { c with event := id, waiting := false })

/-- The next event ID (R422): in order, modulo 2^16, passing over 0 and those that are not resolved. -/
def TrapRegs.freshId (t : TrapRegs) : Nat :=
  ((List.range (t.events.length + 1)).map (fun i => (t.nextId - 1 + i) % 65535 + 1)).find? (fun i => !t.events.any (fun e => e.1 == i)) |>.getD 1

def TrapRegs.full (t : TrapRegs) : Bool := (t.rhead + 65536 - t.rtail) % 65536 == 2 ^ t.rlog2 % 65536

/-- The party that writes the record, as its slice and L1 know it: the core's agent, or the IOD (R319, R323). -/
def EventInfo.via (x : EventInfo) (e : EventOf) : Via :=
  match e with
  | .coll _ => .direct
  | _ => .engine (coreKey x.die x.core)

/-- EVENT_RECORD_WRITE (R422): the oldest event whose writer runs, where the ring has room, once the slice has the line. -/
def execEventRecordWrite (s : State) : Res :=
  let gone := s.traps.waiting.filter (fun e => (s.eventInfo e).isNone)
  let s := if gone.isEmpty then s
    else { s with traps := { s.traps with waiting := s.traps.waiting.filter (fun e => !gone.contains e) } }
  if s.traps.full then .next s
  else match s.traps.waiting.find? (fun e => ((s.eventInfo e).map (s.writerUp e)).getD false) with
    | none => .next s
    | some e =>
      match s.eventInfo e with
      | none => .next s
      | some x =>
        let t := s.traps
        let id := t.freshId
        match s.storeAt (x.via e) { pa := t.rbase + 32 * (t.rhead % 2 ^ t.rlog2) } (x.bytes id) {} with
        | (false, s) => .next s
        | (true, s) =>
          let s := { s with traps := { t with
            rhead := (t.rhead + 1) % 65536, nextId := id % 65535 + 1, waiting := t.waiting.filter (· != e), events := t.events ++ [(id, e)] } }
          .next ((s.nameEvent e id).raise x.queue)

/-! ## Resolutions (R423, R424) -/

/-- A copy command's fault is resolved, or ends the command with the copy-fault trap and no completion action. -/
def State.resolveCopy (s : State) (k id act : Nat) : State :=
  match s.copyCmd k id with
  | none => s
  | some c =>
    if act = 0 then (s.forget (.engine (s.coreOf k)) (s.rill k).ctx c.faddr).setCopy k { c with held := none, fcause := 0, faddr := 0 } else (s.endCopy k c).pendTrap k 0x14

/-- The agent of the core that an event is about is given a task (R441). -/
def State.taskFor (s : State) (e : EventOf) : State :=
  match s.eventInfo e with
  | some x => if isCompute x.die then s.modCore (coreKey x.die x.core) (fun c => { c with agentTask := true }) else s
  | none => s

/-- What a resolution does. An engine that goes on walks afresh (R265). -/
def State.resolve (s : State) (e : EventOf) (act : Nat) : State :=
  let s := s.taskFor e
  match e with
  | .rill k =>
    match (s.rill k).trap with
    | none => s
    | some t => if act ≠ 0 then s.eretKill k else if t.cause = 8 ∨ t.cause = 9 then s.eretCont k else s.eretRetry k
  | .savedRill room i => s.modSaved room i (fun t => { t with act := some act })
  | .copy k id => s.resolveCopy k id act
  | .tile u id =>
    match (s.tile u).head with
    | none => s
    | some o =>
      if o.id ≠ id then s
      else if act = 0 then (s.forget (.engine (u / 2)) o.ctx o.faddr).modTile u (·.setHead { o with susp := false, event := 0 }) else s.endTile u o
  | .savedTile room i _ => s.modSavedTile room i (fun o => { o with act := some act })
  | .coll tag => s.modColl tag (fun c =>
      if act = 0 then { c with susp := false } else { c with susp := false, status := some (3, s.collRank c.block) })

/-- EVENT_RESOLVE (R423): a write with GO 1. -/
def execEventResolve (v : DWord) (s : State) : Res :=
  let n := v.toNat
  let act := bitsOf 17 16 n
  match s.traps.events.find? (fun e => e.1 == n % 65536) with
  | none => .next s
  | some (id, e) =>
    if !bitOf 31 n || decide (2 ≤ act) then .next s
    else
      let s := s.resolve e act
      .next { s with traps := { s.traps with events := s.traps.events.filter (fun x => x.1 != id) } }

end Sys2Proof.Machine
end

