-- ==== Sys2Proof/Machine/Gate.lean ====
section
/-! DEFINITION. Power gating of upper layers (R432) and debug halts (R434). -/
namespace Sys2Proof.Machine

/-- Neighbour-core cards on a die. -/
def State.dieCards (s : State) (d : Nat) : List Nat :=
  (s.cards.filter (fun p => p.2.live && !p.2.own && coreDie (s.room p.2.room).core == d)).map (·.1)

def State.dieGroups (s : State) (d : Nat) : List Nat := s.active.filter (fun g => (s.group g).die == d)

/-- Step 1 and the start of step 2 of R432. -/
def State.startGate (s : State) (t : Nat) : State :=
  let d := upperDie t
  let gs := (s.dieGroups d).filter (fun g => (s.group g).onCore)
  let s := { s with gbusy := s.gbusy.set t 1 }
  let s := gs.foldl (fun (s : State) g => (s.preemptGroup g).modGroup g (fun x => { x with gated := true })) s
  (s.dieCards d).foldl State.preemptCard s

def State.startRestore (s : State) (t : Nat) : State := { s with gbusy := s.gbusy.set t 2 }

/-- The layer does what GREQ asks, if no operation is in progress. -/
def State.followGreq (s : State) (t : Nat) : State :=
  let d := s.die (upperDie t)
  if s.gbusy.get 0 t ≠ 0 ∨ d.st ≠ .active then s
  else match s.greq.get false t, d.gated with
    | true, false => s.startGate t
    | false, true => s.startRestore t
    | _, _ => s

/-- GATE_LAYER: bit t of GREQ is written 1. -/
def execGateLayer (tower : Nat) (s : State) : Res :=
  if 4 ≤ tower then .next s else .next ({ s with greq := s.greq.set tower true }.followGreq tower)

/-- RESTORE_LAYER: it is written 0. -/
def execRestoreLayer (tower : Nat) (s : State) : Res :=
  if 4 ≤ tower then .next s else .next ({ s with greq := s.greq.set tower false }.followGreq tower)

/-- The agent of a core has finished its task: it waits in HALT, or it does not run, as on a halted die (R442). -/
def State.agentIdle (s : State) (core : Nat) : Bool :=
  let r := s.rill (agentKey core)
  let d := s.die (coreDie core)
  d.halted || d.hreq || !r.live || !r.started || r.trap.isSome || r.waits.any (fun w => w.ins == .halt)

/-- Commands of dropped rills that the engines of a die still hold. -/
def State.dieOrphans (s : State) (d : Nat) : Bool :=
  s.rills.any (fun p => decide (orphanBase ≤ p.1) && coreDie p.2.homeCore == d && !p.2.copies.isEmpty)

/-- Balances of a die's cores, their agents' reserves first (R234), return to its domain (R432, Table 10-6). -/
def State.returnBalances (s : State) (d : Nat) : State :=
  let sum := (dieCores d).foldl (fun n c => n + (s.core c).bal + (s.rill (agentKey c)).reserve) 0
  let n := 2 * dieTower d + dieLayer d
  let s := s.modDom n (fun x => { x with dbal := min x.dcap (x.dbal + sum) })
  let s := (dieCores d).foldl (fun (s : State) c => if (s.core c).bal = 0 then s else s.modCore c (fun x => { x with bal := 0 })) s
  (dieCores d).foldl (fun (s : State) c =>
    if (s.rill (agentKey c)).reserve = 0 then s else s.modRill (agentKey c) (fun r => { r with reserve := 0 })) s

/-- What the cores of a die lose with their power. -/
def State.coldCores (s : State) (d : Nat) : State :=
  { s with cores := s.cores.map (fun p => if coreDie p.1 = d then (p.1, { p.2 with l1 := [], icache := [], tlb := [], latch := [], rsv := [] }) else p) }

/-- GATE_POWER_OFF: steps 3 to 5 of R432. -/
def execGatePowerOff (tower : Nat) (s : State) : Res :=
  let d := upperDie tower
  let here := (s.dieGroups d).any (fun g => (s.group g).onCore || (s.group g).st == .saving)
  let cards := (s.dieCards d).any (fun c => (s.card c).onCore || (s.card c).st == .saving)
  if s.gbusy.get 0 tower ≠ 1 || here || cards || s.dieOrphans d || !(dieCores d).all s.agentIdle then .next s
  else
    let s := (dieCores d).foldl (fun (s : State) c =>
      if (s.rill (agentKey c)).live then s.modRill (agentKey c) (fun r => { r with started := false }) else s) s
    let s := ((s.returnBalances d).coldCores d).modDie d (fun x => { x with gated := true, rmask := 0 })
    .next ({ s with gbusy := s.gbusy.set tower 0 }.followGreq tower)

/-- RESTORE_COMPLETE: agents restart as at their load (R432), the mask is reported, GBUSY clears. -/
def execRestoreComplete (tower : Nat) (s : State) : Res :=
  let d := upperDie tower
  if s.gbusy.get 0 tower ≠ 2 then .next s
  else
    let s := (s.loadAgents d).modDie d (fun x => { x with gated := false, rmask := x.enm })
    .next (({ s with gbusy := s.gbusy.set tower 0 }.evaluateAt d).evaluateAt (otherLayer d) |>.followGreq tower)

/-! ## Debug (R434) -/

/-- DEBUG_HALT_REQUEST: ignored by a halted die. -/
def execDebugHaltRequest (die : Nat) (s : State) : Res :=
  let d := s.die die
  if isCompute die && d.st == .active && !d.halted then .next (s.setDie die { d with hreq := true }) else .next s

/-- Every issued access of the die's rills is performed, but for those that wait for a partner off its core or halted; so are
the requests to peers of its rills and engines. -/
def State.dieQuiet (s : State) (d : Nat) : Bool :=
  s.rills.all (fun p => decide (0x10000 ≤ p.1) || keyDie p.1 != d ||
    (p.2.accs.all (fun a => a.reqs.all (fun q => q.done || (q.tgt == tgtPair && !s.pairOpen p.1 a.isWrite))) && p.2.waits.all (·.held.isNone))) &&
  s.fab.reqs.all (fun r => r.rill == noRill || coreDie (s.coreOf r.rill) != d)

def execDebugHalted (die : Nat) (s : State) : Res :=
  let d := s.die die
  if d.hreq && s.dieQuiet die then .next (s.setDie die { d with hreq := false, halted := true }) else .next s

/-- DEBUG_RUN: ignored by a running die. -/
def execDebugRun (die : Nat) (s : State) : Res :=
  let d := s.die die
  if d.halted then .next (s.setDie die { d with halted := false }) else .next s

end Sys2Proof.Machine
end

