-- ==== Sys2Proof/Machine/Spawn.lean ====
section
/-! DEFINITION. SPAWN (R26 to R30, R167, R168). -/
namespace Sys2Proof.Machine

/-- The target word is malformed, or its core is not there (R167). -/
def State.badTarget (s : State) (k w : Nat) : Bool :=
  let own := bitOf 31 w
  let c := w % 32
  let d := keyDie k
  bitsOf 30 5 w != 0 || (own && c != 0) || (!own && (decide (23 < c) || !bitOf c (s.enmOf d) || (s.die d).gated))

/-- A card that breaks a limit of Table 1-7 or R29; `tuse` is the tile units of an own-core card's room. -/
def badCard (r : LaunchRec) (tuse : Nat) (own : Bool) (b : List Nat) : Bool :=
  let w := word64 b 0
  let n := bitsOf 13 8 w + 1
  let roles := word64 b 1 + word64 b 2 * 2 ^ 64
  let lsize := bitsOf 24 16 w
  let units := bitsOf 15 14 w
  bitsOf 63 36 w != 0 || bitsOf 31 25 w != 0 || bitsOf 7 6 w != 0 || decide (8 < bitsOf 35 32 w) ||
  decide (r.nuni < bitsOf 35 32 w) || decide (256 < lsize) || units == 3 || (own && (lsize != 0 || units != 0)) ||
  decide (r.nent ≤ bitsOf 5 0 w) || roles / 4 ^ n != 0 ||
  ((List.range n).any (fun i => roleHasTile (roles / 4 ^ i % 4)) && (if own then tuse else units) == 0) ||
  decide (2 ^ 57 ≤ word64 b 7) || word64 b 7 % 4 != 0

/-- The values of the wait: the target's core, whether it is the own queue, and the card. -/
def spawnReady (s : State) (_k : Nat) (w : Wait) : Bool := decide ((s.core (w.vals.getD 0 0)).jobs.length < 64)

/-- The card is posted (R27, R168); the regions of the acting lanes end. -/
def spawnDone (s : State) (k : Nat) (w : Wait) : State :=
  let r := s.rill k
  let c := w.vals.getD 0 0
  let j : Job := { card := w.vals.drop 3, va := w.vals.getD 2 0, group := r.group, launch := r.launch, room := r.room, own := w.vals.getD 1 0 == 1 }
  let g := match w.ins with
    | .spawn _ _ _ g => g.toNat
    | _ => 0
  let act := w.lanes.filter (fun l => !(r.thread l).exited && (r.thread l).guard g)
  let s := ((s.modCore c (fun x => { x with jobs := x.jobs ++ [j] })).evaluateAt (coreDie c)).release k w
  s.mapThreads k act (fun _ t => { t with region := w.pc + 4 })

def execSpawn (a b : BitVec 7) (r : BitVec 1) (g : BitVec 2) (s : State) : Res :=
  let k := s.cur.rill
  let addr := (s.usrcPair a.toNat).toNat
  let tw := (s.usrc b.toNat 0).toNat
  let own := bitOf 31 tw
  if (s.acting g.toNat).isEmpty then .next s.advance
  else if 2 ^ 57 ≤ addr ∨ addr % 64 ≠ 0 ∨ s.badTarget k tw then .next (s.trap 0x0A)
  else match s.capture addr 1 with
    | .error s => .next s
    | .ok (card, s) =>
      let l := (s.launch s.curRill.launch).lr
      if badCard l (s.room s.curRill.room).units.length own card then .next (s.trap 0x0A)
      else
        let c := if own then keyCore k else coreKey (keyDie k) (tw % 32)
        .next (s.holdOr (s.mkWait (.spawn a b r g) (c :: own.toNat :: addr :: card)) spawnReady spawnDone)

end Sys2Proof.Machine
end

