-- ==== Sys2Proof/Machine/Issue.lean ====
section
/-! DEFINITION. The picker (R151 to R153), the issue of an instruction (R138, R145, R221), and energy: the charging
order of one clock (R217 to R219, R229 to R232), epochs (R227) and the price banks (R225). -/
namespace Sys2Proof.Machine

/-! ## Ready threads and the picker (R152, R153) -/

/-- The word at a place: of the core's instruction cache, or of the slice, which fills it; a command processor has none. While
the slice lacks the line it asks for it (R263, R267, R281). -/
def State.fetchAt (s : State) (k pa : Nat) : Except Nat Word × State :=
  let c := keyCore k
  let line := pa / 128
  let h := sliceTower k line
  match (if isCp k then none else (s.core c).icache.find line) with
  | some x => (if (x.psn &&& halfBits pa 4) != 0 then .error poisonCode else .ok (BitVec.ofNat 32 (ofBytes ((x.bytes.drop (pa % 128)).take 4))), s)
  | none =>
    if !isCp k && !s.reaches c then (.error waitCode, s)
    else if s.canRead line h then
      (if s.poisoned h 0 pa 4 then .error poisonCode else .ok (BitVec.ofNat 32 (memNat s.dram pa 4)),
       (if isCp k then s else s.icacheFill c line).lineDone line h false)
    else (.error waitCode, s.wantLine line h false)

/-- A rill of a core parked by a trap with disposition End (Table 18-1). -/
def State.endTrap (s : State) (core : Nat) : Option Nat :=
  (s.rills.find? (fun p => decide (p.1 < 0x10000) && keyCore p.1 == core && p.2.live && !p.2.agent &&
    p.2.trap.any (fun t => !trapToHost t.cause))).map (·.1)

/-- The word that the shipped firmware issues next on a core. While a trap with disposition End is pending it selects that rill
and kills it (R419), through its register k0 (log entry 9); what else it does is not given. -/
def State.firmwareWord (s : State) (k : Nat) : Word :=
  let r := s.rill k
  match s.endTrap (keyCore k) with
  | none => Config.firmware (keyCore k) r.issues
  | some t =>
    let sel : Word := BitVec.ofNat 32 (t % 128)
    let i : Instr := if (s.core (keyCore k)).tsel = sel then .eretKill else if r.kreg 0 = sel then .mts 0 0x800 0 else .kli 0 (sel.truncate 18)
    BitVec.ofNat 32 ((encode i).getD 0)

/-- The word at a PC: of the firmware image for an agent, else from memory; or a fault cause, or `waitCode`. -/
def State.fetchWord (s : State) (k : Nat) (pc : DWord) : Except Nat Word × State :=
  let r := s.rill k
  if r.agent then (.ok ((s.fw.find (pc.toNat / 4)).getD (s.firmwareWord k)), s)
  else match s.translate (viaOf k) r.ctx pc.toNat .fetch false with
    | (.error c, s) => (.error c, s)
    | (.ok p, s) => s.fetchAt k p.pa

/-- Instructions that read a register in lanes outside their cohort. -/
def readsOtherLanes : Instr → Bool
  | .vtok .. | .vfsend .. => true
  | _ => false

/-- Lanes that no wait and no pair-pool access holds. -/
def State.openLanes (s : State) (k : Nat) : List Nat :=
  let r := s.rill k
  r.liveLanes.filter (fun l => !r.waits.any (fun w => w.lanes.contains l) && !s.pairHeld k l)

/-- PCs of those lanes. -/
def State.openPcs (s : State) (k : Nat) : List DWord := ((s.openLanes k).map (fun l => ((s.rill k).thread l).pc)).eraseDups

/-- A thread of the rill at a PC is ready (R152): no register or guard that its instruction names is still to be written. A
word that takes a trap, or that is not to hand yet, names none. -/
def State.readyAt (s : State) (k : Nat) (pc : DWord) : Nat → Bool :=
  let r := s.rill k
  match (s.fetchWord k pc).1 with
  | .error _ => fun _ => true
  | .ok w =>
    match (decode w.toNat).filter (Instr.wf r.agent) with
    | none => fun _ => true
    | some i => r.settledIn (r.names i) (readsOtherLanes i)

/-- The ready threads of a rill (R152). -/
def State.readyLanes (s : State) (k : Nat) : List Nat :=
  let r := s.rill k
  let at_ := (s.openPcs k).map (fun pc => (pc, s.readyAt k pc))
  (s.openLanes k).filter (fun l =>
    match at_.find? (fun p => p.1 == (r.thread l).pc) with
    | none => false
    | some p => p.2 l)

/-- The yield mark, which 16 issues clear (R162). -/
def Rill.marked (r : Rill) (l : Nat) : Bool :=
  match (r.thread l).yieldAt with
  | none => false
  | some n => decide (r.issues < n + 16)

def lowestPc (pcs : List DWord) : Option DWord :=
  match pcs with
  | [] => none
  | p :: t => some (t.foldl (fun a b => if b.ult a then b else a) p)

/-- The PC the picker chooses among the ready threads (R153). -/
def Rill.pickPc (r : Rill) (ready : List Nat) : Option DWord :=
  let pcOf := fun l => (r.thread l).pc
  let full := ready.filter (fun l => decide ((r.thread l).passed = 256))
  let fresh := ready.filter (fun l => !r.marked l)
  if !full.isEmpty then lowestPc (full.map pcOf)
  else if !fresh.isEmpty then lowestPc (fresh.map pcOf)
  else lowestPc (ready.map pcOf)

/-- The rill's candidate: PC, cohort, and every ready thread. -/
def State.pick (s : State) (k : Nat) : Option (DWord × List Nat × List Nat) :=
  if !s.runs k then none
  else
    let r := s.rill k
    let ready := s.readyLanes k
    (r.pickPc ready).map (fun pc => (pc, ready.filter (fun l => (r.thread l).pc == pc), ready))

/-! ## Issue checks (Table 6-6) -/

/-- A privileged instruction (R144). -/
def isPrivileged : Instr → Bool
  | .eretRetry | .eretCont | .eretKill | .cctlClean _ | .cctlEvict _ | .tlbinvAll | .tlbinvCtx _ | .tlbinvPage _ | .halt => true
  | .mfs _ i _ => decide (0x800 ≤ i.toNat)
  | .mts _ i _ => decide (0x800 ≤ i.toNat)
  | _ => false

/-- The bit of the role code that an instruction needs (Table 1-6). -/
def roleBit : Instr → Option Nat
  | .acopy .. | .rcopy .. | .coll .. | .rop .. => some 0
  | .tmma .. | .tzero .. | .tlda .. | .tsta .. | .tcvt .. | .twait .. | .tprog .. => some 1
  | _ => none

/-- The subset a prologue may use (R82). -/
def inPrologue : Instr → Bool
  | .kadd .. | .ksub .. | .kmul24 .. | .kmul32 .. | .kand .. | .kor .. | .kxor .. | .kshl .. | .kshr .. | .ksar ..
  | .kmin .. | .kmax .. | .ksel .. | .kcmp .. | .kli .. | .klih .. | .kbra .. | .ldk .. | .stk .. | .fence .. | .nop => true
  | .exit g => g == 0
  | _ => false

/-- The instruction of a word that passes the checks of R145 in rill `k`, or its trap. -/
def State.checked (s : State) (k : Nat) (w : Word) : Except Nat Instr :=
  let r := s.rill k
  match decode w.toNat with
  | none => .error 0x01
  | some i =>
    if !i.wf r.agent then .error 0x01
    else if isCp k then (if inPrologue i && r.inBounds i then .ok i else .error 0x01)
    else if isPrivileged i && !r.agent then .error 0x02
    else if (match roleBit i with
      | some b => !r.role.getLsbD b
      | none => false) then .error 0x03
    else if !r.inBounds i then .error 0x04
    else .ok i

/-! ## The issue -/

/-- The transfer of an EQRES into the reserve (R234). -/
def State.transfer (s : State) (k : Nat) : Instr → Nat
  | .eqres _ a => s.eqresWant k ((s.rill k).kreg ((s.rill k).kname a.toNat)).toNat - (s.rill k).reserve
  | _ => 0

/-- The whole price of an issue exceeds the bucket's capacity (R221). -/
def State.tooDear (s : State) (k : Nat) (i : Instr) (w : Word) (cohort : List Nat) : Bool :=
  !isCp k && decide (s.coreCcap (keyCore k) < s.issuePrice k i w cohort + s.transfer k i)

/-- Passed counts and yield marks after the issue (R153), and the rill's count of issues. -/
def State.noteIssue (s : State) (k : Nat) (cohort ready : List Nat) : State :=
  let s := s.modRill k (fun r =>
    let r := { r with issues := r.issues + 1 }
    let r := r.mapThreads cohort (fun _ t => { t with passed := 0, yieldAt := none })
    r.mapThreads (ready.filter (fun l => !cohort.contains l)) (fun _ t => { t with passed := min 256 (t.passed + 1) }))
  if isCp k then s.modCp (k - 0x10000) (fun c => { c with count := c.count + 1 }) else s

/-- The reuse latch of the datapath after the issue's reads (R138, R139). That of a pair or quad holds the number of its lower
register. DESIGN CHOICE: log entry 99. -/
def State.noteReuse (s : State) (k : Nat) (i : Instr) (w : Word) : State :=
  let c := keyCore k
  let at_ := 5 * keyPart k + datapath w
  let r := s.rill k
  let old := (s.core c).latch.get none at_
  let mine := old.filter (fun h => h.rill == k)
  let new : Option Latch := match reuseField i with
    | none => mine
    | some (u, ru) =>
      let reg := r.useReg u 0
      let names := !u.vec || decide (u.f < 96)
      if mine.any (fun h => h.reg == reg) then (if ru then mine else none)
      else if ru && names then some ⟨k, reg⟩
      else mine
  if new = old then s else s.modCore c (fun x => { x with latch := x.latch.set at_ new })

/-- A trap kept for the rill's next issue is taken by its candidate (R299, R302, R353, R404, R427); a pending
abandonment ends a prologue. -/
def State.takePend (s : State) (k cause : Nat) : State :=
  if isCp k then s.freeCp (k - 0x10000)
  else (s.modRill k (fun r => { r with pend := none })).trapWith cause (if cause = 0x11 then 5 else 0) 0 0 s.cur.pc

/-! ## What an issue needs to hand -/

/-- The translations of an access's lanes wait for a walk: the state in which it is under way. -/
def State.lanesWait (s : State) (acc : Acc) (size : Nat) (addrs : List (Nat × Nat)) : Option State :=
  if (misaligned size addrs).isSome then none
  else match s.translateLanes acc addrs with
    | (.error (_, _, c), t) => if c = waitCode then some t else none
    | (.ok _, _) => none

/-- The bytes of a block are not to hand: the state in which they are asked for. -/
def State.blockWait (s : State) (addr len : Nat) : Option State :=
  if addr % 64 ≠ 0 then none
  else match s.vread (viaOf s.cur.rill) s.cur.rill s.curRill.ctx addr (64 * len) s.curRill.agent with
    | (.error (c, _), t) => if c = waitCode then some t else none
    | (.ok _, _) => none

/-- A remote operation's block or its translations are not to hand. -/
def State.ropWait (s : State) (addr : Nat) : Option State :=
  match s.blockWait addr 2 with
  | some t => some t
  | none =>
    match s.capture addr 2 with
    | .error _ => none
    | .ok (b, t) =>
      if ropBad b then none
      else match t.ropPlaces b with
        | (.error (c, _), t) => if c = waitCode then some t else none
        | (.ok _, _) => none

/-- What the issue in hand has still to wait for before it can take effect: a walk for an address of its lanes, or the bytes
of a block or card (R33, R263, R264). The state is that in which they are on their way; `none` where all is to hand. -/
def State.memWait (s : State) (i : Instr) : Option State :=
  let at_ := fun (acc : Acc) (size : Nat) (a : BitVec 7) (off : Int) (g : BitVec 2) =>
    s.lanesWait acc size ((s.acting g.toNat).map (fun l => (l, s.gaddr a off l)))
  let uni := fun (acc : Acc) (a : BitVec 7) (f : BitVec 4) (z : BitVec 1) =>
    s.lanesWait acc (4 * (1 + z.toNat)) [(0, s.kaddr a (scaled f (4 * (1 + z.toNat))))]
  let quiet := fun (a : BitVec 7) (g : BitVec 2) => match s.quietPlaces a.toNat g.toNat with
    | (none, t) => some t
    | (some _, _) => none
  let block := fun (a : BitVec 7) (g : BitVec 2) (len : Nat) => (s.blockAddr a g).bind (s.blockWait · len)
  match i with
  | .ld8 _ a _ f _ g => at_ .read 1 a (scaled f 1) g
  | .ld16 _ a _ f _ g => at_ .read 2 a (scaled f 2) g
  | .ld32 _ a _ f _ g => at_ .read 4 a (scaled f 4) g
  | .ld64 _ a _ f _ g => at_ .read 8 a (scaled f 8) g
  | .ld128 _ a _ f _ g => at_ .read 16 a (scaled f 16) g
  | .st8 _ a _ f _ g => at_ .write 1 a (scaled f 1) g
  | .st16 _ a _ f _ g => at_ .write 2 a (scaled f 2) g
  | .st32 _ a _ f _ g => at_ .write 4 a (scaled f 4) g
  | .st64 _ a _ f _ g => at_ .write 8 a (scaled f 8) g
  | .st128 _ a _ f _ g => at_ .write 16 a (scaled f 16) g
  | .ldk _ a _ f _ z => uni .read a f z
  | .stk _ a _ f _ z => uni .write a f z
  | .atom32 _ a _ _ _ g => at_ .atomic 4 a 0 g
  | .atom64 _ a _ _ _ g => at_ .atomic 8 a 0 g
  | .red32 _ a _ _ _ g => at_ .atomic 4 a 0 g
  | .red64 _ a _ _ _ g => at_ .atomic 8 a 0 g
  | .prefSc _ a _ g => at_ .read 1 a 0 g
  | .pref a _ g => quiet a g
  | .invl1 a _ g => quiet a g
  | .tmma a _ m g => if (s.unitOf s.cur.rill m).isSome then block a g 1 else none
  | .rcopy a _ g => block a g 1
  | .coll a _ g => block a g 3
  | .rop a _ g => (s.blockAddr a g).bind s.ropWait
  | .spawn a b _ g =>
    let addr := (s.usrcPair a.toNat).toNat
    if (s.acting g.toNat).isEmpty || decide (2 ^ 57 ≤ addr) || s.badTarget s.cur.rill (s.usrc b.toNat 0).toNat then none else s.blockWait addr 1
  | _ => none

/-! ## Issues that are held before they take effect -/

/-- Which outstanding counter an instruction raises when it issues (Table 7-2); that of a copy by its tag. -/
inductive Counter where
  | ld | st | tile | copy (tag : Nat)
  deriving DecidableEq, Repr

def counterOf : Instr → Option Counter
  | .ldk .. | .ld8 .. | .ld16 .. | .ld32 .. | .ld64 .. | .ld128 .. | .ldl .. | .atom32 .. | .atom64 .. | .prefSc .. => some .ld
  | .stk .. | .st8 .. | .st16 .. | .st32 .. | .st64 .. | .st128 .. | .stl .. | .red32 .. | .red64 .. => some .st
  | .tmma .. | .tzero .. | .tlda .. | .tsta .. | .tcvt .. => some .tile
  | .acopy h _ _ _ _ l _ => some (.copy (2 * h.toNat + l.toNat))
  | _ => none

/-- A held issue counts among what is outstanding. -/
def Rill.tally (r : Rill) (i : Instr) (f : Nat → Nat) : Rill :=
  match counterOf i with
  | some .ld => { r with nld := f r.nld }
  | some .st => { r with nst := f r.nst }
  | some .tile => { r with ntl := f r.ntl }
  | some (.copy _) | none => r

/-- The tile unit whose queue an instruction needs an entry of (R340). -/
def State.unitFor (s : State) (k : Nat) (i : Instr) : Option Nat :=
  match i with
  | .tmma _ _ m _ => s.unitOf k m
  | .tzero _ m _ => s.unitOf k m
  | .tlda _ _ _ _ m _ => s.unitOf k m
  | .tsta _ _ _ _ m _ => s.unitOf k m
  | .tcvt _ _ _ _ m _ => s.unitOf k m
  | _ => none

/-- Numbers of the held issues that are to enter the queue of a tile unit. -/
def State.heldFor (s : State) (u : Nat) : List Nat :=
  (s.rills.map (fun p => (p.2.waits.filter (fun w => s.unitFor p.1 w.ins == some u)).filterMap (fun w => w.held.map (·.no)))).flatten

/-- What the instruction at place `seq` reads or writes when it takes effect is in order: every earlier acquire has been
performed and no earlier FENCE is pending (R283, R305, R320); a captured block sees the rill's earlier stores, a card local
ones as well (R27, R33), and a barrier object its earlier local accesses (R290). -/
def Rill.mayCapture (r : Rill) (seq : Nat) (i : Instr) : Bool :=
  let earlier := r.accs.filter (fun a => decide (a.seq < seq))
  let ordered := earlier.all (fun a => !a.acq || a.performed) && !r.fencedBefore seq && !r.heldBefore seq
  let stores := fun (loc : Bool) => earlier.all (fun a => !a.isWrite || a.reqs.all (fun q => q.done || (q.isLocal && !loc)))
  match i with
  | .tmma .. | .rcopy .. | .coll .. | .rop .. => ordered && stores false
  | .spawn .. => ordered && stores true
  | .barInit .. | .arrive .. | .arriveD .. | .bwait .. => ordered && earlier.all (fun a => a.reqs.all (fun q => q.done || !q.isLocal))
  | _ => true

/-- The issue in hand, at place `seq` and with number `no`, has still to wait before it can take effect: the state in which
what it waits for is under way. An issue in which no lane acts waits for nothing. -/
def State.notYet (s : State) (seq : Nat) (no : Option Nat) (i : Instr) : Option State :=
  let before := fun (n : Nat) => (no.map (fun m => decide (n < m))).getD true
  if (s.acting (guardOf i)).isEmpty then none
  else if !s.curRill.mayCapture seq i || (s.unitFor s.cur.rill i).any (fun u => (s.heldFor u).any before) then some s
  else s.memWait i

/-- The issue in hand is made, and holds its cohort until it can take effect (R33, R221, R264): what it reads is read now. -/
def State.hold (s : State) (i : Instr) : State :=
  let r := s.curRill
  let h : HeldIssue := { word := s.cur.word, k := r.k, wb := r.wb, kb := r.kb, obsm := r.obsm, no := s.fresh }
  let w : Wait := { s.mkWait i [] with held := some h }
  { s.setRill s.cur.rill { r.tally i (· + 1) with seq := r.seq + 1, waits := r.waits ++ [w] } with fresh := s.fresh + 1 }

/-- What an issue of several passes on VA, VF or SF has written may still be discarded (R198, R427). `s` is the state before
it. -/
def State.noteUndo (s : State) (i : Instr) (t : State) : State :=
  let k := s.cur.rill
  let r := s.curRill
  let occ := occupancy s.cur.word r.width
  let clk := (s.core (keyCore k)).clk
  if occ < 2 ∨ !(datapath s.cur.word ∈ [dpVA, dpVF, dpSF]) then t
  else
    let u : Undo :=
      { till := clk + occ - 1
        th := s.cur.lanes.map (fun l => (l, r.thread l))
        regs := (((r.destsOf i).filter (· < 1000)).map (fun n => s.cur.lanes.map (fun l => (n, l, s.vreg k n l)))).flatten }
    t.modRill k (fun x => { x with undo := u :: x.undo.filter (fun v => decide (clk < v.till)) })

/-! ## The issue -/

/-- What rill `k` is to issue: as granted, or, for a command processor and a placed word, what it offers now. -/
def State.chosen (s : State) (k : Nat) : Option (Grant × State) :=
  match s.granted.find k with
  | some g => if s.runs k then some (g, s) else none
  | none =>
    (s.pick k).map (fun p =>
      match s.fetchWord k p.1 with
      | (.ok w, t) => ({ pc := p.1, lanes := p.2.1, ready := p.2.2, word := w }, t)
      | (.error c, t) => ({ pc := p.1, lanes := p.2.1, ready := p.2.2, fail := some c }, t))

/-- One issue of rill `k`: what was granted, the checks, then the instruction's meaning `run`. An issue that has still to wait
for a walk, a block or the order of memory is held; a command processor comes again (log entry 115). -/
def issueWith (run : Instr → State → Res) (k : Nat) (s : State) : Res :=
  let dear := s.dear.contains k
  match s.chosen k with
  | none => .next { s with dear := s.dear.filter (· != k), granted := Tbl.del s.granted k }
  | some (g, t) =>
    let t := { t with dear := s.dear.filter (· != k), granted := Tbl.del s.granted k }
    let now := { t with cur := { rill := k, pc := g.pc, lanes := g.lanes, word := g.word } }
    let noted := now.noteIssue k g.lanes g.ready
    match (s.rill k).pend, g.fail with
    | some cause, _ => .next (noted.takePend k cause)
    | none, some c =>
      .next (if c = waitCode then t else if c = poisonCode then noted.trap 0x12 else noted.trapWith 0x11 c g.pc 0 g.pc)
    | none, none =>
      match s.checked k g.word with
      | .error cause => .next (noted.trap cause)
      | .ok i =>
        if dear then .next (noted.trap 0x0C)
        else if isCp k then
          match now.memWait i with
          | some u => .next u
          | none => run i noted
        else
          let noted := noted.noteReuse k i g.word
          match noted.notYet noted.curRill.seq none i with
          | some u => .next (u.hold i)
          | none =>
            match run i noted with
            | .next u => .next (noted.noteUndo i u)
            | x => x

/-- A command processor executes its next instruction: each after the accesses of the one before it. -/
def State.cpMayIssue (s : State) (n : Nat) : Bool :=
  let r := s.rill (cpKey n)
  decide (n < 4) && (s.cp n).busy && r.live && r.accs.isEmpty && r.waits.isEmpty && decide ((s.cp n).count < 4096)

/-! ## Candidates of a core (R217, R218) -/

/-- The counter an issue would raise leaves room (R166); an issue of a guarded instruction in which no lane acts raises none. -/
def Rill.countersOk (r : Rill) (i : Instr) (acts : Bool) : Bool :=
  !acts || match counterOf i with
    | some .ld => decide (r.nld < 63)
    | some .st => decide (r.nst < 63)
    | some .tile => decide (r.ntl < 63)
    | some (.copy tag) => decide (r.ncp.get 0 tag < 63)
    | none => true

/-- Entries of a tile queue that are taken, those of held issues among them. -/
def State.unitUsed (s : State) (u : Nat) : Nat := (s.tile u).queue.length + (s.heldFor u).length

/-- The commands of a copy context, with those of held issues. -/
def Rill.commands (r : Rill) : Nat :=
  r.copies.length + (r.waits.filter (fun w => w.held.isSome && (match w.ins with
    | .rcopy .. | .coll .. | .rop .. => true
    | _ => false))).length

/-- The tile queue or the copy context has a free entry (R218, R297, R340). -/
def State.entryFree (s : State) (k : Nat) (i : Instr) : Bool :=
  match i with
  | .acopy .. | .rcopy .. | .coll .. | .rop .. => decide ((s.rill k).commands < 16)
  | _ => (s.unitFor k i).all (fun u => decide (s.unitUsed u < 16))

/-- A candidate in a clock. `free`: it takes a trap, charged nothing (R221). -/
structure Offer where
  k : Nat
  part : Nat := 0
  slot : Nat := 0
  dp : Nat := 0
  occ : Nat := 1
  price : Nat := 0
  /-- EQRES's transfer, from the bucket alone. -/
  more : Nat := 0
  /-- The tile queue in which it needs an entry, and whether it takes one. -/
  unit : Option Nat := none
  puts : Bool := false
  free : Bool := false
  /-- It is free for its price (R221). -/
  dear : Bool := false
  eligible : Bool := true
  /-- What it would issue. -/
  issue : Grant := {}
  deriving DecidableEq, Repr, Inhabited

/-- The instruction of a candidate, the issue in hand, and whether the conditions of R218 hold; `none` where it takes a trap. -/
def State.candInstr (s : State) (k : Nat) (g : Grant) : Option (Instr × State × Bool) :=
  if (s.rill k).pend.isSome || g.fail.isSome then none
  else match s.checked k g.word with
    | .error _ => none
    | .ok i =>
      let c := s.core (keyCore k)
      let t := { s with cur := { rill := k, pc := g.pc, lanes := g.lanes, word := g.word } }
      let ok := decide (c.busy.get 0 (5 * keyPart k + datapath g.word) ≤ c.clk) &&
        (s.rill k).countersOk i (!(t.acting (guardOf i)).isEmpty) && s.entryFree k i
      some (i, t, ok)

/-- The candidate of a rill; none where it has no ready thread. One whose word is not to hand is not eligible yet. -/
def State.cand (s : State) (k : Nat) : Option Offer :=
  match s.chosen k with
  | none => none
  | some (g, _) =>
    let x : Offer := { k := k, part := keyPart k, slot := keySlot k, issue := g }
    if (s.rill k).pend.isNone && g.fail == some waitCode then some { x with eligible := false }
    else match s.candInstr k g with
      | none => some { x with free := true }
      | some (i, t, ok) =>
        let dear := ok && s.tooDear k i g.word g.lanes
        some { x with
          dp := datapath g.word, occ := occupancy g.word (s.rill k).width, price := s.issuePrice k i g.word g.lanes
          more := s.transfer k i, unit := s.unitFor k i, puts := !(t.acting (guardOf i)).isEmpty
          free := dear, dear := dear, eligible := ok }

/-- The words at the PCs of a rill's threads are fetched. -/
def State.warm (s : State) (k : Nat) : State :=
  if !s.runs k then s else (s.openPcs k).foldl (fun s pc => (s.fetchWord k pc).2) s

/-! ## Draws (R229) -/

/-- The three limits: issue, tile units, copy engine. -/
inductive Limit where
  | vlim | tlim | clim
  deriving DecidableEq, Repr

def Core.total (c : Core) : Limit → Nat
  | .vlim => c.vdraw
  | .tlim => c.tdraw
  | .clim => c.cdraw
def Core.closed (c : Core) : Limit → Bool
  | .vlim => c.vclosed
  | .tlim => c.tclosed
  | .clim => c.cclosed
def Dom.limit (d : Dom) : Limit → Nat
  | .vlim => d.vlim
  | .tlim => d.tlim
  | .clim => d.clim
/-- Marks of those that wait under a limit. -/
def Core.waiters (c : Core) : Limit → Tbl Nat
  | .vlim => c.vwait
  | .tlim => c.ewait.filter (fun p => decide (p.1 < 8))
  | .clim => c.ewait.filter (fun p => p.1 == 8)

/-- It has waited through 8 consecutive epochs. -/
def longWait (v : Nat) : Bool := decide (8 ≤ v / 2)

/-- The draw may go ahead under its limit. `among`: those that could draw in this clock. -/
def State.limitOk (s : State) (core : Nat) (l : Limit) (who price : Nat) (among : List Nat) : Bool :=
  let c := s.core core
  let lim := (s.dom (coreDom core)).limit l
  let first := c.total l == 0
  let long := fun n => longWait ((c.waiters l).get 0 n)
  if lim = 0xFFFF then true
  else if c.closed l then false
  else if first && long who then true
  else if first && among.any long then false
  else if lim < price then first
  else decide (c.total l + price ≤ lim)

/-- It waits under its limit in this epoch. -/
def State.waitLimit (s : State) (core : Nat) (l : Limit) (who : Nat) : State :=
  let mark := fun (t : Tbl Nat) => let v := t.get 0 who; t.set who (if v % 2 = 1 then v else v + 1)
  s.modCore core (fun c => if l = .vlim then { c with vwait := mark c.vwait } else { c with ewait := mark c.ewait })

/-- One clock's draws: the state, what the bucket offers, the rill that holds the reservation at the start of the clock, the
rills issued, issues by partition, and entries of tile queues taken. -/
structure Draw where
  s : State
  avail : Nat
  holder : Option Nat := none
  issued : List Nat := []
  count : Tbl Nat := []
  taken : Tbl Nat := []

/-- The rill may spend a price, `more` of it from the bucket alone (R229, R234). -/
def Draw.affords (d : Draw) (k price more : Nat) : Bool := decide ((price - (d.s.rill k).reserve) + more ≤ d.avail)

/-- pay(x) of R229, with the totals of the limit, the domain and the Weir. -/
def Draw.pay (d : Draw) (core : Nat) (l : Limit) (who k price more : Nat) : Draw :=
  let r := (d.s.rill k).reserve
  let fromB := (price - r) + more
  let sum := price + more
  let lim := (d.s.dom (coreDom core)).limit l
  let closes := decide (lim < sum) && lim != 0xFFFF
  let s := d.s.modRill k (fun x => { x with reserve := r - min r price, drawn := x.drawn + sum })
  let s := s.modCore core (fun c =>
    let c := { c with bal := c.bal - fromB }
    match l with
    | .vlim => { c with vdraw := c.vdraw + sum, vclosed := c.vclosed || closes, vwait := Tbl.del c.vwait who }
    | .tlim => { c with tdraw := c.tdraw + sum, tclosed := c.tclosed || closes, ewait := Tbl.del c.ewait who }
    | .clim => { c with cdraw := c.cdraw + sum, cclosed := c.cclosed || closes, ewait := Tbl.del c.ewait who })
  let s := s.modDom (coreDom core) (fun x => { x with drawn := satAdd 64 x.drawn sum, m := x.m + sum })
  { d with s := s, avail := d.avail - fromB }

/-- The rill leaves the reservation queue and its denial count is 0 (R230, R231). -/
def State.clearDenials (s : State) (core k : Nat) : State :=
  let s := if (s.rill k).denials = 0 then s else s.modRill k (fun r => { r with denials := 0 })
  if (s.core core).rsv.contains k then s.modCore core (fun c => { c with rsv := c.rsv.filter (· != k) }) else s

/-- The candidate issues in this clock: its datapath is taken (R217, R219). -/
def Draw.grant (d : Draw) (core : Nat) (x : Offer) : Draw :=
  let s := d.s.clearDenials core x.k
  let s := if x.free then s else s.modCore core (fun c =>
    { c with
      busy := c.busy.set (5 * x.part + x.dp) (c.clk + x.occ)
      lastSlot := c.lastSlot.set (5 * x.part + x.dp) x.slot
      agentWait := if x.k = agentKey core then 0 else c.agentWait })
  { d with
    s := { s with
      grants := s.grants ++ [x.k], granted := s.granted.set x.k x.issue, dear := if x.dear then x.k :: s.dear else s.dear }
    issued := x.k :: d.issued
    taken := match x.unit with
      | some u => if x.puts then d.taken.set u (d.taken.get 0 u + 1) else d.taken
      | none => d.taken
    count := if x.free then d.count else d.count.set x.part (d.count.get 0 x.part + 1) }

/-- A denial (R230). At 8 the rill is to join the reservation queue (R231). -/
def Draw.deny (d : Draw) (core k : Nat) : Draw :=
  let n := (d.s.rill k).denials + 1
  let s := (d.s.modRill k (fun r => { r with denials := n })).modDom (coreDom core) (fun x => { x with deny := satAdd 64 x.deny 1 })
  { d with s := if n = 8 then { s with agenda := s.agenda ++ [.reservationJoin core k] } else s }

/-- The tile queue that a candidate needs has an entry still, beside those taken in this clock (R337, R340). -/
def Draw.roomFor (d : Draw) (x : Offer) : Bool :=
  x.unit.all (fun u => decide (d.s.unitUsed u + d.taken.get 0 u < 16))

/-- The draw of the rill that holds the reservation (R229, R231): before that of one that has waited under VLIM. DEDUCED: log
entry 146. -/
def Draw.reserved (d : Draw) (core : Nat) (cands : List Offer) : Draw :=
  match d.holder with
  | none => d
  | some h =>
    match cands.find? (fun x => x.k == h && x.eligible && !x.free) with
    | none => { d with avail := 0 }
    | some x =>
      if !d.s.limitOk core .vlim h (x.price + x.more) [h] then { d with s := d.s.waitLimit core .vlim h, avail := 0 }
      else if d.affords h x.price x.more then
        let d := (d.pay core .vlim h h x.price x.more).grant core x
        { d with avail := (d.s.core core).bal }
      else { d with avail := 0 }

/-- Price of an engine's unit on a core, of a command of rill `k` (R228). -/
def State.unitPrice (s : State) (core k idx : Nat) : Nat := entryP ((s.core core).price (s.rill k).pclass idx)

/-- One engine unit draws, and is performed as event `e`, or is not paid in this clock. -/
def Draw.tryUnit (d : Draw) (core : Nat) (l : Limit) (who k idx : Nat) (among : List Nat) (e : Instr) : Bool × Draw :=
  let price := d.s.unitPrice core k idx
  if !d.s.limitOk core l who price among then (false, { d with s := d.s.waitLimit core l who })
  else if d.affords k price 0 then
    let d := d.pay core l who k price 0
    let s := { d.s with agenda := d.s.agenda ++ [e] }
    (true, { d with s := if who < 8 ∧ !(s.core core).tdrawn then s.modCore core (fun c => { c with tdrawn := true, tfirst := who / 4 }) else s })
  else (false, d)

def Draw.unit (d : Draw) (core : Nat) (l : Limit) (who k idx : Nat) (among : List Nat) (e : Instr) : Draw :=
  (d.tryUnit core l who k idx among e).2

/-- The units a tile unit has waiting: k-step or accumulator unit, A line, B line. What each needs is looked at first: where a
fault of one suspends the operation, nothing is drawn for the others. -/
def Draw.tile (d : Draw) (core u : Nat) : Draw :=
  let key := 2 * core + u
  let among := (d.s.core core).ewait.map (·.1)
  if (d.s.tile key).queue.isEmpty then d
  else
    let d := { d with s := (((d.s.unitPrep key).2.linePrep key false).2.linePrep key true).2 }
    let p := d.s.unitPrep key
    let d := match p with
      | (none, s) => { d with s := s }
      | (some (o, _), s) => { d with s := s }.unit core .tlim (4 * u) o.rill o.priceEntry among (.tileKstep key)
    [false, true].foldl (fun (d : Draw) isB =>
      match d.s.linePrep key isB with
      | (none, s) => { d with s := s }
      | (some (o, _, _), s) =>
        { d with s := s }.unit core .tlim (4 * u + 1 + isB.toNat) o.rill 0x830 among (.tileOperandLine key isB)) d

/-- The commands of a core's copy engine that may have a unit waiting: an ACOPY, the oldest of its tag, or an RCOPY. -/
def State.engineWork (s : State) (core : Nat) : List (Nat × CopyCmd) :=
  (s.rills.map (fun p =>
    if isCp p.1 && decide (p.1 < orphanBase) || s.coreOf p.1 != core then []
    else (p.2.copies.filter (fun c => c.held.isNone && (c.kind == .rcopy || p.2.oldestOf c.tag == some c))).map (fun c => (p.1, c)))).flatten

/-- The unit of one command of the copy engine, where it has one to hand that can be paid. -/
def Draw.command (d : Draw) (core : Nat) (w : Nat × CopyCmd) : Bool × Draw :=
  let (k, c) := w
  if c.kind = .rcopy then
    let s := d.s.rcopyPrep k c.id
    if (s.rcopyReady k c.id).isSome then { d with s := s }.tryUnit core .clim 8 k 0x841 [] (.rcopyUnit k c.id) else (false, { d with s := s })
  else
    let p := d.s.copyPrep k c
    if p.1.isEmpty then (false, { d with s := p.2 })
    else { d with s := p.2 }.tryUnit core .clim 8 k 0x840 [] (.copyLineWrite k c.tag)

/-- The commands in turn, until one's unit is paid: at most one line moves in a clock. -/
def Draw.commands (d : Draw) (core : Nat) : List (Nat × CopyCmd) → Draw
  | [] => d
  | w :: t =>
    match d.command core w with
    | (true, d) => d
    | (false, d) => d.commands core t

/-- The copy engine's unit in this clock: the commands at work are tried from one of the engine's choice on. -/
def Draw.copy (d : Draw) (core : Nat) : Draw :=
  let work := d.s.engineWork core
  if work.isEmpty then d
  else
    let n := d.s.freeVal % work.length
    { d with s := d.s.useFree }.commands core (work.drop n ++ work.take n)

/-- TM0, TM1, copy engine; where both tile units wait under TLIM they take turns at an epoch's first draw. -/
def Draw.engines (d : Draw) (core : Nat) : Draw :=
  let c := d.s.core core
  let both := c.ewait.any (fun p => p.1 / 4 == 0) && c.ewait.any (fun p => p.1 / 4 == 1)
  let order := if both && !c.tdrawn && c.tfirst == 0 then [1, 0] else [0, 1]
  (order.foldl (fun d u => d.tile core u) d).copy core

/-- Slot priority order (R219): those of `first` come first, in its order, then from the slot after the last that
issued. -/
def slotOrder (last : Nat) (first : List Nat) (xs : List Offer) : List Offer :=
  let at_ := fun n => xs.filter (fun x => decide (x.slot = n) && !first.contains x.k)
  (first.map (fun k => xs.filter (fun x => x.k == k))).flatten ++ ((List.range 16).map (fun i => at_ ((last + 1 + i) % 16))).flatten

/-- The candidates of one datapath in turn, until one issues. -/
def Draw.path (d : Draw) (core : Nat) (among : List Nat) : List Offer → Draw
  | [] => d
  | x :: t =>
    if d.issued.contains x.k || !d.roomFor x then d.path core among t
    else if !d.s.limitOk core .vlim x.k (x.price + x.more) among then { d with s := d.s.waitLimit core .vlim x.k }.path core among t
    else if d.affords x.k x.price x.more then (d.pay core .vlim x.k x.k x.price x.more).grant core x
    else (d.deny core x.k).path core among t

/-- The candidates of one partition. -/
def Draw.partition (d : Draw) (core p : Nat) (cands : List Offer) : Draw :=
  let among := cands.map (·.k)
  [dpUS, dpLS, dpVA, dpVF, dpSF].foldl (fun (d : Draw) dp =>
    let c := d.s.core core
    let here := cands.filter (fun x => x.part == p && x.dp == dp)
    if here.isEmpty || decide (4 ≤ d.count.get 0 p) || decide (c.clk < c.busy.get 0 (5 * p + dp)) then d
    else
      let agent := if dp = dpUS && p == 0 && decide (64 ≤ c.agentWait) then [agentKey core] else []
      let first := d.holder.toList ++ agent.filter (fun a => d.holder != some a)
      d.path core among (slotOrder (c.lastSlot.get 15 (5 * p + dp)) first here)) d

/-- The firmware agent's clocks with an eligible candidate that did not issue (R219). -/
def Draw.agent (d : Draw) (core : Nat) (cands : List Offer) : Draw :=
  let a := agentKey core
  let waits := cands.any (fun x => x.k == a && x.eligible && !x.free) && !d.issued.contains a
  let n := if waits then (d.s.core core).agentWait + 1 else 0
  if n = (d.s.core core).agentWait then d else { d with s := d.s.modCore core (fun c => { c with agentWait := n }) }

/-- The core's clock counts: its die is in use and powered, its domain's clock is not stopped (R237, R248), and
neither a debug halt nor a save keeps it still (R434, R253). -/
def State.clockRuns (s : State) (core : Nat) : Bool :=
  let d := s.die (coreDie core)
  isCompute (coreDie core) && d.st == .active && !d.gated && bitOf (corePos core) d.enm && !d.hreq && !d.halted &&
    !s.save.active && !s.save.saved && !(s.dom (coreDom core)).busy

/-- One clock of a core (R229). -/
def State.drawCycle (s : State) (core : Nat) : State :=
  let c := s.core core
  let s := s.modCore core (fun c => { c with eqbal := min c.bal 65535 + (if c.rsv.isEmpty then 0 else 65536) })
  let keys := (s.rills.filter (fun p => p.2.live && decide (p.1 < 0x10000) && keyCore p.1 == core)).map (·.1)
  let s := keys.foldl State.warm s
  let all := keys.map (fun k => (k, s.cand k))
  let s := all.foldl (fun s p => if p.2.isNone then s.clearDenials core p.1 else s) s
  let cands := all.filterMap (·.2)
  let d : Draw := { s := s, avail := c.bal, holder := c.rsv.head? }
  let d := (cands.filter (·.free)).foldl (fun d x => d.grant core x) d
  let live := cands.filter (fun x => x.eligible && !x.free)
  let d := (d.reserved core cands).engines core
  let d := (List.range 8).foldl (fun d i => d.partition core ((c.clk + i) % 8) live) d
  let s := (d.agent core cands).s
  s.modCore core (fun x => { x with clk := c.clk + 1 })

/-- ISSUE_DRAW_CYCLE: clock 32 × e begins only once epoch e has had its refill. -/
def execIssueDrawCycle (core : Nat) (s : State) : Res :=
  if s.clockRuns core && decide ((s.core core).clk < 32 * (s.dom (coreDom core)).epoch) then .next (s.drawCycle core) else .next s

/-- RESERVATION_JOIN (R231). -/
def execReservationJoin (core rill : Nat) (s : State) : Res :=
  if (s.rill rill).live && keyCore rill == core && decide (8 ≤ (s.rill rill).denials) && !(s.core core).rsv.contains rill then
    .next (s.modCore core (fun c => { c with rsv := c.rsv ++ [rill] }))
  else .next s

/-! ## Epochs (R226, R227) -/

/-- The rills of a core in partition and slot order. -/
def coreSlots (core : Nat) : List Nat := (List.range 128).map (128 * core + ·)

def State.reserves (s : State) (core : Nat) : Nat := (coreSlots core).foldl (fun n k => n + (s.rill k).reserve) 0

/-- Energy goes back to the domain, up to DCAP. -/
def State.giveBack (s : State) (n eq : Nat) : State := s.modDom n (fun d => { d with dbal := min d.dcap (d.dbal + eq) })

/-- The excess over a lowered CCAP is taken, first from B and then from the reserves (R227). -/
def State.reclaim (s : State) (n core : Nat) : State :=
  let b := (s.core core).bal
  let excess := b + s.reserves core - (s.dom n).ccap
  if excess = 0 then s
  else
    let s' := s.modCore core (fun c => { c with bal := b - min b excess })
    let r := (coreSlots core).foldl (fun (acc : Nat × State) k =>
      let x := (acc.2.rill k).reserve
      let t := min acc.1 x
      if t = 0 then acc else (acc.1 - t, acc.2.modRill k (fun r => { r with reserve := x - t }))) (excess - min b excess, s')
    r.2.giveBack n excess

/-- The waits of an epoch that ends: one more for those that waited in it, none for the others. -/
def endEpochWaits (t : Tbl Nat) : Tbl Nat := (t.filter (fun p => p.2 % 2 == 1)).map (fun p => (p.1, p.2 + 1))

/-- Enabled, ungated cores of a domain. -/
def State.domCores (s : State) (n : Nat) : List Nat := (dieCores (6 + n)).filter (fun c => s.clockRuns c)

/-- The draw of each rill of a domain in the epoch that ends joins its history (R245). -/
def State.endRillEpochs (s : State) (n : Nat) : State :=
  { s with rills := s.rills.map (fun p =>
      if p.2.live && decide (p.1 < 0x10000) && coreDom (keyCore p.1) == n then
        (p.1, { p.2 with hist := p.2.drawn :: p.2.hist.take 31, drawn := 0 })
      else p) }

/-- EPOCH_REFILL: the first clock of an epoch, which every core of the domain has reached. -/
def execEpochRefill (dom : Nat) (s : State) : Res :=
  let x := s.dom dom
  let cores := s.domCores dom
  if 8 ≤ dom ∨ cores.isEmpty ∨ cores.any (fun c => decide ((s.core c).clk < 32 * x.epoch)) then .next s
  else
    let s := s.modDom dom (fun d => { d with cref := d.crefNext, ccap := d.ccapNext, epoch := d.epoch + 1 })
    let s := cores.foldl (fun s c => s.reclaim dom c) s
    let d := s.dom dom
    let q := fun c => min d.cref (d.ccap - (s.core c).bal - s.reserves c)
    let sum := cores.foldl (fun n c => n + q c) 0
    let g := fun c => if sum ≤ d.dbal then q c else d.dbal * q c / sum
    let given := cores.foldl (fun n c => n + g c) 0
    let t := cores.foldl (fun (t : State) c => t.modCore c (fun y => { y with
      bal := y.bal + g c, vdraw := 0, tdraw := 0, cdraw := 0, vclosed := false, tclosed := false, cclosed := false
      tdrawn := false, vwait := endEpochWaits y.vwait, ewait := endEpochWaits y.ewait })) s
    .next ((t.modDom dom (fun y => { y with dbal := d.dbal - given, u := y.u + (sum - given) })).endRillEpochs dom)

/-- DCAP_WRITE (R226). -/
def execDcapWrite (dom : Nat) (v : DWord) (s : State) : Res :=
  let n := v.toNat % 2 ^ 24
  .next (if 8 ≤ dom ∨ n = 0 then s else s.modDom dom (fun d => { d with dcap := n, dbal := min d.dbal n }))

/-! ## Price banks (R225) -/

/-- PRICE_COMMIT: a write of PRCTL. -/
def execPriceCommit (v : DWord) (s : State) : Res :=
  let s := { s with prbank := v.toNat % 4 }
  if bitOf 31 v.toNat && s.prwait.isEmpty then
    .next { s with
      prnew := s.prbank
      prsent := s.stage.filter (fun p => decide (p.1 / 4096 = s.prbank))
      prwait := List.range' 144 192 }
  else .next s

/-- CORE_PRICE_SWITCH. -/
def execCorePriceSwitch (core : Nat) (s : State) : Res :=
  if s.prwait.contains core then
    let s := s.modCore core (fun c => { c with prices := c.prices.filter (fun p => decide (p.1 / 4096 ≠ s.prnew)) ++ s.prsent })
    .next { s with prwait := s.prwait.filter (· != core) }
  else .next s

end Sys2Proof.Machine
end

