-- ==== Sys2Proof/Machine/Wait.lean ====
section
/-! DEFINITION. The end of a wait (R152). Cross-lane waits end in CrossLane. -/
namespace Sys2Proof.Machine

/-- The wait is over. -/
def State.waitOver (s : State) (k : Nat) (w : Wait) : Bool :=
  match w.ins with
  | .waitc .. => waitcReady s k w
  | .fence .. => fenceReady s k w
  | .spawn .. => spawnReady s k w
  | .bwait .. => bwaitReady s k w
  | .ringWait .. => ringReady s k w
  | .vfsend .. => vfsendReady s k w
  | .vfrecv .. => vfrecvReady s k w
  | .xacq => xacqReady s k w
  | .twait .. => twaitReady s k w
  | .cctlClean .. => cleanReady s k w
  | .cctlEvict .. => cctlReady s k w
  | .tlbinvAll | .tlbinvCtx .. | .tlbinvPage .. => tlbinvReady s k w
  | .halt => haltReady s k w
  | _ => false

/-- The instruction completes for the threads it held; it is not issued again. -/
def State.waitDone (s : State) (k : Nat) (w : Wait) : State :=
  match w.ins with
  | .waitc .. => waitcDone s k w
  | .fence .. => fenceDone s k w
  | .spawn .. => spawnDone s k w
  | .bwait .. => bwaitDone s k w
  | .ringWait .. => ringDone s k w
  | .vfsend .. => vfsendDone s k w
  | .vfrecv .. => vfrecvDone s k w
  | .xacq => xacqDone s k w
  | .twait .. => twaitDone s k w
  | .cctlClean .. => cleanDone s k w
  | .cctlEvict .. => cctlDone s k w
  | .tlbinvAll | .tlbinvCtx .. | .tlbinvPage .. => tlbinvDone s k w
  | .halt => haltDone s k w
  | _ => s

/-! ## Held issues -/

/-- An instruction whose issue may be held takes effect. -/
def runHeld (i : Instr) (s : State) : Res :=
  match i with
  | .ld8 d a o f r g => execLd8 d a o f r g s
  | .ld16 d a o f r g => execLd16 d a o f r g s
  | .ld32 d a o f r g => execLd32 d a o f r g s
  | .ld64 d a o f r g => execLd64 d a o f r g s
  | .ld128 d a o f r g => execLd128 d a o f r g s
  | .st8 d a o f r g => execSt8 d a o f r g s
  | .st16 d a o f r g => execSt16 d a o f r g s
  | .st32 d a o f r g => execSt32 d a o f r g s
  | .st64 d a o f r g => execSt64 d a o f r g s
  | .st128 d a o f r g => execSt128 d a o f r g s
  | .ldk d a o f r z => execLdk d a o f r z s
  | .stk d a o f r z => execStk d a o f r z s
  | .atom32 d a o z r g => execAtom32 d a o z r g s
  | .atom64 d a o z r g => execAtom64 d a o z r g s
  | .red32 d a o z r g => execRed32 d a o z r g s
  | .red64 d a o z r g => execRed64 d a o z r g s
  | .pref a r g => execPref a r g s
  | .prefSc d a r g => execPrefSc d a r g s
  | .invl1 a r g => execInvl1 a r g s
  | .tmma a b m g => execTmma a b m g s
  | .tzero a m g => execTzero a m g s
  | .tlda a b c d m g => execTlda a b c d m g s
  | .tsta a b c d m g => execTsta a b c d m g s
  | .tcvt a b c d m g => execTcvt a b c d m g s
  | .rcopy a r g => execRcopy a r g s
  | .coll a r g => execColl a r g s
  | .rop a r g => execRop a r g s
  | .spawn a b r g => execSpawn a b r g s
  | .barInit a b => execBarInit a b s
  | .arrive d a b => execArrive d a b s
  | .arriveD t a b => execArriveD t a b s
  | .bwait a b => execBwait a b s
  | _ => .next s

/-- The state in which a held issue takes effect: its rill's registers and its place are those of the issue. -/
def State.reissue (s : State) (k : Nat) (w : Wait) (h : HeldIssue) : State :=
  { s.modRill k (fun r => { r.tally w.ins (· - 1) with k := h.k, wb := h.wb, kb := h.kb, obsm := h.obsm, seq := w.seq }) with
    cur := { rill := k, pc := w.pc, lanes := w.lanes, word := h.word } }

/-- Accesses already issued go on while their rill may not issue for a debug halt that has been requested (R434). -/
def State.proceeds (s : State) (k : Nat) : Bool :=
  (s.modDie (keyDie k) (fun d => { d with hreq := false })).runs k

/-- Wait `i` of a rill is an issue that is held: it takes effect once it can (R33, R264). -/
def State.resume (s : State) (k i : Nat) (w : Wait) (h : HeldIssue) : Res :=
  if !s.proceeds k then .next s
  else
    let r := s.rill k
    let t := (s.modRill k (fun r => { r with waits := dropNth r.waits i })).reissue k w h
    match t.notYet w.seq (some h.no) w.ins with
    | some u => .next { u with rills := s.rills, cur := s.cur }
    | none =>
      match runHeld w.ins t with
      | .next u => .next (u.modRill k (fun x => { x with k := r.k, wb := r.wb, kb := r.kb, obsm := r.obsm, seq := r.seq }))
      | x => x

/-- WAIT_END: wait `i` of the rill, once it is over; a held issue then takes effect. A CCTL.EVICT asks again for what has not
come home. -/
def execWaitEnd (rill i : Nat) (s : State) : Res :=
  match (s.rill rill).waits[i]? with
  | none => .next s
  | some w =>
    match w.held with
    | some h => s.resume rill i w h
    | none =>
      if !s.runs rill then .next s
      else if s.waitOver rill w then .next ((s.modRill rill (fun r => { r with waits := dropNth r.waits i })).waitDone rill w)
      else match w.ins with
        | .cctlEvict _ => .next (s.evictLines (s.rangeLines (w.vals.getD 0 0) (w.vals.getD 1 0)))
        | _ => .next s

end Sys2Proof.Machine
end

