-- ==== Sys2Proof/Machine/Power.lean ====
section
/-! DEFINITION. Package power and heat (R238 to R252): steps, the Weir period, stages, ballast, intents, boost,
domain clocks, droop, charge and thermal states. Draws and rates are in mW. -/
namespace Sys2Proof.Machine

/-- Sets bit `i` of EVENTS; a bit that becomes 1 raises vector 65 (R238). -/
def State.powerEvent (s : State) (i : Nat) : State :=
  if s.power.events.getLsbD i then s
  else ({ s with power := { s.power with events := s.power.events ||| BitVec.ofNat 10 (2 ^ i) } }).raise 65

def State.setPower (s : State) (p : Power) : State := { s with power := p }

/-- Ramp stagger φ in ns. -/
def Power.stagger (p : Power) : Nat := 1000 * p.phase

/-- A change commanded now acts in the first period after φ (R244). -/
def State.afterStagger (s : State) : Nat := s.now 0 + s.power.stagger

/-- Host commands and the pin are acted on when the FED is ACTIVE (Table 4-6). -/
def State.orLate (s : State) (e : Instr) (f : State → State) : Res :=
  .next (if (s.die 0).st = .active then f s else s.setPower { s.power with late := s.power.late ++ [e] })

/-! ## Domain clocks (R248) -/

/-- Code 5 runs as 4 while boost is inactive. -/
def clockCode (boost : Bool) (fsel : Nat) : Nat := if fsel = 5 && !boost then 4 else fsel

/-- CUR follows FSEL and boost; a change stops the clock for a relock. While one is in progress it waits. -/
def State.retune (s : State) (n : Nat) : State :=
  let d := s.dom n
  let c := clockCode s.power.booston d.fsel
  if d.busy || d.cur == c then s else s.setDom n { d with cur := c, busy := true }

def State.retuneAll (s : State) : State := (List.range 8).foldl State.retune s

/-- FSEL_WRITE: codes 6 to 15 leave FSEL unchanged. -/
def execFselWrite (dom : Nat) (v : DWord) (s : State) : Res :=
  let n := v.toNat % 16
  s.orLate (.fselWrite dom v) (fun s =>
    if 8 ≤ dom ∨ 6 ≤ n then s else (s.modDom dom (fun d => { d with fsel := n })).retune dom)

/-- RELOCK_DONE: the clock runs again, or relocks once more for a change that came meanwhile (R257). -/
def execRelockDone (dom : Nat) (s : State) : Res :=
  if dom < 8 && (s.dom dom).busy then .next ((s.modDom dom (fun d => { d with busy := false })).retune dom) else .next s

/-! ## Droop (R249) -/

def State.domClock (s : State) (n : Nat) : Nat := (s.domCores n).foldl (fun m c => max m (s.core c).clk) 0

/-- DROOP_TRIP: one clock of injection while the window allows it, else the clock is halved. The detector is idle
while the clock is stopped. -/
def execDroopTrip (dom : Nat) (s : State) : Res :=
  let d := s.dom dom
  let p := s.power
  let clk := s.domClock dom
  let inj := d.inj.filter (fun t => decide (clk < t + 1024))
  if 8 ≤ dom ∨ d.busy ∨ (s.domCores dom).isEmpty then .next s
  else if inj.length < 64 then
    .next ((s.setDom dom { d with inj := clk :: inj }).setPower { p with injn := satAdd 32 p.injn 1 })
  else if d.stretched.any (fun t => decide (clk < t + 1024)) then .next s
  else .next (((s.setDom dom { d with inj := inj, stretched := some clk }).setPower { p with stretch := satAdd 32 p.stretch 1 }).powerEvent 2)

/-! ## Boost (R247) -/

/-- Boost is active under R247, and only domains that follow it relock. -/
def State.setBoost (s : State) : State :=
  let p := s.power
  let on := p.boosten && p.tb != 0 && p.tstate == 0 && decide (p.stage < 2) && !p.boostOut
  if p.booston = on then s else (s.setPower { p with booston := on }).retuneAll

/-- The thermal bucket after a period, and the end or the return of boost. -/
def State.thermalBucket (s : State) : State :=
  let p := s.power
  let tb := min (p.tbcap * 10 ^ 9) (p.tb + 2800000 - p.pdraw)
  let s := s.setPower { p with tb := tb, boostOut := p.boostOut && decide (4 * tb < p.tbcap * 10 ^ 9) }
  if p.booston && tb == 0 then
    (s.setPower { s.power with boostOut := true, stage := max 2 s.power.stage }).powerEvent 0
  else s

/-! ## Steps, caps and the stagger (R241, R244, R257) -/

/-- A power step begins: from the first period after φ it moves to the cap at SLEW. -/
def State.startStep (s : State) (pin : Bool) : State :=
  s.setPower { s.power with stepact := true, stepDue := some (s.afterStagger, s.power.pcap), stepPin := pin, inBand := 0 }

/-- PSTEP_ASSERT. -/
def execPstepAssert (s : State) : Res :=
  s.orLate .pstepAssert (fun s =>
    if s.power.pin then s
    else (s.setPower { s.power with pin := true, pinDue := s.power.pinDue ++ [(s.afterStagger, true)] }).startStep true)

/-- PSTEP_RELEASE: no step starts. -/
def execPstepRelease (s : State) : Res :=
  s.orLate .pstepRelease (fun s =>
    if !s.power.pin then s
    else s.setPower { s.power with pin := false, pinDue := s.power.pinDue ++ [(s.afterStagger, false)] })

def inRange (lo hi n : Nat) : Bool := decide (lo ≤ n) && decide (n ≤ hi)

/-- The sustained cap is written: it acts after φ under the grid ramp; one below FLOOR sets FLOOR to it (R238). -/
def State.writePcap (s : State) (n : Nat) : State :=
  let p := s.power
  if !inRange 900 2800 n || n == p.pcap then s
  else s.setPower { p with pcap := n, floor := min p.floor n, capDue := p.capDue ++ [(s.afterStagger, n)] }

/-- PCAP_WRITE: the register at 0x00 of Table 11-1. -/
def execPcapWrite (v : DWord) (s : State) : Res :=
  let w := v.toNat
  s.orLate (.pcapWrite v) (fun s =>
    let s := s.writePcap (bitsOf 35 24 w)
    let p := s.power
    s.setPower { p with
      bcap := if inRange 2800 3400 (bitsOf 47 36 w) then bitsOf 47 36 w else p.bcap
      floor := if bitsOf 23 12 w ≤ p.pcap then bitsOf 23 12 w else p.floor
      slew := if inRange 10 400 (bitsOf 8 0 w) then bitsOf 8 0 w else p.slew })

/-- POWER_STEP_GO: the register at 0x18. A write of GO sets PCAP to STEPCAP and moves the cap there. -/
def execPowerStepGo (v : DWord) (s : State) : Res :=
  let w := v.toNat
  s.orLate (.powerStepGo v) (fun s =>
    let p := s.power
    let s := s.setPower { p with
      pincap := if inRange 900 2800 (bitsOf 23 12 w) then bitsOf 23 12 w else p.pincap
      stepcap := if inRange 900 2800 (bitsOf 11 0 w) then bitsOf 11 0 w else p.stepcap }
    if bitOf 31 w then (s.writePcap s.power.stepcap).startStep false else s)

/-- A period has come after a change's φ. -/
def dueNow (now : Nat) (t : Nat) : Bool := decide (t < now)

/-- Changes whose φ has passed act: the pin's level, a step's target, and, while no step is active, a new cap and ramp. -/
def Power.actDue (p : Power) (now : Nat) : Power :=
  let pins := p.pinDue.takeWhile (fun x => dueNow now x.1)
  let pinNow := (pins.getLast?.map (·.2)).getD p.pinNow
  let released := p.pinNow && !pinNow
  let p := { p with pinNow := pinNow, pinDue := p.pinDue.drop pins.length }
  let p := if released && p.stepPin && p.stepDue.isNone then { p with stepact := false } else p
  let p := match p.stepDue with
    | some (t, cap) => if dueNow now t then { p with stepDue := none, capNow := if p.stepPin then p.capNow else cap } else p
    | none => p
  let caps := if p.stepact && p.stepDue.isNone then [] else p.capDue.takeWhile (fun x => dueNow now x.1)
  let ramps := p.grampDue.takeWhile (fun x => dueNow now x.1)
  { p with
    capNow := (caps.getLast?.map (·.2)).getD p.capNow, capDue := p.capDue.drop caps.length
    grampNow := (ramps.getLast?.map (·.2)).getD p.grampNow, grampDue := p.grampDue.drop ramps.length }

/-- The step is active: its φ has passed. A newer step command ends the older one's ramp at once. DEDUCED: log entry 149. -/
def Power.stepping (p : Power) : Bool := p.stepact && p.stepDue.isNone

def Power.cap (p : Power) : Nat := 1000 * (if p.pinNow then p.pincap else p.capNow)

/-- dup of R239, and ddn without the rule of THROTTLE. -/
def Power.ramp (p : Power) : Nat := if p.stepping then 1000 * p.slew else min (1000 * p.slew) p.grampNow
def Power.ddn (p : Power) : Nat := if p.tstate = 2 then 1000 * p.slew else p.ramp

/-- Tmax of R239. -/
def Power.target (p : Power) : Nat :=
  let t := if p.booston then 1000 * p.bcap else p.cap
  if p.tstate = 2 then min t (1000 * p.thrw) else t

/-- A period within 2% of the cap; the fifth in a row ends the step (R241). -/
def State.stepPeriod (s : State) : State :=
  let p := s.power
  if !p.stepping then s
  else
    let off := (p.pdraw - p.cap) + (p.cap - p.pdraw)
    let n := if 50 * off ≤ p.cap then p.inBand + 1 else 0
    if n < 5 then s.setPower { p with inBand := n } else (s.setPower { p with inBand := 0, stepact := false }).powerEvent 1

/-! ## Intents (R245, R246) -/

/-- The bound of a duration class in ns (R233). -/
def classBound : Nat → Option Nat
  | 1 => some 10000
  | 2 => some 100000
  | 3 => some 1000000
  | 4 => some 10000000
  | 5 => some 100000000
  | _ => none

def Intent.trough (i : Intent) : Nat := i.since + 1000 * (2 ^ i.lead - 1)
def Intent.ended (i : Intent) (now : Nat) : Bool := (classBound i.dur).any (fun b => decide (i.trough + b ≤ now))

/-- Intents whose class bound has passed end. -/
def State.endIntents (s : State) : State :=
  { s with rills := s.rills.map (fun p =>
      if p.2.intent.any (fun i => i.ended (s.now 0)) then (p.1, { p.2 with intent := none }) else p) }

/-- Live intents of a domain's rills. -/
def State.domIntents (s : State) (n : Nat) : List Intent :=
  (s.rills.filter (fun p => p.2.live && decide (p.1 < 0x10000) && coreDom (keyCore p.1) == n)).filterMap (fun p => p.2.intent)

def fallOf (is : List Intent) : Nat := is.foldl (fun n i => n + i.fall) 0

/-- By how much the pre-ramp of a domain lowers R now (R245). The sum counts class 1 too. DEDUCED: log entry 148. -/
def State.preRamp (s : State) (n : Nat) : Nat :=
  let is := s.domIntents n
  let f := fallOf is
  match is with
  | [] => 0
  | i :: t =>
    let first := t.foldl (fun (a b : Intent) => if b.trough < a.trough then b else a) i
    let lead := 1000 * ceilDiv f (max 1 s.power.ddn)
    if 10000 ≤ f ∧ 2 ≤ first.dur ∧ first.trough + s.power.stagger ≤ s.now 0 + lead then f else 0

/-- An intent message goes to each peer when the summed fall has changed by 1% of PCAP (R246). -/
def State.sendIntent (s : State) : State :=
  let f := ((List.range 8).map (fun n => fallOf (s.domIntents n))).foldl (· + ·) 0
  let p := s.power
  let diff := (f - p.lastFall) + (p.lastFall - f)
  if diff < 10 * p.pcap ∨ (s.now 0 < p.lastMsg + 10000 ∧ p.lastMsg ≠ 0) then s
  else
    let s := s.setPower { p with lastFall := f, lastMsg := s.now 0 }
    (s.fab.peers.filter (fun x => x.2.sess)).foldl (fun (s : State) x => s.queueOut x.1 4 1 []) s

/-- NPEER, FALLS and FALLL. -/
def State.sumPeers (s : State) : State :=
  let p := s.power
  let sum := fun (lo hi : Nat) => ((p.peers.filter (fun x => inRange lo hi x.cls)).foldl (fun n x => n + x.fall) 0)
  s.setPower { p with npeer := p.peers.length, falls := min 65535 (sum 1 3), falll := min 65535 (sum 4 6) }

/-- A message that comes `age` µs after it was sent has come after its class bound. -/
def PeerIntent.late (x : PeerIntent) (age : Nat) : Bool := (classBound x.cls).any (fun b => decide (1000 * x.lead + b ≤ 1000 * age))

/-- PEER_INTENT_MESSAGE: it replaces the sender's earlier one; a fall of 0, or a class that none is, leaves none. One
that has come after its class bound is discarded. -/
def execPeerIntentMessage (dev cls fall lead : Nat) (s : State) : Res :=
  let x : PeerIntent := { dev := dev, cls := cls, fall := fall % 65536, lead := lead, since := s.now 0 }
  if 64 ≤ dev ∨ dev = s.fab.devno ∨ !(s.peer dev).sess then .next s
  else if x.late s.freeVal then .next s.useFree
  else
    let s := s.useFree
    let others := s.power.peers.filter (fun y => y.dev != dev)
    .next (s.setPower { s.power with peers := if x.fall = 0 || !inRange 1 6 cls then others else others ++ [x] }).sumPeers

/-- PEER_INTENT_LAPSE: its class bound has passed. -/
def execPeerIntentLapse (dev : Nat) (s : State) : Res :=
  let ended := fun (x : PeerIntent) => x.dev == dev &&
    (classBound x.cls).any (fun b => decide (x.since + 1000 * x.lead + b ≤ s.now 0))
  .next (s.setPower { s.power with peers := s.power.peers.filter (fun x => !ended x) }).sumPeers

/-! ## The throttle order (R242) -/

/-- Between a stage's limit and no limit: at its limit below the highest stage, a value of the device's choice at
it, none above. -/
def stageValue (stage i limit free none_ : Nat) : Nat :=
  if stage < i then none_ else if i < stage then limit else limit + free % (none_ - limit + 1)

/-- Stages 3 to 7 act on the registers of Table 10-4, on Confluence and on the paths. -/
def State.applyStages (s : State) : State :=
  let g := s.power.stage
  let f := s.freeVal
  let s := if g = 0 then s else s.useFree
  let s := (List.range 8).foldl (fun (s : State) n => s.modDom n (fun d => { d with
    clim := stageValue g 3 16 f 0xFFFF, tlim := stageValue g 5 96 f 0xFFFF, vlim := stageValue g 6 64 f 0xFFFF })) s
  s.setPower { s.power with confRate := stageValue g 4 1 f 16, pathsIdle := decide (7 ≤ g) }

/-- The stages of a period: `demand` is the draw the work would make. A stage engages when those before it are
at their limits; one is released after 10 periods below 97% of Tmax. -/
def State.moveStages (s : State) (tmax demand : Nat) : State :=
  let p := s.power
  let calm := if 100 * p.pdraw < 97 * tmax then p.calm + 1 else 0
  let s :=
    if tmax < demand ∧ (calm = 0 ∨ p.stage = 0) then
      let lo := max 1 p.stage
      (s.setPower { p with stage := lo + s.freeVal % (8 - lo), calm := calm }).useFree
    else if 10 ≤ calm then s.setPower { p with stage := p.stage - 1, calm := 0 }
    else s.setPower { p with calm := calm }
  s.applyStages

/-! ## Ballast (R243) -/

/-- Pages that ballast may prefetch for a domain: core, context, base and length. -/
def State.ballastPages (s : State) (n : Nat) : List (Nat × Nat × Nat × Nat) :=
  let named := (s.rills.filterMap (fun p => p.2.intent.bind (fun i =>
    if i.plen = 0 then none else some (s.coreOf p.1, p.2.ctx, i.addr, 4096 * i.plen)))) ++
    (s.cores.map (fun p => p.2.jobs.map (fun j => (p.1, (s.launch j.launch).ctx, j.va, 4096)))).flatten
  named.filter (fun x => coreDom x.1 == n)

/-- One line is prefetched into its tower's slice with one token; a page that does not translate is skipped. -/
def State.ballastRead (s : State) (n : Nat) : State :=
  let ps := s.ballastPages n
  match ps[s.freeVal % ps.length]? with
  | none => s
  | some (c, ctx, base, len) =>
    let s := s.useFree
    let va := base + s.freeVal % len
    let s := s.useFree
    match s.translate (.engine c) ctx va .read false with
    | (.error _, s) => s
    | (.ok p, s) => if p.tgt = 0 then s.wantLine (p.pa / 128) (coreTower c) false else s

/-- A tile unit of the domain that no group holds. -/
def State.idleUnit (s : State) (n : Nat) : Bool :=
  (s.domCores n).any (fun c => [0, 1].any (fun u => !s.rooms.any (fun p => p.2.live && p.2.core == c && p.2.units.contains u)))

/-- Self-test vectors go through such a unit: what they give goes to the self-test register. -/
def State.selfTest (s : State) (n : Nat) : State :=
  if s.idleUnit n then (s.setPower { s.power with selftest := s.freeVal }).useFree else s

/-- The ballast of the period that begins: where the work would leave the draw below F, a number of kinds, in their
order, in each domain whose draw has fallen. The scrub, the last kind, corrects what the scrubber corrects at all times. -/
def State.ballastPeriod (s : State) (demand : Nat) (full : Bool) : State :=
  let on := decide (s.power.stage = 0) && decide (demand < s.power.floorK)
  let kinds := if full then 3 else 1 + s.freeVal % 2
  (List.range 8).foldl (fun (s : State) n =>
    let k := if on && (s.dom n).fell then kinds else 0
    let s := s.modDom n (fun d => { d with ballast := k })
    let s := if 1 ≤ k then s.ballastRead n else s
    if 2 ≤ k then s.selfTest n else s) s.useFree

/-- Kinds of ballast that ran in the domains with ballast, the fewest; 0 where none ran. -/
def State.ballastKinds (s : State) : Nat :=
  let ks := ((List.range 8).map (fun n => (s.dom n).ballast)).filter (· != 0)
  if ks.isEmpty then 0 else ks.foldl min 3

/-! ## The Weir period (R239, R240) -/

/-- Ballast was short in the period that ends (R243). -/
def State.ballastShort (s : State) (measured : Nat) : Bool := s.ballastKinds == 3 && decide (measured < s.power.floorK)

/-- PDRAW of the period that ends: the measured draw, within the bounds of R240 and, where ballast runs and is not short,
not below F. In a power step it stays within 2% of the cap once it is, and until then falls by ddn (R241). -/
def Power.nextDraw (p : Power) (ballast : Bool) (measured : Nat) : Nat :=
  let hi := p.pdraw + p.dupK + 20000
  let lo := p.pdraw - (p.ddnK + 20000)
  let lo := if ballast then max lo p.floorK else lo
  let top := p.cap + p.cap / 50
  let hi := if p.stepping then min hi (max top (p.pdraw - p.ddnK)) else hi
  let lo := if p.stepping && decide (top < p.pdraw) then max lo (p.cap - p.cap / 50) else lo
  min hi (max lo measured)

/-- The domain buckets are filled (R239). -/
def State.fillDomains (s : State) (rate drawn : Nat) : State :=
  let ds := (List.range 8).map s.dom
  let m := ds.foldl (fun n d => n + d.m) 0
  let e := 125 * rate + 2 * m - 125 * drawn
  let w := ds.foldl (fun n d => n + d.m + d.u + 1) 0
  (List.range 8).foldl (fun (s : State) n => s.modDom n (fun d =>
    let x := e * (d.m + d.u + 1) / (2 * w)
    { d with
      dbal := min d.dcap (d.dbal + x), fill := x, fillDue := s.now (6 + n) + 1000, m := 0, u := 0, lastM := d.m
      fell := decide (d.m < d.lastM) })) s

/-- While the FED is reset, each domain goes on at the rate last set, by the local time of its own die. -/
def State.fillOn (s : State) : State :=
  (List.range 8).foldl (fun (s : State) n => s.modDom n (fun d =>
    if s.now (6 + n) < d.fillDue then d else { d with dbal := min d.dcap (d.dbal + d.fill), fillDue := d.fillDue + 1000 })) s

/-- The period that ends: its mean draw, what follows for the bucket, boost and a step, and a shortage of ballast. -/
def State.endPeriod (s : State) (measured : Nat) : State :=
  let p := s.power
  let short := s.ballastShort measured
  let draw := if short || s.save.active || p.tstate == 3 then measured else p.nextDraw (s.ballastKinds != 0) measured
  let s := (s.setPower { p with pdraw := draw, rateShown := p.rate }).thermalBucket.setBoost.stepPeriod
  if short then s.powerEvent 8 else s

/-- The period that begins: the changes whose φ has passed, dup, ddn, R and F, and the domain buckets. -/
def State.beginPeriod (s : State) : State :=
  let p := s.power.actDue s.power.weirDue
  let s := s.setPower { p with weirDue := p.weirDue + 1000, dupK := p.ramp, ddnK := p.ddn, floorK := max (1000 * p.floor) (p.pdraw - p.ddn) }
  let p := s.power
  let tmax := p.target - ((List.range 8).map s.preRamp).foldl (· + ·) 0
  let rate := min (p.rate + p.dupK) (max (p.rate - p.ddnK) tmax)
  (s.setPower { p with rate := rate }).fillDomains rate p.pdraw

/-- WEIR_PERIOD: the mean draw of the period that ends and the draw the work would make, in mW; and whether every kind of
ballast is to run where any does. -/
def execWeirPeriod (pdraw demand : Nat) (full : Bool) (s : State) : Res :=
  if s.save.saved ∨ s.boot.step ≤ 10 then .next s
  else if (s.die 0).st ≠ .active then .next s.fillOn
  else if s.now 0 < s.power.weirDue then .next s
  else
    let s := (s.endIntents.endPeriod pdraw).beginPeriod
    let s := ((s.moveStages s.power.target demand).setBoost).ballastPeriod demand full
    .next s.sendIntent

/-! ## Charge and heat (R250 to R252) -/

/-- CHARGE_UPDATE. -/
def execChargeUpdate (mj : Nat) (s : State) : Res :=
  if s.now 0 < s.power.chargeDue then .next s
  else
    let s := s.setPower { s.power with chg := min mj 65535, chargeDue := s.power.chargeDue + 10000 }
    .next (if mj < 160 then s.powerEvent 9 else s)

/-- The highest state whose entry condition holds at a reading in 1/8 °C. -/
def thermEntry (r : Int) : Nat := if 880 ≤ r then 3 else if 816 ≤ r then 2 else if 760 ≤ r then 1 else 0

/-- The state that R251 asks for. -/
def thermWant (st : Nat) (hyst : Nat) (r : Int) : Nat :=
  let e := thermEntry r
  if st < e then e
  else if (st = 2 ∧ r ≤ 816 - 8 * (hyst : Int)) ∨ (st = 1 ∧ r ≤ 760 - 8 * (hyst : Int)) then e
  else st

/-- A change is permitted: the state has been held for 250 µs, and fewer than two changes lie in (t − 1 ms, t]. -/
def thermMay (changes : List Nat) (now : Nat) : Bool :=
  !changes.any (fun t => decide (now < t + 250000)) && decide ((changes.filter (fun t => decide (now < t + 1000000))).length < 2)

/-- The state changes: an EVENTS bit, a black-box entry, and boost withdrawn as stage 2 does. -/
def State.thermChange (s : State) (st : Nat) : State :=
  let s := s.setPower { s.power with tstate := st, changes := s.now 0 :: s.power.changes.take 1 }
  let s := s.record { kind := 0x06, die := 0, code := st, arg0 := (BitVec.ofInt 16 s.power.tmax).toNat, arg1 := s.power.sensor }
  (if st = 1 then s.powerEvent 3 else if st = 2 then s.powerEvent 4 else s).setBoost

/-- A sample: TMAX and SENSOR, the trip at 115 °C, and the change if it is due and may be
made. -/
def State.thermSample (s : State) (reading : Int) (sensor : Nat) : State :=
  let p := s.power
  let s := s.setPower { p with
    tmax := reading, sensor := sensor % 256, thermDue := p.thermDue + 10000, thermTrip := p.thermTrip || decide (920 ≤ reading) }
  let want := thermWant p.tstate p.hyst reading
  if want = p.tstate ∨ 3 ≤ p.tstate ∨ (want ≠ 3 ∧ !thermMay p.changes (s.now 0)) then s else s.thermChange want

end Sys2Proof.Machine
end

