-- ==== Sys2Proof/Machine/Save.lean ====
section
/-! DEFINITION. The emergency save, the image it leaves, RESUME and DISCARD (R253 to R256, R442, R451 to R453). -/
namespace Sys2Proof.Machine

/-- Insertion by a key, for lists in the order of their keys. -/
def insertBy (f : Nat → Nat) (x : Nat) : List Nat → List Nat
  | [] => [x]
  | y :: t => if f x ≤ f y then x :: y :: t else y :: insertBy f x t
def sortBy (f : Nat → Nat) (l : List Nat) : List Nat := l.foldr (insertBy f) []

/-! ## The items (R253) -/

/-- Launches by queue priority level, then in launch order. -/
def State.launchOrder (s : State) : List Nat :=
  ([3, 2, 1, 0].map (fun p => s.running.filter (fun l => s.prioOf l == p && (s.launch l).st != .ending))).flatten

/-- Rooms on their cores in the order of R253: the groups of a launch by index, each with its neighbour-core
cards. -/
def State.saveRooms (s : State) : List Nat :=
  (s.launchOrder.map (fun l =>
    let gs := sortBy (fun g => (s.group g).index) ((s.groupsOf l).filter (fun g => (s.group g).st != .saved))
    (gs.map (fun g => g :: ((s.group g).cards).filter (fun c => (s.card c).live && !(s.card c).own && (s.card c).st != .saved))).flatten ++
      (s.cardsOf l).filter (fun c => !(s.card c).own && (s.card c).st != .saved && !gs.contains (s.card c).group))).flatten

/-- Bits of the completion bitmap: the black box, control state, groups by core and start partition, rill slots, and
entries of the save set. -/
def groupBit (core part : Nat) : Nat := 2 + 8 * core + part
def rillBit (k : Nat) : Nat := 2 + 8 * 192 + k
def setBit (i : Nat) : Nat := 2 + 8 * 192 + 128 * 192 + i

/-- A room's own item and those of its rills, by rill index, with their bits. -/
def State.roomItems (s : State) (room : Nat) : List (SaveItem × Nat) :=
  let keys := s.roomKeys room
  let start := if (s.group room).room = room then (s.group room).start else (s.card room).start
  (.group room, groupBit (s.room room).core start) ::
    (sortBy (fun i => (s.rill (keys.getD i 0)).rid) (List.range keys.length)).map (fun i => (.rill room i, rillBit (keys.getD i 0)))

def SaveItem.isSet : SaveItem → Bool
  | .saveSet _ => true
  | _ => false

/-! ## The save region and the image directory (R253, R256, R467)

The first 4 KiB hold the marker of 64 bytes, with its CRC-32 over the twelve bytes before it, and the bitmap (log). -/

def regionBase : Nat := 0xBFE4000000
def bitmapBase : Nat := regionBase + 64
def imageMagic : Nat := 0x53445953

/-- 64 bytes that begin with the magic, two words and the CRC-32 of these: the marker, and the directory's header. -/
def sealed (a b : Nat) : List Byte :=
  let head := toBytes 4 imageMagic ++ toBytes 4 (a % 2 ^ 32) ++ toBytes 4 (b % 2 ^ 32)
  head ++ toBytes 4 (crc32 head) ++ List.replicate 48 0

/-- Such bytes are there with their CRC. -/
def sealOk (bs : List Byte) : Bool :=
  ofBytes (bs.take 4) == imageMagic && ofBytes ((bs.drop 12).take 4) == crc32 (bs.take 12)

/-- The retention marker and its CRC are intact. -/
def markerOk (m : List Host.Cell) : Bool := sealOk (memRead m regionBase 64)

/-- Bit `n` of the completion bitmap. -/
def regionBit (m : List Host.Cell) (n : Nat) : Bool := bitOf (n % 8) (memNat m (bitmapBase + n / 8) 1)

def State.setRegionBit (s : State) (n : Nat) : State :=
  let a := bitmapBase + n / 8
  { s with dram := memWrite s.dram a (toBytes 1 (memNat s.dram a 1 ||| 2 ^ (n % 8))) }

/-- Words of the bitmap that hold a bit of an item that is complete. -/
def State.wordsSaved (s : State) (bits : List (SaveItem × Nat)) : Nat :=
  ((bits.filter (fun x => regionBit s.dram x.2)).map (fun x => x.2 / 64)).eraseDups.length

def SaveItem.kindIndex (it : SaveItem) (bit : Nat) : Nat × Nat :=
  match it with
  | .blackBox => (0, 0)
  | .control => (1, 0)
  | .group _ => (2, bit - groupBit 0 0)
  | .rill _ _ => (3, bit - rillBit 0)
  | .saveSet i => (4, i)

/-- The record of an item in the image directory: kind, index, first block, length, and the CRC of its data. -/
def PortItem.bytes (x : PortItem) (bit : Nat) : List Byte :=
  let k := x.item.kindIndex bit
  toBytes 4 k.1 ++ toBytes 4 k.2 ++ toBytes 8 x.first ++ toBytes 8 x.len ++ toBytes 4 x.crc ++ toBytes 4 0

/-- The image directory. -/
def imageDir (seq : Nat) (bits : List (SaveItem × Nat)) (xs : List PortItem) : List Byte :=
  let bit := fun (it : SaveItem) => ((bits.find? (fun b => b.1 == it)).map (·.2)).getD 0
  sealed seq xs.length ++ (xs.map (fun x => x.bytes (bit x.item))).flatten

/-- Steps at time 0 of Table 11-4: the entry is recorded, a power step ends, issue stops, and every rill is
dropped. The marker and the bitmap of an earlier save go. Power that fails during a save from SAVE lets it go on (R254). -/
def State.startSave (s : State) (thermal : Bool) : State :=
  let shut := !thermal && (s.die 0).st != .active
  if s.save.saved then s
  else
    let s := if thermal then s else s.powerEvent 5
    if s.save.active then { s with save := { s.save with pfail := s.save.pfail || !thermal, noPort := s.save.noPort || shut } }
    else
      let rooms := s.saveRooms
      let items := [(SaveItem.blackBox, 0), (.control, 1)] ++ (rooms.map s.roomItems).flatten
      let sets := (List.range s.power.ssn).map (fun i => (SaveItem.saveSet i, setBit i))
      let s := s.setPower { s.power with stepact := false, stepDue := none }
      let s := s.record { kind := 0x08, code := thermal.toNat, arg0 := s.power.chg }
      let s := rooms.foldl (fun (s : State) r =>
        let s := s.dropRoom r
        if (s.group r).room = r ∧ (s.group r).st ≠ .retired then s.modGroup r (fun g => { g with st := .saving })
        else s.modCard r (fun c => { c with st := .saving })) s
      { s with
        dram := memZero s.dram regionBase (regionBase + 4096)
        save :=
          { active := true, thermal := thermal, pfail := !thermal, noPort := shut, seq := s.save.seq + 1, items := items, sets := sets
            image := s.save.image, older := s.save.older } }

/-- POWER_FAIL: PFAIL_N has been low for 100 ns. -/
def execPowerFail (s : State) : Res := .next (if s.boot.step = 0 then s else s.startSave false)

/-- THERMAL_SAMPLE (R251): SAVE starts the emergency save. -/
def execThermalSample (reading : Int) (sensor : Nat) (s : State) : Res :=
  if (s.die 0).st ≠ .active ∨ s.now 0 < s.power.thermDue then .next s
  else
    let t := s.thermSample reading sensor
    .next (if t.power.tstate = 3 ∧ s.power.tstate ≠ 3 then t.startSave true else t)

/-! ## Items that complete (R253, R256) -/

/-- Step 4 of R427 without the acknowledgements of peers, for which a save does not wait. -/
def State.saveDrained (s : State) (k : Nat) : Bool :=
  let r := s.rill k
  r.accs.all (fun a => a.reqs.all (fun q => q.done || q.tgt == 2)) && r.arrivals.isEmpty &&
    r.copies.all (fun c => c.kind != .acopy || (c.held.isSome && !r.awaits c))

/-- Takes a room off its core; accesses that peers have not acknowledged stay with the saved rill. -/
def State.saveRoom (s : State) (room : Nat) : List Nat × List Rill × List (Nat × Xblk) × State :=
  let keys := s.roomKeys room
  let old := keys.map s.rill
  let name := fun (q : RemReq) =>
    match keys.findIdx? (· == q.rill) with
    | some i => if q.kind.isLane && (old.getD i {}).accs.any (fun a => a.seq == q.acc) then { q with rill := savedKey room i } else q
    | none => q
  let s := { s with fab := { s.fab with reqs := s.fab.reqs.map name } }
  let (keys, rills, xs, s) := s.storeRoom room
  let keep := fun (p : Rill × Rill) =>
    let accs := p.2.accs.filter (fun a => a.reqs.any (fun q => !q.done))
    { p.1 with
      accs := accs, seq := p.2.seq, nld := (accs.filter (fun a => a.kind == .atom)).length
      nst := (accs.filter (fun a => a.kind != .atom)).length }
  (keys, (rills.zip old).map keep, xs, s)

/-- A group, or a neighbour-core card, is in the save region. -/
def State.saveGroup (s : State) (room : Nat) : State :=
  if (s.group room).room = room ∧ (s.group room).st = .saving then
    let s := s.landCredits room
    let (keys, rills, xs, s) := s.saveRoom room
    s.modGroup room (fun g => { g with st := .saved, saved := rills, savedX := xs, slots := keys, liveRills := [], filled := false })
  else
    let (keys, rills, xs, s) := s.saveRoom room
    s.modCard room (fun c => { c with st := .saved, saved := rills, savedX := xs, slots := keys, liveRills := [] })

def State.roomSaved (s : State) (room : Nat) : Bool :=
  if (s.group room).room = room then (s.group room).st == .saved else (s.card room).st == .saved

/-- Base and length of an entry of the save set (R253). -/
def State.setEntry (s : State) (i : Nat) : Nat × Nat :=
  let a := s.power.ssaddr + 16 * i
  (memNat s.dram a 8 % 2 ^ 40, memNat s.dram (a + 8) 8)

/-- The save has ended, complete or not; where power is held, in SAVED (R254). -/
def State.endSave (s : State) : State :=
  let v := s.save
  let whole := decide (v.region.length = v.items.length)
  let s := s.record { kind := 0x09, code := (!whole).toNat, arg0 := s.wordsSaved (v.items ++ v.sets) }
  if v.thermal && !v.pfail then
    let s := s.powerEvent 7
    let s := s.setPower { s.power with tstate := 4 }
    let s := s.record { kind := 0x06, code := 4, arg0 := (BitVec.ofInt 16 s.power.tmax).toNat, arg1 := s.power.sensor }
    { s with save := { s.save with active := false, saved := true } }
  else s

/-- An image can reach the port. -/
def State.portOpen (s : State) : Bool := s.boot.saveport && (s.die 0).st == .active && !s.save.noPort

/-- Dirty lines are flushed with their poison, and the marker is written; without a port the save ends here. -/
def State.flushMarker (s : State) : State :=
  let flush := fun (l : LineState) =>
    let psn := ((l.hs.find? (·.own)).map (·.psn)).getD 0
    { l with hs := l.hs.zipIdx.map (fun p => { p.1 with dirty := false, psn := if p.2 = 4 then psn else p.1.psn }) }
  let s := { s with
    coh := { s.coh with lines := s.coh.lines.map (fun p => (p.1, flush p.2)) }
    dram := memWrite s.dram regionBase (sealed s.save.seq s.save.region.length)
    save := { s.save with marker := true } }
  if s.portOpen then s else s.endSave

/-- The next item of the region, or the marker. Charge that runs short after a power failure cuts off what is left once
control state is there (Table 11-5). -/
def State.saveRegion (s : State) : State :=
  let v := s.save
  let short := v.pfail && decide (s.power.chg < 160) && decide (2 ≤ v.region.length) && s.freeVal % 2 == 1
  if v.marker then s
  else match if short then none else v.items[v.region.length]? with
  | none => s.useFree.flushMarker
  | some (it, bit) =>
    let ready := match it with
      | .group room => s.roomSaved room || (s.roomKeys room).all s.saveDrained
      | _ => true
    if !ready then s
    else
      let s := match it with
        | .group room => if s.roomSaved room then s else s.saveGroup room
        | _ => s
      let s := (s.useFree).setRegionBit bit
      { s with save := { s.save with
          region := v.region ++ [it], box := if it = .blackBox then memRead s.dram boxBase 0x20000 else v.box } }

/-- Items for the port, in order. -/
def Save.portItems (v : Save) : List (SaveItem × Nat) := v.items.filter (fun x => v.region.contains x.1) ++ v.sets

/-- The next item is written at the port with its directory record, from the block after the one before. The spec gives
no bytes for items other than the black box and the save set: their length and CRC are free. -/
def State.writePort (s : State) (it : SaveItem) : State :=
  let v := s.save
  let first := match v.wrote.getLast? with
    | none => 1
    | some x => x.first + ceilDiv x.len 4096
  let (base, data, s) := match it with
    | .blackBox => (boxBase, v.box, s)
    | .saveSet i => ((s.setEntry i).1, memRead s.dram (s.setEntry i).1 (s.setEntry i).2, s)
    | _ => (0, [], s.useFree)
  let f := s.freeVal
  let known := it = .blackBox ∨ it.isSet
  let x : PortItem := { item := it, first := first, base := base, data := data
                        len := if known then data.length else f % 2 ^ 32, crc := if known then crc32 data else f / 2 ^ 32 % 2 ^ 32 }
  { s with save := { v with wrote := v.wrote ++ [x] } }

/-- A Flush makes what has been written durable: those items are complete at the port, and entries of the save set have
their bits. When it covers the last one the save ends. -/
def State.flushPort (s : State) : State :=
  let v := s.save
  let done := v.sets.filter (fun x => v.wrote.any (fun y => y.item == x.1))
  let s := done.foldl (fun (s : State) x => s.setRegionBit x.2) { s with save := { v with flushed := v.wrote.length } }
  if v.wrote.length = v.portItems.length then s.endSave else s

/-- The next Write or Flush at the port, once the marker stands in the region. -/
def State.savePort (s : State) : State :=
  let v := s.save
  if !v.marker || !s.portOpen then s
  else match v.portItems[v.wrote.length]? with
    | none => if v.flushed < v.wrote.length then s.flushPort else s
    | some x => if v.flushed < v.wrote.length && s.freeVal % 2 == 0 then s.useFree.flushPort else s.useFree.writePort x.1

/-- SAVE_ITEM_COMPLETE. -/
def execSaveItemComplete (atPort : Bool) (s : State) : Res :=
  if !s.save.active then .next s else .next (if atPort then s.savePort else s.saveRegion)

/-! ## The image at the end of power or at a reset -/

/-- Queues as the image keeps them: a command that a processor held is read again. -/
def State.imageQueues (s : State) : Tbl Queue :=
  let held := ((List.range 4).filter (fun n => (s.cp n).busy)).map (fun n => (s.cp n).queue)
  s.queues.map (fun p =>
    let x := { p.2 with run := false }
    if !held.contains p.1 then (p.1, x)
    else if x.rep = 0 then (p.1, { x with held := false, head := none, again := false })
    else (p.1, { x with again := true }))

/-- Control state and saved contexts, with what the save module holds. -/
def State.takeImage (s : State) : Image :=
  let v := s.save
  let run := s.running.filter (fun l => (s.launch l).cancel.isNone)
  let cutOf := fun (room : Nat) => if s.roomSaved room then []
    else (s.roomKeys room).map (fun k => ((s.rill k).launch, boxAt k 0x03 0x13 (s.rill k).gid (s.rill k).rid))
  let port := v.wrote.take v.flushed
  { fresh := true, bits := v.items ++ v.sets, port := port, dir := if port.isEmpty then [] else imageDir v.seq (v.items ++ v.sets) port
    queues := s.imageQueues, launches := s.launches, running := run, active := s.active, groups := s.groups, cards := s.cards
    rooms := s.rooms, jobs := s.cores.map (fun p => (p.1, p.2.jobs)), windows := s.windows, power := s.power
    seqs := s.fab.seqs, wins := s.fab.wins, reqs := s.fab.reqs.filter (fun r => r.rill == noRill || decide (2 ^ 40 ≤ r.rill))
    nextReq := s.fab.nextReq, cxp := s.traps.cxpbase, cut := (s.saveRooms.map cutOf).flatten }

/-- The save and its image as the next boot finds them. -/
def State.nextSave (s : State) : Save :=
  let v := s.save
  if v.active || v.saved then
    { seq := v.seq, image := s.takeImage, older := if !v.wrote.isEmpty then {} else if v.image.port.isEmpty then v.older else v.image }
  else { seq := v.seq, image := v.image, older := v.older }

/-- The directory records the item, and the CRC of its data matches (R256). -/
def Image.portHas (im : Image) (it : SaveItem) : Bool :=
  let bit := ((im.bits.find? (fun b => b.1 == it)).map (·.2)).getD 0
  sealOk im.dir && im.port.zipIdx.any (fun p =>
    p.1.item == it && (im.dir.drop (64 + 32 * p.2)).take 32 == p.1.bytes bit && (p.1.data.isEmpty || crc32 p.1.data == p.1.crc))

/-- Entries of the save set that the module holds whole: base and bytes. -/
def Image.sets (im : Image) : List (Nat × List Byte) :=
  (im.port.filter (fun x => x.item.isSet && im.portHas x.item)).map (fun x => (x.base, x.data))

/-- The black box as the module holds it. -/
def Image.boxBytes (im : Image) : List Byte := ((im.port.find? (fun x => x.item == .blackBox && im.portHas .blackBox)).map (·.data)).getD []

/-- Items complete in the image found. -/
def Save.done (v : Save) (m : List Host.Cell) (it : SaveItem) : Bool :=
  match v.found with
  | 1 => v.image.bits.any (fun b => b.1 == it && regionBit m b.2)
  | 2 => v.image.portHas it
  | _ => false

/-- A frame of the context pool is in the image: in kept memory, or in a complete entry of the save set. -/
def Save.frameKept (v : Save) (base frame : Nat) : Bool :=
  let a := base + 0x400000 * frame
  v.found == 1 || (v.found == 2 && v.image.sets.any (fun e => decide (e.1 ≤ a) && decide (a + 0x400000 ≤ e.1 + e.2.length)))

/-- Saved rills of a room that the image does not hold whole: launch and entry. -/
def Save.lostOf (v : Save) (m : List Host.Cell) (room core : Nat) (frame : Option Nat) (slots : List Nat) (saved : List Rill) :
    List (Nat × BoxEvent) :=
  (saved.zipIdx.filter (fun p => match frame with
    | some f => !v.frameKept v.image.cxp f
    | none => !(v.done m (.group room) && v.done m (.rill room p.2)))).map
    (fun p => (p.1.launch, boxAt (slots.getD p.2 (slotKey core 0 0)) 0x03 0x13 p.1.gid p.1.rid))

/-- Every rill lost at the end of power (R254). -/
def Save.lost (v : Save) (m : List Host.Cell) : List (Nat × BoxEvent) :=
  let im := v.image
  let live := fun (l : Nat) => (im.launches.get {} l).st != LaunchState.ending
  let gs := (im.active.map (fun g => (g, im.groups.get {} g))).filter (fun p => p.2.st == GroupState.saved && live p.2.launch)
  let cs := im.cards.filter (fun p => p.2.live && !p.2.own && p.2.st == GroupState.saved && live p.2.launch)
  (gs.map (fun p => v.lostOf m p.1 (im.rooms.get {} p.2.room).core (if p.2.layout.isEmpty then none else p.2.frame) p.2.slots p.2.saved)).flatten ++
  (cs.map (fun p => v.lostOf m p.1 (im.rooms.get {} p.2.room).core (if p.2.layout.isEmpty then none else p.2.frame) p.2.slots p.2.saved)).flatten ++ im.cut

/-- The image that boot step 10 finds (R255): the marker, else the save module's directory. -/
def State.imageFound (s : State) : Nat :=
  if markerOk s.dram then 1
  else if s.boot.saveport && (s.save.image.portHas .control || s.save.older.portHas .control) then 2 else 0

/-- SAVEPART where an item is lost, with an entry for each rill that the last save lost (R254, R452). -/
def State.reportLost (s : State) (part : Bool) (lost : List (Nat × BoxEvent)) : State :=
  if !part && lost.isEmpty then s
  else
    let s := lost.foldl (fun (s : State) e => s.record e.2) s
    (s.record { kind := 0x09, code := 1, arg0 := s.wordsSaved s.save.image.bits }).powerEvent 6

/-- Boot step 10 finds the image: SRC, the black box, and what was lost (R254 to R256, R451). Without an image, what a
save that came to nothing had begun is lost, and a module that did not answer keeps what it holds. -/
def State.findImage (s : State) : State :=
  let held := s.imageFound = 2 ∧ !s.save.image.portHas .control
  let v : Save := { s.save with found := s.imageFound, image := if held then s.save.older else s.save.image, older := if held then {} else s.save.older }
  let part := (v.found != 0 || v.image.fresh) && v.image.bits.any (fun b => b.1.isSet && !v.done s.dram b.1)
  let lost := if v.found = 0 && !v.image.fresh then [] else v.lost s.dram
  let keep : Image := if v.found = 0 then { bits := v.image.bits, dir := v.image.dir, port := v.image.port } else { v.image with fresh := false }
  let s := { s.setPower { s.power with src := v.found } with save := v }
  let s := match v.found with
    | 0 => s.clearBox
    | 1 => s.resumeBox
    | _ => ({ s with dram := memWrite s.dram boxBase v.image.boxBytes }).resumeBox
  let s := s.reportLost part lost
  { s with save := { s.save with image := keep } }

/-- The image is dropped: the marker of the region, and what the module holds. -/
def State.dropImage (s : State) : State :=
  { s.setPower { s.power with src := 0 } with
    dram := memZero s.dram regionBase (regionBase + 64), save := { seq := s.save.seq } }

/-! ## RESUME and DISCARD (R255, R256) -/

/-- The Weir's registers and bucket, as the image holds them. -/
def Power.restore (p im : Power) : Power :=
  { p with
    bcap := im.bcap, pcap := im.pcap, floor := im.floor, slew := im.slew, gramp := im.gramp, boosten := im.boosten, hyst := im.hyst
    thrw := im.thrw, tbcap := im.tbcap, pincap := im.pincap, stepcap := im.stepcap, tb := im.tb, ssn := im.ssn, ssaddr := im.ssaddr
    capNow := im.pcap, grampNow := im.gramp, capDue := [], grampDue := [] }

/-- A rill's trap is pending again without an event ID: one with disposition Host is written again (R442). -/
def Rill.reparked (r : Rill) : Rill :=
  { r with trap := r.trap.map (fun t => if t.act.isSome then t else { t with event := 0, waiting := trapToHost t.cause }) }

/-- Events that are written again: of parked rills, and of suspended tile operations. -/
def savedEvents (room : Nat) (saved : List Rill) (units : List TileUnit) : List EventOf :=
  (saved.zipIdx.filter (fun p => p.1.trap.any (fun t => t.waiting))).map (fun p => .savedRill room p.2) ++
  (units.zipIdx.filter (fun p => p.1.head.any (fun o => o.susp && o.act.isNone))).map
    (fun p => .savedTile room p.2 ((p.1.head.map (·.id)).getD 0))

/-- Control state comes back: queues, launches, windows, the Weir, sequence state; saved contexts follow it. -/
def State.restoreControl (s : State) (im : Image) : State :=
  let groups := im.groups.map (fun p =>
    let g := p.2
    if g.st = .retired then p
    else if g.st = .saved then (p.1, { g with saved := g.saved.map Rill.reparked, since := none })
    else (p.1, { g with st := .saved, saved := [], savedX := [], liveRills := [], since := none }))
  let cards := im.cards.map (fun p =>
    if p.2.own || !p.2.live then p
    else if p.2.st = .saved then (p.1, { p.2 with saved := p.2.saved.map Rill.reparked })
    else (p.1, { p.2 with st := .saved, saved := [], savedX := [], liveRills := [] }))
  let live := groups.filter (fun p => im.active.contains p.1)
  let events := (live.map (fun p => savedEvents p.1 p.2.saved (im.rooms.get {} p.2.room).saved)).flatten ++
    ((cards.filter (fun p => p.2.live && !p.2.own)).map (fun p => savedEvents p.1 p.2.saved (im.rooms.get {} p.2.room).saved)).flatten
  let frames := live.filterMap (fun p => p.2.frame) ++ (cards.filter (fun p => p.2.live)).filterMap (fun p => p.2.frame)
  let launches := im.launches.map (fun (p : Nat × Launch) =>
    let ranges := p.2.ranges.map (fun (q : Nat × Range) => (q.1, { q.2 with since := none, blocks := false }))
    (p.1, { p.2 with ranges := ranges }))
  let rooms := im.rooms.map (fun (p : Nat × Room) => (p.1, { p.2 with live := false }))
  { s with
    queues := im.queues, launches := launches, running := im.running, active := im.active, groups := groups, cards := cards
    rooms := rooms, windows := im.windows
    cores := im.jobs.foldl (fun (t : Tbl Core) p => if p.2.isEmpty then t else t.set p.1 { t.get {} p.1 with jobs := p.2 }) s.cores
    power := s.power.restore im.power
    fab := { s.fab with
      seqs := im.seqs, wins := im.wins, nextReq := im.nextReq
      reqs := im.reqs.map (fun r => { r with sent := false, since := none }) }
    traps := { s.traps with frames := frames, waiting := s.traps.waiting ++ events } }

/-- SAVE_RESUME: control state is restored and saved groups become candidates; launches with lost rills end with code
0x13, and retirements in progress start again. -/
def execSaveResume (s : State) : Res :=
  let v := s.save
  let im := v.image
  if s.power.src = 0 ∨ (s.die 0).st ≠ .active then .next s
  else
    let lost := ((v.lost s.dram).map (·.1)).eraseDups
    let s := if v.found = 2 then { s with dram := im.sets.foldl (fun (m : List Host.Cell) e => memWrite m e.1 e.2) s.dram } else s
    let s := (s.restoreControl im).dropImage
    let ends := s.running.filter (fun l => (s.launch l).st == .ending)
    let s := ends.foldl (fun (s : State) l => (s.cardsOf l).foldl State.discardCard ((s.groupsOf l).foldl State.discardGroup s)) s
    let s := lost.foldl (fun (s : State) l => s.endLaunch l 0x13) s
    let s := s.running.foldl State.rewindRetire s
    let s := (List.range 8).foldl (fun (s : State) i => s.evaluateAt (6 + i)) s
    .next s.pumpReqs.queuesUp

/-- SAVE_DISCARD: the image is dropped. -/
def execSaveDiscard (s : State) : Res :=
  if s.power.src = 0 ∨ (s.die 0).st ≠ .active then .next s else .next s.dropImage.queuesUp

end Sys2Proof.Machine
end

