-- ==== Sys2Proof/Machine/Boot.lean ====
section
/-! DEFINITION. Dies and links: fuse check, attestation, keys, rollovers (R98 to R106), the boot sequencer (R109,
R110) and package reset. -/
namespace Sys2Proof.Machine

/-! ## Links (R99): 0 FED–IOD, 1+n FED–BDn, 5+n IOD–BDn, 9+n BDn–CDnL, 13+n CDnL–CDnU -/

/-- The ends of a link: the one nearer to the FED, then the other. -/
def linkEnds (l : Nat) : Nat × Nat :=
  if l = 0 then (0, 1) else if l < 5 then (0, l + 1) else if l < 9 then (1, l - 3) else if l < 13 then (l - 7, 2 * l - 12) else (2 * l - 20, 2 * l - 19)

def dieLinks (d : Nat) : List Nat := (List.range 17).filter (fun l => (linkEnds l).1 == d || (linkEnds l).2 == d)

/-- The die that a failure of a link resets (R99); 0 stands for the package. -/
def linkVictim (l : Nat) : Nat := if l = 0 ∨ (5 ≤ l ∧ l < 9) then 1 else if l < 5 then 0 else (linkEnds l).2

def farEnd (l d : Nat) : Nat := if (linkEnds l).1 = d then (linkEnds l).2 else (linkEnds l).1

def LinkDir.open (x : LinkDir) : Bool := x.senderKey && x.receiverKey
def State.linkOpen (s : State) (l : Nat) : Bool := (s.link (2 * l)).open && (s.link (2 * l + 1)).open

/-- A die that holds a PSK session. -/
def State.inSession (s : State) (d : Nat) : Bool := (s.die d).st == .keyed || (s.die d).st == .active

/-! ## State changes (R100, R102) -/

/-- A die changes state; one that is not ACTIVE reports no enabled cores (R88). A change to QUARANTINE, and a failure code, raise vector 64 and are recorded. -/
def State.dieTo (s : State) (d : Nat) (st : DieState) (failc : Option Nat) : State :=
  let x := s.die d
  let x := { x with st := st, since := x.ltime, failc := failc.getD x.failc, rmask := if st = .active then x.rmask else 0 }
  let s := s.setDie d x
  let code := match st with
    | .off => 0 | .fuseCheck => 1 | .quarantine => 2 | .keyed => 3 | .active => 4 | .draining => 5 | .resetting => 6
  if st = .quarantine ∨ failc.any (· != 0) then
    (s.raise 64).record { kind := 0x01, die := d, code := x.failc, arg0 := code, arg1 := x.rstcnt }
  else s

/-- The die leaves OFF: local time starts again, and its fuses are read. -/
def State.startFuse (s : State) (d : Nat) : State :=
  let s := (s.modDie d (fun x => { x with ltime := 0 })).dieTo d .fuseCheck none
  if isCompute d then s.modDom (d - 6) (fun x => { x with fillDue := 1000 }) else s

/-- The fuses have been read with correct ECC, or not (R100, R111). A die that the package needs is reported while it
boots (R101). -/
def State.endFuse (s : State) (d : Nat) : State :=
  let ok := s.freeVal % 2 = 0
  let s := s.useFree
  if ok then
    (s.modDie d (fun x => { x with held := false, attempts := 0, exch := 0, enm := if isCompute d then x.harvest else 0 })).dieTo d .quarantine none
  else
    let s := s.dieTo d .off (some 1)
    if d < 6 ∧ s.boot.step ≤ 10 then s.report 4 (256 * d + 1) else s

/-! ## The boot sequencer (R109) -/

def stepRequired (i : Nat) : Bool := i != 8 && i != 9
def stepAlternate (i : Nat) : Bool := i == 5 || i == 7 || i == 10

/-- How a start runs a step: `none` skips it, else whether by the alternate method. -/
def BootStep.method (b : BootStep) (i : Nat) : Option Bool :=
  match b.result with
  | .failed => if !stepRequired i then none else some (stepAlternate i)
  | .skipped => none
  | _ => some false

def StepResult.code : StepResult → Nat
  | .notRun => 0
  | .passed => 1
  | .failed => 2
  | .skipped => 3

/-- A step's entry in the record; a failed or skipped step is reported, and a required step that failed ends the
start, or leaves the package in boot failure. MCTP report 1 is a skipped step, 2 a boot failure. -/
def State.endStep (s : State) (i : Nat) (res : StepResult) : State :=
  let old := s.boot.prev.get {} i
  let alt := ((old.method i).getD old.alternate)
  let starts := if res = .failed && !alt then min 2 (old.starts + 1) else if res = .passed then 0 else old.starts
  let e : BootStep := { alternate := alt, result := res, starts := starts }
  let s := { s with boot := { s.boot with record := s.boot.record.set i e } }
  let s := if res = .failed ∨ res = .skipped then
      s.record { kind := 0x02, code := i, arg0 := alt.toNat, arg1 := res.code } else s
  let s := if res = .skipped then s.report 1 i else s
  if res = .failed && stepRequired i then
    ({ s with boot := { s.boot with stopped := true, stuck := s.boot.stuck || alt || starts == 2 } }).report 2 i
  else { s with boot := { s.boot with step := i + 1 } }

/-- A required die cannot come up in this start. -/
def State.dieOut (s : State) (d : Nat) : Bool := (s.die d).st == .off || (s.die d).held

/-- Fabric enabled and paths trained (step 8). -/
def State.trainFabric (s : State) : State :=
  [0, 1, 2, 3].foldl (fun (s : State) k => if s.lit k then s.retrain k else s) { s with fab := { s.fab with en := true } }

/-- Firmware agents are loaded, the black box is opened and the image is found (step 10, R255). -/
def State.openService (s : State) : State :=
  ((List.range 8).foldl (fun (s : State) i => if (s.die (6 + i)).st = .active then s.loadAgents (6 + i) else s) s).findImage

/-- A compute die for which step 4 waits no longer: it is ACTIVE, it cannot come up, or it is KEYED with a link whose
other die cannot. -/
def State.computeSettled (s : State) (d : Nat) : Bool :=
  (s.die d).st == .active || s.dieOut d || ((s.die d).st == .keyed && (dieLinks d).any (fun l => s.dieOut (farEnd l d)))

/-- The result of the step that is due, where it is decided: steps 5 to 10 by what the stream of free values says of
the board and the modules. Step 2 asks for the dies that the package needs (log 110). -/
def State.stepResult (s : State) (i : Nat) : Option StepResult :=
  let ok := fun (b : Bool) => some (if b then StepResult.passed else .failed)
  let base := List.range 6
  if (((s.boot.prev.get {} i).method i).isNone : Bool) then some .skipped
  else match i with
    | 2 => if (List.range 14).any (fun d => (s.die d).st == .fuseCheck) then none else ok (base.all (fun d => (s.die d).st != .off))
    | 3 => if base.any s.dieOut then some .failed else if base.all s.inSession then some .passed else none
    | 4 =>
      if base.all (fun d => (s.die d).st == .active) && (List.range 8).all (fun n => s.computeSettled (6 + n)) then some .passed
      else none
    | 9 => ok ((s.boot.record.get {} 8).result == .passed && s.freeVal % 2 == 0)
    | _ => ok (s.freeVal % 2 == 0)

/-- The host link trains at 128, 64 or 32 GT/s on 16, 8 or 4 lanes; by the alternate method at 64 GT/s only (R97). -/
def State.trainHost (s : State) (alt : Bool) : State :=
  let rate := if alt then 64 else 128 / 2 ^ (s.freeVal % 3)
  let s := s.useFree
  ({ s with boot := { s.boot with rate := rate, width := 16 / 2 ^ (s.freeVal % 3) } }).useFree

/-- What a step that passes has done. -/
def State.stepEffect (s : State) (i : Nat) : State :=
  match i with
  | 7 => s.trainHost (s.boot.record.get {} 7).alternate
  | 8 => s.trainFabric
  | 10 => s.openService
  | _ => s

/-- The first Weir period, thermal and charge sample fall due from now on. -/
def State.startClocks (s : State) : State :=
  let now := s.now 0
  s.setPower { s.power with weirDue := now + 1000, thermDue := now + 10000, chargeDue := now + 10000, changes := [] }

/-- Runs the steps that are decided, in order. When the table ends the record is cleared. -/
def State.runBoot (s : State) : Nat → State
  | 0 => s
  | fuel + 1 =>
    let i := s.boot.step
    if i = 0 ∨ 10 < i ∨ s.boot.stopped then s
    else match s.stepResult i with
      | none => s
      | some res =>
        let s := (s.useFree).endStep i res
        let s := if res = .passed then s.stepEffect i else s
        if i = 10 ∧ res = .passed then { s.startClocks with boot := { s.boot with record := [], prev := [] } }
        else s.runBoot fuel

def State.advanceBoot (s : State) : State := s.runBoot 11

/-- Poison that stays in memory that is kept: that of the owner's copy of a line, and all of a line that the host could
write (R331, R335). -/
def State.keptPoison (s : State) : Tbl LineState :=
  let psn := fun (l : LineState) => if l.lent = 2 then 3 else ((l.hs.find? (·.own)).map (·.psn)).getD 0
  (s.coh.lines.filter (fun p => psn p.2 != 0)).map (fun p => (p.1, { hs := [{}, {}, {}, {}, ⟨64, true, true, false, psn p.2⟩], lent := 0 }))

/-- What survives a reset of the package: fuses, the numbers of keys that were used, the boot record, Headgate's lists,
host memory, what the board has seen, the image, memory that is kept, and the model's own counters. -/
def State.cold (s : State) (kept : Bool) : State :=
  { State.reset with
    dies := (List.range 14).map (fun d => (d, { dieid := (s.die d).dieid, harvest := (s.die d).harvest }))
    links := s.links.map (fun p => (p.1, { gen := p.2.gen }))
    boot := { record := s.boot.record, stuck := s.boot.stuck, revoked := s.boot.revoked, manifest := s.boot.manifest }
    power := { phase := s.power.phase }
    coh := { State.reset.coh with lines := if kept then s.keptPoison else [] }
    save := s.nextSave, dram := if kept then s.dram else [], hostMem := s.hostMem, msix := s.msix, mctp := s.mctp, fresh := s.fresh
    tick := s.tick, free := s.free }

/-- A start (R109): the save port trains, Headgate measures itself, and every die begins its fuse check. -/
def State.startBoot (s : State) : State :=
  if s.boot.stuck then s.report 2 0
  else
    let trained := s.freeVal % 2 = 0
    let s := s.useFree
    let run := fun (p : BootStep) => if p.result = .notRun then { p with starts := 0 } else p
    let old := s.boot.record.map (fun p => (p.1, run p.2))
    let record := old.map (fun (p : Nat × BootStep) => (p.1, { p.2 with result := .notRun }))
    let s := { s with boot := { s.boot with prev := old, record := record, step := 1, saveport := decide trained } }
    let s := if trained then s else s.report 3 0
    let s := s.runBoot 1
    if s.boot.stopped then s else (List.range 14).foldl State.startFuse s

/-- A reset of the package, by RESET_N or for a base die. Device memory that holds an image stays; what else it holds
is not kept (log). -/
def State.packageReset (s : State) : State := (s.cold (markerOk s.dram)).startBoot

/-- PACKAGE_RESET (R110): RESET_N has been low for 1 µs and is released. -/
def execPackageReset (s : State) : Res := .next s.packageReset

/-- POWER_REMOVED (R254): what is not saved is lost. Memory in self-refresh may be kept or not. -/
def execPowerRemoved (s : State) : Res := .next (s.useFree.cold (markerOk s.dram && s.freeVal % 2 == 0))

/-- BOOT_RECORD_CLEAR. -/
def execBootRecordClear (s : State) : Res :=
  .next { s with boot := { s.boot with record := [], prev := [], stuck := false } }

/-! ## Attestation (R103, R108) -/

/-- An attempt may run: the IOD goes before the base dies, and compute dies come at step 4. A compute die waits for a
bonded partner that is also being reset. The FED's own state does not matter. DEDUCED: log entry 142. -/
def State.mayAttest (s : State) (d : Nat) : Bool :=
  let x := s.die d
  let p := s.die (otherLayer d)
  let resets := p.st == .draining || p.st == .resetting || p.st == .fuseCheck
  decide (d < 14) && x.st == .quarantine && !x.held && !s.boot.stopped && decide (3 ≤ s.boot.step) &&
    (decide (d < 2) || (decide (d < 6) && s.inSession 1) || (decide (6 ≤ d) && decide (4 ≤ s.boot.step) && !resets))

/-- A failed attempt; the third leaves the die held. A required die at boot is reported over MCTP (R101). -/
def State.attestFail (s : State) (d code : Nat) : State :=
  let n := (s.die d).attempts + 1
  let s := (s.modDie d (fun x => { x with attempts := n, exch := 0, held := decide (3 ≤ n) })).dieTo d .quarantine (some code)
  if 3 ≤ n && decide (d < 6) then s.report 4 (256 * d + code) else s

/-- The measurements of a die (Table 4-5): its type and identity, boot ROM, firmware, fuse configuration, security
version. The spec gives no ROM, firmware or version: they stand at 0 (log). -/
def State.measurements (s : State) (d : Nat) : List Nat :=
  let x := s.die d
  let kind := if d = 0 then 0 else if d = 1 then 1 else if d < 6 then 2 else 3
  [kind, x.dieid.toNat, 0, 0, x.harvest, 0]

/-- What Headgate finds in the answer to GET_MEASUREMENTS: an identity that is revoked, or a value that differs from its
reference. -/
def State.measureCode (s : State) (d : Nat) : Nat :=
  if s.boot.revoked.contains (s.die d).dieid then 2
  else if ((s.boot.manifest.get [] d) != [] && (s.boot.manifest.get [] d) != s.measurements d : Bool) then 6 else 0

/-- Failures of a die that each of the seven exchanges can show. -/
def attestCodes (n : Nat) : List Nat :=
  match n with
  | 4 => [3, 4, 6]
  | 5 => [3, 5]
  | 6 | 7 => [3, 7]
  | _ => [3]

/-- An attempt has lasted 200 ms (R103). -/
def State.attestLate (s : State) (d : Nat) : Bool :=
  (s.die d).exch != 0 && decide ((s.die d).tryAt + 200000000 ≤ s.now 0)

/-- ATTESTATION_ATTEMPT: the next exchange of an attempt. Code 0 is the die's right answer; the seventh completes the PSK
session. Another code is the failure of Table 4-4 that the answer shows. -/
def execAttestationAttempt (die code : Nat) (s : State) : Res :=
  let n := (s.die die).exch + 1
  if !s.mayAttest die then .next s
  else if s.attestLate die then .next (s.attestFail die 3).advanceBoot
  else if code ≠ 0 then .next (if (attestCodes n).contains code then (s.attestFail die code).advanceBoot else s)
  else if n = 4 ∧ s.measureCode die ≠ 0 then .next (s.attestFail die (s.measureCode die)).advanceBoot
  else if n < 7 then .next (s.modDie die (fun x => { x with exch := n, tryAt := if n = 1 then s.now 0 else x.tryAt }))
  else .next ((s.modDie die (fun x => { x with exch := 0 })).dieTo die .keyed none).advanceBoot

/-- ATTESTATION_TIMEOUT: the attempt has lasted 200 ms. -/
def execAttestationTimeout (die : Nat) (s : State) : Res :=
  if s.mayAttest die && s.attestLate die then .next (s.attestFail die 3).advanceBoot else .next s

/-! ## Keys (R104, R105) -/

/-- The two ends of a direction hold sessions: dies, or, for a peer's paths, the devices. -/
def State.keyable (s : State) (dir : Nat) : Bool :=
  if dir < 34 then s.inSession (linkEnds (dir / 2)).1 && s.inSession (linkEnds (dir / 2)).2
  else decide (dir < 162) && (s.peer (dir / 2 - 17)).sess

/-- Both ends of a direction are in service: rollovers run there. -/
def State.rollable (s : State) (dir : Nat) : Bool :=
  (s.link dir).open &&
    (if dir < 34 then (s.die (linkEnds (dir / 2)).1).st == .active && (s.die (linkEnds (dir / 2)).2).st == .active else s.keyable dir)

/-- LINKKEY: an end of a direction installs the key and the salt it has been sent: the first one, or the next one of a
rollover. The sender's next key comes with its flip. -/
def execLinkkey (dir : Nat) (receiver : Bool) (s : State) : Res :=
  let x := s.link dir
  let salt := s.freeVal % 2 ^ 32
  if !s.keyable dir then .next s
  else if !x.open then
    let y := if receiver then { x with receiverKey := true } else { x with senderKey := true }
    .next ((s.setLink dir (if y.open then { y with gen := y.gen + 1, salt := salt, roll := 0, again := false } else y)).useFree)
  else match x.roll, receiver with
    | 1, true => .next (s.setLink dir { x with roll := 2 })
    | 2, false => .next ((s.setLink dir { x with roll := 3, phase := !x.phase, gen := x.gen + 1, salt := salt }).useFree)
    | _, _ => .next s

/-- A rollover of a direction starts, or is kept for the end of the one in progress. -/
def State.rollDir (s : State) (dir : Nat) : State :=
  let x := s.link dir
  if !s.rollable dir then s else s.setLink dir (if x.roll = 0 then { x with roll := 1 } else { x with again := true })

/-- ROLL_REQUEST. -/
def execRollRequest (die : Nat) (s : State) : Res :=
  if (s.die die).st = .active then .next ((dieLinks die).foldl (fun (s : State) l => (s.rollDir (2 * l)).rollDir (2 * l + 1)) s) else .next s

/-- KEY_ROLLOVER_COUNT: a key's packet counter nears 2^48. -/
def execKeyRolloverCount (dir : Nat) (s : State) : Res := .next (if (s.link dir).roll = 0 then s.rollDir dir else s)

/-- OLD_KEY_ERASE: 4,096 packets have come since the first of the new phase. A packet of the old phase that is still to
come on a die link fails its tag (R105). -/
def execOldKeyErase (dir : Nat) (s : State) : Res :=
  let x := s.link dir
  if x.roll ≠ 3 then .next s
  else
    let old := decide (dir < 34) && s.freeVal % 2 == 1
    let s := (s.setLink dir { x with roll := if x.again then 1 else 0, again := false }).useFree
    .next (if old then { s with agenda := s.agenda ++ [.linkTagFail dir false] } else s)

/-- A die that leaves ACTIVE abandons the rollovers of its links. -/
def State.dropRolls (s : State) (d : Nat) : State :=
  ((dieLinks d).map (fun l => [2 * l, 2 * l + 1])).flatten.foldl (fun (s : State) i =>
    if (s.link i).roll = 0 then s else s.setLink i { s.link i with roll := 0, again := false }) s

/-- The die is ACTIVE: a compute die reports its mask and its agents run; the FED takes up what waited for it; the
IOD's paths are retrained. -/
def State.opened (s : State) (d : Nat) : State :=
  let s := s.dieTo d .active none
  if isCompute d then
    let s := s.modDie d (fun x => { x with lastPlaced := 23, rmask := x.enm })
    let s := if 10 < s.boot.step then s.loadAgents d else s
    (s.evaluateAt d).evaluateAt (otherLayer d)
  else if d = 0 then
    let late := s.power.late
    let s := (s.setPower { s.power with late := [] }).startClocks
    ({ s with agenda := s.agenda ++ late }).queuesUp
  else if d = 1 then
    let s := if 7 < s.boot.step then s.trainHost (s.boot.record.get {} 7).alternate else s
    if s.fab.en then s.trainFabric else s
  else s

/-- A link of a die is keyed; or it leads away from the FED to a die that is OFF or held, for which Table 4-7 does not wait. -/
def State.linkSettled (s : State) (die l : Nat) : Bool := s.linkOpen l || ((linkEnds l).1 == die && isCompute (farEnd l die) && s.dieOut (farEnd l die))

/-- DIE_OPEN: every end of its links has acknowledged its keys. -/
def execDieOpen (die : Nat) (s : State) : Res :=
  if die < 14 && (s.die die).st == .keyed && (dieLinks die).all (s.linkSettled die) then .next (s.opened die).advanceBoot
  else .next s

/-! ## The host port and peers (R98, R106) -/

/-- What a DOE request is answered with (Table 4-1, R106): 0 CMA/SPDM, which opens the session, 1 IDE_KM, 2 the CDAT table with the
one range of device memory, 3 + d the measurements of die d, 17 secured CMA/SPDM, within the session. Another object is
declined. -/
def State.doeAnswer (s : State) (kind : Nat) : List Nat :=
  match kind with
  | 0 => [0]
  | 1 => [1, s.boot.spdm.toNat]
  | 2 => [2, 0, dramTop]
  | 17 => if s.boot.spdm then [17] else []
  | n => if n < 17 then n :: s.measurements (n - 3) else []

/-- DOE_REQUEST: kind 0 opens the SPDM session, 1 keys the IDE streams over it, others only answer, whatever
the FED's state. DEDUCED: log entry 141. -/
def execDoeRequest (kind : Nat) (s : State) : Res :=
  if (s.die 1).st = .off then .next s
  else .next (State.flushFer { s with boot := { s.boot with
    doe := s.doeAnswer kind, spdm := s.boot.spdm || kind == 0, ide := if kind = 1 then s.boot.spdm else s.boot.ide } })

/-- The path keys of a peer are issued, one for each direction (R106). -/
def State.keyPaths (s : State) (peer : Nat) : State :=
  [34 + 2 * peer, 35 + 2 * peer].foldl (fun (s : State) i =>
    (s.setLink i { gen := (s.link i).gen + 1, salt := s.freeVal % 2 ^ 32, senderKey := true, receiverKey := true }).useFree) s

/-- PEER_ATTESTATION: the devices attest each other, in data flits of VC3 (R369), path keys are issued, and the data channels towards the peer open;
or not. -/
def execPeerAttestation (peer : Nat) (ok : Bool) (s : State) : Res :=
  if 64 ≤ peer ∨ peer = s.fab.devno ∨ !s.fab.en ∨ (s.die 0).st ≠ .active ∨ (s.die 1).st ≠ .active ∨ (s.nextHop peer 3).isNone then .next s
  else
    let s := s.queueOut peer 3 1 []
    .next (if ok then ((s.modPeer peer (fun p => { p with sess := true })).keyPaths peer).pumpReqs else s)

end Sys2Proof.Machine
end

