-- ==== Sys2Proof/Machine/Reset.lean ====
section
/-! DEFINITION. Single-die reset (R94, R99, R107, R108, Table 4-6) and what starts one: the host, link failures, the
response watchdog (R436). -/
namespace Sys2Proof.Machine

/-! ## Effects on a compute die -/

/-- Rills of a room are lost: one entry of kind 0x03 each (R452); those of a launch that has ended are dropped, not lost (R443). -/
def State.recordLost (s : State) (room : Nat) : State :=
  ((s.roomKeys room).filter (fun k => (s.launch (s.rill k).launch).st != .ending)).foldl (fun (s : State) k => s.record (boxAt k 0x03 0x0F (s.rill k).gid (s.rill k).rid)) s

/-- The saved rills of a group whose span lost its other member. -/
def State.recordSaved (s : State) (g : Nat) : State :=
  let x := s.group g
  (x.saved.zip x.slots).foldl (fun (s : State) p => s.record (boxAt p.2 0x03 0x0F p.1.gid p.1.rid)) s

/-- A neighbour-core card is lost, with its rills or its saved rills. -/
def State.loseCard (s : State) (c : Nat) : State :=
  let x := s.card c
  let saved := if (s.launch x.launch).st = .ending then [] else x.saved.zip x.slots
  let s := saved.foldl (fun (s : State) p => s.record (boxAt p.2 0x03 0x0F p.1.gid p.1.rid)) s
  (s.recordLost x.room).discardCard c

/-- A group is lost with its cards. -/
def State.loseGroup (s : State) (g : Nat) : State :=
  let x := s.group g
  let cards := x.cards.filter (fun c => (s.card c).live && !(s.card c).own)
  let s := cards.foldl State.loseCard s
  ((s.recordLost x.room).recordSaved g).discardGroup g

/-- Groups of a die that are lost: those with a place on it, and the members of its spans on the other layer. -/
def State.lostGroups (s : State) (d : Nat) : List Nat :=
  s.active.filter (fun g =>
    let x := s.group g
    let here := fun (y : Group) => y.die == d && (y.onCore || y.st == .saving || (y.st == .saved && y.span))
    here x || (x.span && x.die == otherLayer d && (x.partner == 0 || here (s.group x.partner))))

/-- The launch's ranges after the loss (R94): what the die had not retired is lost, and with a span what the other
layer had not placed. -/
def Launch.loseRange (l : Launch) (d : Nat) (gone : Nat → Nat) : Launch :=
  let cut := fun (e : Nat) => e == d || (l.lr.has 3 && e == otherLayer d)
  let n := (l.ranges.filter (fun p => cut p.1)).foldl (fun n p =>
    n + (if p.1 = d then p.2.count - p.2.retired else (p.2.count - p.2.placed) + gone p.1)) 0
  let counted := (l.ranges.filter (fun p => p.1 == d)).foldl (fun n p => n + (p.2.retired - p.2.reported)) 0
  let ranges := l.ranges.map (fun p =>
    if cut p.1 then
      (p.1, { p.2 with placed := p.2.count, unitRep := true, reported := if p.1 = d then p.2.retired else p.2.reported })
    else p)
  { l with code := 0x0F, lost := l.lost + n, count := l.count + counted, ranges := ranges }

/-- What rills `ks` have at slices that wait for tokens, as a party without a rill: it has left the die and completes (Table 4-6,
Table 14-7). -/
def State.leftBehind (s : State) (ks : List Nat) : State :=
  let at_ := fun (q : LaneReq) => q.left && !q.done && decide (q.tgt < 2)
  ks.foldl (fun (s : State) k =>
    let accs := ((s.rill k).accs.filter (fun a => a.kind != .ld && a.kind != .sidecar && a.reqs.any at_)).map (fun a => { a with reqs := a.reqs.filter at_ })
    if accs.isEmpty then s
    else
      let core := keyCore k
      { s.setRill (leftBase + 0x80000 * s.fresh + 128 * core) { homeCore := core, ctx := (s.rill k).ctx, seq := (s.rill k).seq, accs := accs } with
        fresh := s.fresh + 1 }) s

/-- Table 4-6 for a compute die. A store that is not yet visible is still on it, but for one that has come to its slice (log 111). -/
def State.resetCompute (s : State) (d : Nat) : State :=
  let gs := s.lostGroups d
  let s := s.leftBehind ((s.rills.filter (fun p => decide (p.1 < 0x10000) && p.2.live && (keyDie p.1 == d || gs.contains p.2.group))).map (·.1))
  let hit := s.running.filter (fun lid =>
    let l := s.launch lid
    let p := l.ranges.get {} d
    l.st == .running && (decide (p.retired < p.count) || gs.any (fun g => (s.group g).launch == lid)))
  let s := hit.foldl (fun (s : State) lid =>
    let gone := fun (e : Nat) => (gs.filter (fun g => (s.group g).launch == lid && (s.group g).die == e)).length
    s.modLaunch lid (fun l => l.loseRange d gone)) s
  let s := gs.foldl State.loseGroup s
  let left := s.active.filter (fun g => (s.group g).die == d && hit.contains (s.group g).launch)
  let s := left.foldl (fun (s : State) g => (s.recordSaved g).discardGroup g) s
  let s := (s.dieCards d).foldl State.loseCard s
  let n := 2 * dieTower d + dieLayer d
  let fresh := fun (c : Core) => ({ prices := c.prices } : Core)
  let here := fun (p : Nat × Rill) => if leftBase ≤ p.1 then false else if orphanBase ≤ p.1 then coreDie p.2.homeCore == d else decide (p.1 < 0x10000) && keyDie p.1 == d
  let cores := s.cores.map (fun (p : Nat × Core) => if coreDie p.1 = d then (p.1, fresh p.2) else p)
  let s := { s with
    rills := s.rills.filter (fun p => !here p)
    cores := cores
    tiles := s.tiles.filter (fun p => coreDie (p.1 / 2) != d)
    xblks := s.xblks.filter (fun p => keyDie (2 * p.1) != d)
    spanReqs := s.spanReqs.set (dieTower d) none }
  let s := if dieLayer d = 1 then { s with gbusy := s.gbusy.set (dieTower d) 0 } else s
  let s := s.modDie d (fun x => { x with enm := 0, gated := false, dbgen := false, evaluate := false, lastPlaced := 23 })
  s.modDom n (fun x => { x with epoch := 0, inj := [], stretched := none })

/-! ## Effects on the FED and the IOD -/

/-- Table 4-6 for the FED: commands held by a processor and launches not handed off end with 0x12, and retirements
start again. -/
def State.resetFed (s : State) : State :=
  let held := (List.range 4).filter (fun n => (s.cp n).busy)
  let s := held.foldl (fun (s : State) n =>
    let q := (s.cp n).queue
    let cmd := (s.cp n).cmd
    let cancels := s.running.filter (fun l => (s.launch l).cancel == some n)
    let s := cancels.foldl (fun (s : State) l => { s.modLaunch l (fun x => { x with st := .done }) with running := s.running.filter (· != l) }) s
    (s.freeCp n).haltQueue q 0x12 cmd none) s
  let waits := (s.launches.filter (fun p => p.2.st == .windows)).map (·.1)
  let s := waits.foldl (fun (s : State) l =>
    (s.modLaunch l (fun x => { x with st := .done })).haltQueue (s.launch l).queue 0x12 (s.launch l).cmd none) s
  (s.running.foldl State.rewindRetire s).dropRelayed 0

/-- Table 4-6 for the IOD: the host link drops, lent lines are reclaimed, collectives and ROPs end, paths go dark.
Requests to peers wait for the new session and go again under their numbers. -/
def State.resetIod (s : State) : State :=
  let s := { s with boot := { s.boot with ide := false, spdm := false, rate := 0, width := 0 } }
  let s := s.reclaimLent.dropRelayed 1
  let s := { s with walker := { s.walker with pwc := [] } }
  let s := { s with coh := { s.coh with hostReqs := [] } }
  let rops := s.fab.reqs.filter (fun r => r.kind == .rop && r.sent)
  let s := rops.foldl (fun (s : State) r => match s.copyCmd r.rill r.acc with
    | none => s
    | some c => s.setCopy r.rill { c with result := ropStatus 6 }) s
  let dark := fun (p : Peer) => ({ lastHold := p.lastHold } : Peer)
  let f := s.fab
  let peers := f.peers.map (fun (p : Nat × Peer) => (p.1, dark p.2))
  let reqs := (f.reqs.filter (fun (r : RemReq) => !(r.kind == .rop && r.sent))).map (fun (r : RemReq) => { r with sent := false })
  let colls := f.colls.map (fun (c : Coll) =>
    if c.status.isSome then c else { c with status := some (4, s.collRank c.block), susp := false })
  ({ s with fab := { f with peers := peers, packets := [], outs := [], announced := [], lastAnn := 0, annDue := false, reqs := reqs, colls := colls } }).routeReqs

/-! ## The states of a reset (R100, R107) -/

/-- Keys of a die's links are gone, with its rollovers (R104, R105). The key phase stays. DESIGN CHOICE: log entry
143. -/
def State.dropKeys (s : State) (d : Nat) : State :=
  ((dieLinks d).map (fun l => [2 * l, 2 * l + 1])).flatten.foldl (fun (s : State) i =>
    let x := s.link i
    s.setLink i { gen := x.gen, phase := x.phase }) s

/-- The path keys of every peer are gone with the IOD. -/
def State.dropPathKeys (s : State) : State :=
  { s with links := s.links.map (fun p => if p.1 < 34 then p else (p.1, { gen := p.2.gen })) }

/-- RESETTING: the effects of Table 4-6. -/
def State.enterReset (s : State) (d : Nat) (failc : Option Nat) : State :=
  let s := s.modDie d (fun x => { x with rstcnt := satAdd 8 x.rstcnt 1, held := false })
  let s := (s.dieTo d .resetting failc).dropKeys d
  if isCompute d then s.resetCompute d else if d = 0 then s.resetFed else s.resetIod.dropPathKeys

/-- A single-die reset starts with a failure code; for a base die the package is reset. An ACTIVE die drains, one held in
QUARANTINE starts again from RESETTING, and for the others there is none. It ends a debug halt (R434). -/
def State.startReset (s : State) (d code : Nat) : State :=
  let x := s.die d
  if 2 ≤ d ∧ d < 6 then s.packageReset
  else if x.st = .active then
    let s := ((s.modDie d (fun x => { x with hreq := false, halted := false })).dieTo d .draining (some code)).dropRolls d
    if d < 2 then s.dropRelayed d else s
  else if x.st = .quarantine ∧ x.held then s.enterReset d (some code)
  else s

/-- DIE_RESET_REQUEST (R107, R108). -/
def execDieResetRequest (die : Nat) (s : State) : Res := .next (if die < 14 then s.startReset die 0x0A else s)

/-- What is in flight on a draining die has left it. -/
def State.dieDrained (s : State) (d : Nat) : Bool :=
  if isCompute d then s.dieQuiet d
  else s.coh.msgs.all (fun m => m.relay != some d)

/-- The drain limit of R107 is over: 100 µs for a compute die, 2 ms for the FED and the IOD, in local time of the die. -/
def State.drainOver (s : State) (d : Nat) : Bool :=
  decide ((s.die d).since.toNat + (if isCompute d then 100000 else 2000000) ≤ (s.die d).ltime.toNat)

/-- DRAIN_COMPLETE: a drained die enters RESETTING, with 0x09 where its limit is over; one whose logic is reset goes through OFF to its fuse check; and a fuse
check ends, of a reset or of a start (FUSE_CHECK). -/
def execDrainComplete (die : Nat) (s : State) : Res :=
  if 14 ≤ die then .next s
  else match (s.die die).st with
    | .draining => .next (if s.drainOver die then s.enterReset die (some 0x09) else if s.dieDrained die then s.enterReset die none else s)
    | .resetting => .next ((s.dieTo die .off none).startFuse die)
    | .fuseCheck => .next (s.endFuse die).advanceBoot
    | _ => .next s

/-- DRAIN_LIMIT. -/
def execDrainLimit (die : Nat) (s : State) : Res :=
  if die < 14 ∧ (s.die die).st = .draining ∧ s.drainOver die then .next (s.enterReset die (some 0x09)) else .next s

/-! ## Link failures -/

/-- The reset that R99 names for a link. For an FED–BDn link it is the package's, and BDn's FAILC keeps the code. -/
def State.failLink (s : State) (l code : Nat) : State :=
  if 1 ≤ l ∧ l < 5 then
    let s := s.packageReset
    let d := l + 1
    (s.modDie d (fun x => { x with failc := code })).dieTo d (s.die d).st (some code)
  else s.startReset (linkVictim l) code

/-- LINK_TAG_FAIL: the packet is replayed; a second failure of it, or 16 within 1 ms, resets a die with code 0x08. Directions from
34 on are those of the path sets, for which R368 has the same rule: the die is the IOD. -/
def execLinkTagFail (dir : Nat) (second : Bool) (s : State) : Res :=
  let x := s.link dir
  let now := s.now (if dir < 34 then (linkEnds (dir / 2)).1 else 1)
  let fails := now :: x.fails.filter (fun t => decide (now < t + 1000000))
  if 162 ≤ dir ∨ !x.open then .next s
  else
    let s := s.setLink dir { x with fails := fails }
    let other := (s.link (if dir % 2 = 0 then dir + 1 else dir - 1)).fails.filter (fun t => decide (now < t + 1000000))
    .next (if second || decide (16 ≤ fails.length + other.length) then
        (if dir < 34 then s.failLink (dir / 2) 0x08 else s.startReset 1 0x08) else s)

/-- The requests across a link that have no response yet: on a tower's links the line operations of its rills, on those of the FED
and the IOD the coherence messages that they relay to or from a base die (R330). -/
def State.linkWaits (s : State) (l : Nat) : List (Nat × Nat) :=
  let (a, b) := linkEnds l
  if 9 ≤ l then
    let far := fun (k : Nat) => decide (k < 0x10000) && (keyDie k == b || (decide (l < 13) && keyDie k == otherLayer b))
    ((s.rills.filter (fun p => far p.1)).map (fun p =>
      ((p.2.accs.map (fun x => (x.reqs.filter (fun q => !q.done && decide (q.tgt < 2))).map (fun q => (p.1, 1024 * x.seq + q.key)))).flatten))).flatten
  else (s.coh.resend.filter (fun m => m.relay == some a && (m.src + 2 == b || m.dst + 2 == b))).map (fun m => (4 * m.src + m.dst, m.num))

/-- LINK_RESPONSE_WATCHDOG (R436): a request that has had no response for 10 ms, as the watchdog sees it, resets a die with code
0x0B. While a die of the link is in debug halt the limit does not advance. -/
def execLinkResponseWatchdog (link : Nat) (s : State) : Res :=
  let x := s.link (2 * link)
  let (a, b) := linkEnds link
  let now := s.now a
  let waits := s.linkWaits link
  let held := (s.die a).halted || (s.die b).halted
  let seen := fun (w : Option (Nat × Nat)) => s.setLink (2 * link) { x with asked := w.map (fun w => (w.1, w.2, now)) }
  if 17 ≤ link ∨ !s.linkOpen link then .next s
  else match x.asked with
    | none => .next (seen waits.head?)
    | some (i, j, since) =>
      if !waits.contains (i, j) then .next (seen waits.head?)
      else if held then .next (seen (some (i, j)))
      else if since + 10000000 ≤ now then .next (s.failLink link 0x0B)
      else .next s

end Sys2Proof.Machine
end

