-- ==== Sys2Proof/Machine/Regs.lean ====
section
/-! DEFINITION. Writes of registers whose fields have no event of their own (R4, R72, R112, R222, R226, R238, R260,
R366, R421, R433, R450), and the size of basin store (R269). Bits that act by themselves act in their own events. -/
namespace Sys2Proof.Machine

/-- Queue registers (Table 3-1): QBASE; EN, PEMPT, LOG2SZ, PRIO and CTX. The place of the ring is fixed while EN
is 1 (R73). QBASE takes the bits from 12 up (log 107). -/
def State.writeQueue (s : State) (q off w : Nat) : State :=
  let x := s.queue q
  let log := if inRange 4 15 (bitsOf 27 24 w) then bitsOf 27 24 w else x.log2sz
  let y := match off with
    | 0x00 => if x.en then x else { x with qbase := w % 2 ^ 57 / 4096 * 4096 }
    | 0x08 => { x with
        en := bitOf 31 w, pempt := bitOf 29 w, prio := bitsOf 17 16 w
        log2sz := if x.en then x.log2sz else log
        ctx := if x.en then x.ctx else bitsOf 11 0 w }
    | _ => x
  let moved := y.qbase != x.qbase || y.log2sz != x.log2sz || y.ctx != x.ctx
  (s.setQueue q (if moved && !x.held then { y with head := none } else y)).headUp q

/-- Weir registers (Table 11-1). A value out of range leaves its field unchanged; a new GRAMP acts after φ (R244). SSADDR is
rounded down to 64 bytes. DESIGN CHOICE: log entry 147. -/
def State.writeWeir (s : State) (off w : Nat) : State :=
  let p := s.power
  let keep := fun (lo hi n old : Nat) => if inRange lo hi n then n else old
  match off with
  | 0x00 => s.setPower { p with
      bcap := keep 2800 3400 (bitsOf 47 36 w) p.bcap, floor := keep 0 p.pcap (bitsOf 23 12 w) p.floor, slew := keep 10 400 (bitsOf 8 0 w) p.slew }
  | 0x08 =>
    let n := bitsOf 19 0 w
    if inRange 1 400000 n && n != p.gramp then s.setPower { p with gramp := n, grampDue := p.grampDue ++ [(s.afterStagger, n)] } else s
  | 0x10 => s.setPower { p with
      boosten := bitOf 31 w, hyst := keep 3 10 (bitsOf 30 27 w) p.hyst, thrw := keep 900 2800 (bitsOf 26 15 w) p.thrw
      tbcap := keep 1 2000 (bitsOf 10 0 w) p.tbcap }
  | 0x18 => s.setPower { p with
      pincap := keep 900 2800 (bitsOf 23 12 w) p.pincap, stepcap := keep 900 2800 (bitsOf 11 0 w) p.stepcap }
  | 0x40 => s.setPower { p with events := p.events &&& ~~~(BitVec.ofNat 10 w) }
  | 0x50 => s.setPower { p with ssn := keep 0 64 (bitsOf 47 40 w) p.ssn, ssaddr := w % 2 ^ 40 / 64 * 64 }
  | _ => s

/-- Domain registers (Table 10-4): CREF and CCAP, from the next epoch. -/
def State.writeDomain (s : State) (n off w : Nat) : State :=
  if off = 0x10 then
    s.modDom n (fun d => { d with crefNext := bitsOf 31 16 w, ccapNext := if bitsOf 15 0 w = 0 then d.ccapNext else bitsOf 15 0 w })
  else s

/-- Fabric registers (Table 16-1): WGT, FERBASE and FERLOG2. -/
def State.writeFabric (s : State) (off w : Nat) : State :=
  let f := s.fab
  match off with
  | 0x08 => { s with fab := { f with wgt := w % 2 ^ 32 } }
  | 0x10 => { s with fab := { f with
      ferbase := w % 2 ^ 48 / 64 * 64, ferlog2 := if inRange 4 12 (w % 16) then w % 16 else f.ferlog2 } }
  | _ => s

/-- Trap registers (Table 18-3): the ring moves only while it is empty, the number of frames changes only while none is
in use. -/
def State.writeTraps (s : State) (off w : Nat) : State :=
  let t := s.traps
  match off with
  | 0x00 => if t.rhead != t.rtail then s else { s with traps := { t with
      rbase := w % 2 ^ 40 / 64 * 64, rlog2 := if inRange 4 12 (w % 16) then w % 16 else t.rlog2 } }
  | 0x08 => { s with traps := { t with rtail := bitsOf 31 16 w } }
  | 0x18 => { s with traps := { t with
      cxpbase := w % 2 ^ 40 / 2 ^ 22 * 2 ^ 22
      cxpn := if t.frames.isEmpty && decide (bitsOf 10 0 w ≤ 1024) then bitsOf 10 0 w else t.cxpn } }
  | 0x28 => { s with traps := { t with pq := w % 64 } }
  | _ => s

/-- REGISTER_WRITE: a write at an offset of the FED register space. Price entries are 32 bits wide; the reserved bits
of one, and of the surcharge word, are kept as 0 (R223); the entries that R222 reserves, and the other fields of an engine
entry, read back what was written (log 139). Nonzero reserved bits of every other register are ignored (log 109). -/
def execRegisterWrite (off : Nat) (v : DWord) (s : State) : Res :=
  let w := v.toNat
  let at_ := fun (base len : Nat) => decide (base ≤ off) && decide (off < base + len)
  if at_ 0x140000 0x10000 then
    let e := w % 2 ^ 32
    let i := (off - 0x140000) / 4
    let e := if i % 4096 = 0x8F0 then bitsOf 15 0 e else bitsOf 23 0 e + bitsOf 31 31 e * 2 ^ 31
    .next { s with stage := Tbl.set s.stage i e }
  else if off % 8 ≠ 0 then .next s
  else if at_ 0x100000 0x1000 then .next (s.writeQueue ((off - 0x100000) / 0x40) (off % 0x40) w)
  else if at_ 0x120000 0x60 then s.orLate (.registerWrite off v) (fun s => s.writeWeir (off - 0x120000) w)
  else if off = 0x130000 then .next { s with prbank := w % 4 }
  else if at_ 0x131000 0x200 then .next (s.writeDomain ((off - 0x131000) / 0x40) (off % 0x40) w)
  else if at_ 0x150000 0x10000 && off % 16 = 0 then
    .next { s with roots := s.roots.set ((off - 0x150000) / 16) (w % 2 ^ 40 / 4096 * 4096, bitOf 0 w) }
  else if at_ 0x170000 0x30 then .next (s.writeFabric (off - 0x170000) w)
  else if at_ 0x180000 0x38 then .next (s.writeTraps (off - 0x180000) w)
  else if at_ 0x180100 0x40 then .next (s.modDie (6 + (off - 0x180100) / 8) (fun d => { d with dbgen := bitOf 0 w }))
  else if off = 0x190000 then .next { s with box := { s.box with freeze := bitOf 31 w } }
  else .next s

/-- BSIZE_WRITE (R269): values 5 to 7, 0 in slice 0, and a write while BUSY is 1 are ignored. -/
def execBsizeWrite (slice : Nat) (v : DWord) (s : State) : Res :=
  let n := v.toNat % 8
  if 64 ≤ slice ∨ 5 ≤ n ∨ (n = 0 ∧ slice = 0) ∨ (s.bnext.get none slice).isSome ∨ n = s.bsizeOf slice then .next s
  else .next { s with bnext := Tbl.set s.bnext slice (some n) }

/-- The slice gives up the lines for which the ways that are left to it have no room: they go back to their homes. -/
def State.carve (s : State) (slice : Nat) : State :=
  ((s.sliceLines slice).drop (s.sliceRoom slice)).foldl (fun (s : State) l => s.sendAll l (slice / 16) 4) s

/-- BSIZE_CHANGE_DONE: lines in the ways being carved are written back, what is added is zero, and what lies above the new
size is gone. -/
def execBsizeChangeDone (slice : Nat) (s : State) : Res :=
  match s.bnext.get none slice with
  | none => .next s
  | some n =>
    let base := slice * 2 ^ 21
    let lo := base + min n (s.bsizeOf slice) * 0x80000
    let hi := base + 2 ^ 21
    .next (({ s with
      basin := memZero s.basin lo hi, bsize := Tbl.set s.bsize slice n, bnext := Tbl.set s.bnext slice none
      coh := { s.coh with bpoison := s.coh.bpoison.filter (fun h => decide (64 * h < lo) || decide (hi ≤ 64 * h)) } }).carve slice)

/-! ## What the registers read as (R4, R5) -/

def dieCode : DieState → Nat
  | .off => 0
  | .fuseCheck => 1
  | .quarantine => 2
  | .keyed => 3
  | .active => 4
  | .draining => 5
  | .resetting => 6

def State.readQueue (s : State) (q off : Nat) : Nat :=
  let x := s.queue q
  match off with
  | 0x00 => x.qbase
  | 0x08 => x.en.toNat * 2 ^ 31 + x.pempt.toNat * 2 ^ 29 + x.log2sz * 2 ^ 24 + x.prio * 2 ^ 16 + x.ctx
  | 0x10 => x.qtail
  | 0x18 => x.qhead
  | 0x20 => x.erri * 2 ^ 32 + x.halt.toNat * 2 ^ 31 + x.waitf.toNat * 2 ^ 30 + x.waitw.toNat * 2 ^ 29 + x.run.toNat * 2 ^ 28 +
      x.waitr.toNat * 2 ^ 27 + x.errc
  | 0x28 => x.qfaddr
  | _ => 0

/-- Key phase of a die's link towards the FED (KPH). -/
def State.phaseOf (s : State) (d : Nat) : Bool :=
  match (dieLinks d).find? (fun l => (linkEnds l).2 == d) with
  | some l => (s.link (2 * l + 1)).phase
  | none => false

def State.readDie (s : State) (d off : Nat) : Nat :=
  let x := s.die d
  let id := if x.st = .off ∨ x.st = .fuseCheck then 0 else x.dieid.toNat
  match off with
  | 0x00 => x.rstcnt * 2 ^ 32 + x.failc * 2 ^ 24 + popcount x.rmask * 2 ^ 16 + (s.phaseOf d).toNat * 2 ^ 8 + dieCode x.st
  | 0x08 => id % 2 ^ 64
  | 0x10 => id / 2 ^ 64
  | _ => 0

def State.readWeir (s : State) (off : Nat) : Nat :=
  let p := s.power
  match off with
  | 0x00 => p.bcap * 2 ^ 36 + p.pcap * 2 ^ 24 + p.floor * 2 ^ 12 + p.slew
  | 0x08 => p.gramp
  | 0x10 => p.boosten.toNat * 2 ^ 31 + p.hyst * 2 ^ 27 + p.thrw * 2 ^ 15 + p.tbcap
  | 0x18 => p.stepact.toNat * 2 ^ 30 + p.pincap * 2 ^ 12 + p.stepcap
  | 0x20 => p.pdraw / 1000 % 4096 * 2 ^ 36 + p.rateShown / 1000 % 4096 * 2 ^ 24 + p.tb / 10 ^ 9 * 2 ^ 13 + p.tstate * 2 ^ 10 + p.stage * 2 ^ 6 +
      p.booston.toNat * 2 ^ 5
  | 0x28 => p.sensor * 2 ^ 16 + (BitVec.ofInt 16 p.tmax).toNat
  | 0x30 => p.phase
  | 0x38 => p.npeer * 2 ^ 32 + p.falls * 2 ^ 16 + p.falll
  | 0x40 => p.events.toNat
  | 0x48 => p.injn * 2 ^ 32 + p.stretch
  | 0x50 => p.ssn * 2 ^ 40 + p.ssaddr
  | 0x58 => p.src
  | _ => 0

def State.readDomain (s : State) (n off : Nat) : Nat :=
  let d := s.dom n
  match off with
  | 0x00 => d.dbal
  | 0x08 => d.dcap
  | 0x10 => d.crefNext * 2 ^ 16 + d.ccapNext
  | 0x18 => d.clim * 2 ^ 32 + d.tlim * 2 ^ 16 + d.vlim
  | 0x20 => d.deny
  | 0x28 => d.drawn
  | 0x30 => d.intrej
  | _ => 0

def State.readPeer (s : State) (p : Nat) : Nat :=
  let x := s.peer p
  x.sess.toNat * 2 ^ 32 + x.relay.getD 0 * 2 ^ 24 + x.relay.isSome.toNat * 2 ^ 23 + x.shed4.toNat * 2 ^ 22 + x.shed1.toNat * 2 ^ 21 +
    x.lcnt * 2 ^ 16 + x.live

def State.readFabric (s : State) (off : Nat) : Nat :=
  let f := s.fab
  match off with
  | 0x00 => f.en.toNat * 2 ^ 31 + f.elmen * 2 ^ 20 + f.elmlos * 2 ^ 16 + f.devno
  | 0x08 => f.wgt
  | 0x10 => f.ferbase + f.ferlog2
  | 0x18 => f.ferhead
  | 0x20 => f.dups
  | 0x28 => f.replays
  | _ => 0

def State.readTraps (s : State) (off : Nat) : Nat :=
  let t := s.traps
  let four := fun (f : Nat → Bool) => ((List.range 4).map (fun i => (f i).toNat * 2 ^ i)).foldl (· + ·) 0
  match off with
  | 0x00 => t.rbase + t.rlog2
  | 0x08 => t.rtail * 2 ^ 16 + t.rhead
  | 0x18 => t.cxpbase + t.cxpn
  | 0x20 => s.freeFrames
  | 0x28 => (s.pheldShown t.pq).toNat * 2 ^ 29 + t.pq
  | 0x30 => four (fun i => s.gbusy.get 0 i != 0) * 16 + four (fun i => s.greq.get false i)
  | _ => 0

/-- A 64-bit read of the FED register space, or a 32-bit read of the price window. What no table lists reads 0. -/
def State.readRegister (s : State) (off : Nat) : Nat :=
  let at_ := fun (base len : Nat) => decide (base ≤ off) && decide (off < base + len)
  if at_ 0x100000 0x1000 then s.readQueue ((off - 0x100000) / 0x40) (off % 0x40)
  else if at_ 0x110000 0x1C0 then s.readDie ((off - 0x110000) / 0x20) (off % 0x20)
  else if at_ 0x110200 0x40 then
    let d := 6 + (off - 0x110200) / 8
    (s.die d).gated.toNat * 2 ^ 56 + s.pairmOf d * 2 ^ 24 + s.enmOf d
  else if at_ 0x120000 0x60 then s.readWeir (off - 0x120000)
  else if at_ 0x120100 0x40 then
    let d := s.dom ((off - 0x120100) / 8)
    d.cur * 2 ^ 12 + d.busy.toNat * 2 ^ 8 + d.fsel
  else if off = 0x130000 then (!s.prwait.isEmpty).toNat * 2 ^ 30 + s.prbank
  else if at_ 0x131000 0x200 then s.readDomain ((off - 0x131000) / 0x40) (off % 0x40)
  else if at_ 0x140000 0x10000 then s.staged ((off - 0x140000) / 0x4000) ((off - 0x140000) % 0x4000 / 4)
  else if at_ 0x150000 0x10000 then
    let r := s.roots.get (0, false) ((off - 0x150000) / 16)
    if off % 16 = 0 then r.1 + r.2.toNat else 0
  else if at_ 0x160000 0x200 then
    let i := (off - 0x160000) / 8
    (s.bnext.get none i).isSome.toNat * 128 + s.bsizeOf i
  else if at_ 0x170000 0x30 then s.readFabric (off - 0x170000)
  else if at_ 0x170100 0x200 then s.readPeer ((off - 0x170100) / 8)
  else if at_ 0x180000 0x38 then s.readTraps (off - 0x180000)
  else if at_ 0x180100 0x40 then
    let d := s.die (6 + (off - 0x180100) / 8)
    d.halted.toNat * 4 + d.dbgen.toNat
  else if off = 0x190000 then s.box.nseq * 2 ^ 32 + s.box.freeze.toNat * 2 ^ 31 + s.box.drops
  else 0

end Sys2Proof.Machine
end

