-- ==== Sys2Proof/Machine/SfnBound.lean ====
section
/-! DEFINITION. The bounds of the special functions (R215, Table 9-4). The algebraic functions are checked exactly.
The others are enclosed: their value is computed in fixed point, and a result counts as within its bound where it is so
for every value within the error of that computation (assumption log, entry 7). -/
namespace Sys2Proof.Machine

/-! ## Fixed point: the integer n stands for n / 2^192 -/

def fixOne : Int := 2 ^ 192
/-- The integer part of a dyadic number times 2^p. -/
def Dy.scaled (x : Dy) (p : Int) : Int := if 0 ≤ x.e + p then x.m * 2 ^ (x.e + p).toNat else x.m / 2 ^ (-(x.e + p)).toNat
def Dy.fix (x : Dy) : Int := x.scaled 192
def fixMul (a b : Int) : Int := a * b / fixOne

/-! 2π in 330 fraction bits; ln 2, 1 / ln 2 and 2 / √π in 192. -/
def twoPi : Int := 0x1921fb54442d18469898cc51701b839a252049c1114cf98e804177d4c76273644a29410f31c6809bbdf2
def ln2 : Int := 0xb17217f7d1cf79abc9e3b39803f2f6af40f343267298b62d
def log2e : Int := 0x171547652b82fe1777d0ffda0d23a7d11d6aef551bad2b4b1
def twoOverRootPi : Int := 0x120dd750429b6d11ae3a914fed7fd8688281341d7587cea2e

/-- The sum of `n` terms, the first 1, each the one before times `step i`. -/
def series (step : Int → Int → Int) (weigh : Int → Int → Int) (n : Nat) : Int :=
  ((List.range n).foldl (fun (p : Int × Int) (i : Nat) => let t := step i p.2; (p.1 + weigh i t, t)) (fixOne, fixOne)).1

/-- e^z for 0 ≤ z < 1. -/
def fixExp (z : Int) : Int := series (fun i t => fixMul t z / (i + 1)) (fun _ t => t) 60

/-- 2^y for y in fixed point. -/
def pow2 (y : Int) : Dy := ⟨fixExp (fixMul (y % fixOne) ln2), y / fixOne - 192⟩

/-- e^x. -/
def Dy.exp (x : Dy) : Dy := pow2 (x.scaled 384 * log2e / 2 ^ 384)

/-- The first `n` fraction bits of log2 of y, 1 ≤ y < 2. -/
def log2Bits : Nat → Int → Int → Int
  | 0, _, acc => acc
  | n + 1, y, acc =>
    let q := fixMul y y
    if 2 * fixOne ≤ q then log2Bits n (q / 2) (2 * acc + 1) else log2Bits n q (2 * acc)

/-- sin z / z and cos z from z² for |z| ≤ π; erf z / (z × 2 / √π) from z² for |z| < 4. -/
def sinSeries (zz : Int) : Int := series (fun i t => -(fixMul t zz) / ((2 * i + 2) * (2 * i + 3))) (fun _ t => t) 40
def cosSeries (zz : Int) : Int := series (fun i t => -(fixMul t zz) / ((2 * i + 1) * (2 * i + 2))) (fun _ t => t) 40
def erfSeries (zz : Int) : Int := series (fun i t => -(fixMul t zz) / (i + 1)) (fun i t => t / (2 * i + 3)) 110

/-- x less a multiple of 2π, in fixed point, from −π to π. -/
def Dy.reduced (x : Dy) : Int :=
  let r := x.scaled 330 % twoPi
  (if twoPi < 2 * r then r - twoPi else r) / 2 ^ 138

def Dy.square (x : Dy) : Dy := x.mul x
def Dy.neg (x : Dy) : Dy := ⟨-x.m, x.e⟩
def Dy.abs (x : Dy) : Dy := ⟨x.m.natAbs, x.e⟩
def Dy.le (a b : Dy) : Bool := !(b.lt a)
/-- The place of the highest bit of a nonzero number: floor(log2 |x|). -/
def Dy.top (x : Dy) : Int := Nat.log2 x.m.natAbs + x.e
/-- 2^e. -/
def Dy.pow (e : Int) : Dy := ⟨1, e⟩

/-- A close value of function `f` (3 to 9) at a finite nonzero x. -/
def sfnMid (f : Nat) (x : Dy) : Dy :=
  match f with
  | 3 => pow2 x.fix
  | 4 =>
    let k : Int := Nat.log2 x.m.natAbs
    ⟨(k + x.e) * 2 ^ 140 + log2Bits 140 (Dy.fix ⟨x.m, -k⟩) 0, -140⟩
  | 5 =>
    if (x.abs).lt (.pow (-6)) then ⟨x.m * sinSeries x.square.fix, x.e - 192⟩
    else let z := x.reduced; ⟨z * sinSeries (fixMul z z), -384⟩
  | 6 => let z := x.reduced; ⟨cosSeries (fixMul z z), -192⟩
  | 7 =>
    if (x.abs).lt (.pow (-24)) then
      let q := x.square.fix
      let q2 := fixMul q q
      ⟨x.m * (fixOne - q / 3 + 2 * q2 / 15 - 17 * fixMul q q2 / 315), x.e - 192⟩
    else
      let e := (Dy.exp ⟨2 * x.m.natAbs, x.e⟩).fix
      ⟨x.m.sign * ((e - fixOne) * fixOne / (e + fixOne)), -192⟩
  | 8 =>
    let e := Dy.exp x.abs.neg
    let den := fixOne + e.fix
    if 0 ≤ x.m then ⟨fixOne * fixOne / den, -192⟩ else ⟨e.m * fixOne / den, e.e⟩
  | _ => ⟨x.m * fixMul twoOverRootPi (erfSeries x.square.fix), x.e - 192⟩

/-- ulp(y) of R215 for a nonzero y. -/
def ulpOf (y : Dy) : Dy := .pow (max (y.top - 23) (-149))

/-- The bound of Table 9-4 for functions 3 to 9 at x, where `y` lies in the binade of the function's value. COS has the
absolute bound everywhere. DEDUCED: log entry 145. -/
def sfnBound (f : Nat) (x y : Dy) : Dy :=
  let ulps := fun (k : Int) => (⟨k, 0⟩ : Dy).mul (ulpOf y)
  match f with
  | 3 => ulps 2
  | 4 => if (x.lt (.pow (-1))) || (Dy.lt (.pow 1) x) then ulps 2 else .pow (-22)
  | 5 => if (x.abs).lt (.pow (-6)) then ulps 2 else .pow (-21)
  | 6 => .pow (-21)
  | 8 => ulps 3
  | _ => if (x.abs).lt (.pow (-4)) then ulps 2 else ulps 3

/-- Two numbers between which |f(x)| lies, on one side of every power of two. EX2 and SIGM near 1 and 1/2 need the closer
pair; |sin x| and |tanh x| are below |x|. -/
def sfnRange (f : Nat) (x : Dy) : Dy × Dy :=
  let y := (sfnMid f x).abs
  let d : Dy := ⟨y.m, y.e - (if f = 3 ∨ f = 8 then 170 else 120)⟩
  let hi := y.add d
  (y.add d.neg, if (f = 5 ∨ f = 7) ∧ x.abs.lt hi then x.abs else hi)

/-- ulp(1 / x), ulp(1 / √x) and ulp(√x) where the value is no power of two. -/
def ulpAlg (f : Nat) (x : Dy) : Dy :=
  match f with
  | 0 => .pow (max (-x.top - 24) (-149))
  | 1 => .pow ((-x.top - 1) / 2 - 23)
  | _ => .pow (x.top / 2 - 23)

/-- The value `c` is within the bound of Table 9-4 for function `f` at a finite nonzero x. RCP: |cx − 1| ≤ ulp × |x|.
RSQ: (c − ulp)² x ≤ 1 ≤ (c + ulp)² x. SQRT: (c − ulp)² ≤ x ≤ (c + ulp)². -/
def sfnWithin (f : Nat) (x c : Dy) : Bool :=
  let u := ulpAlg f x
  match f with
  | 0 => (((c.mul x).add ⟨-1, 0⟩).abs).le (u.mul x.abs)
  | 1 => !(c.add u).lt ⟨0, 0⟩ && Dy.le ⟨1, 0⟩ ((c.add u).square.mul x) &&
      ((c.add u.neg).lt ⟨0, 0⟩ || ((c.add u.neg).square.mul x).le ⟨1, 0⟩)
  | 2 => !(c.add u).lt ⟨0, 0⟩ && x.le (c.add u).square && ((c.add u.neg).lt ⟨0, 0⟩ || (c.add u.neg).square.le x)
  | _ =>
    let r := sfnRange f x
    let c := if (sfnMid f x).m < 0 then c.neg else c
    let b := sfnBound f x r.1
    (c.add b.neg).le r.1 && r.2.le (c.add b)

/-- The largest number whose square is at most n, bit by bit. -/
def isqrtBits : Nat → Nat → Nat → Nat
  | 0, _, r => r
  | k + 1, n, r => if (r + 2 ^ k) * (r + 2 ^ k) ≤ n then isqrtBits k n (r + 2 ^ k) else isqrtBits k n r

/-- A close value of every function, to round. -/
def sfnClose (f : Nat) (x : Dy) : Dy :=
  match f with
  | 0 => let k := Nat.log2 x.m.natAbs; ⟨2 ^ (k + 60) / x.m, -(k : Int) - 60 - x.e⟩
  | 1 =>
    let h := x.e % 2
    let m := x.m.natAbs * 2 ^ h.toNat
    ⟨isqrtBits 101 (2 ^ 200 / m) 0, -100 - (x.e - h) / 2⟩
  | 2 =>
    let h := x.e % 2
    ⟨isqrtBits 101 (x.m.natAbs * 2 ^ h.toNat * 2 ^ 100) 0, (x.e - h) / 2 - 50⟩
  | _ => sfnMid f x

/-- The value delivered: the fixed function's where it is finite and within the bound, else the close value
rounded, which is. -/
def sfnDelivered (f : Nat) (w : Word) : Nat :=
  let x := (fp32.decode w.toNat).dy
  let c := Config.sfnValue f w
  let ok := match fp32.decode c.toNat with
    | .fin neg m e => sfnWithin f x ⟨if neg then -(m : Int) else m, e⟩
    | _ => false
  if ok then c.toNat
  else
    let r := (fp32.roundDy 0 (sfnClose f x) false).1
    if r % 2 ^ 31 = 0x7F800000 then r - 1 else r

end Sys2Proof.Machine
end

