-- ==== Sys2Proof/Machine/Sfn.lean ====
section
/-! DEFINITION. The special functions (R213 to R215). Special arguments, exact results, overflow and
the intervals with one delivered value are computed; elsewhere the value is Config.sfnValue's, a fixed
function of the argument, kept within the bounds of Table 9-4 (log entry 7). -/
namespace Sys2Proof.Machine

def f32Inf (neg : Bool) : Nat := fp32.withSign neg 0x7F800000
def f32One (neg : Bool) : Nat := fp32.withSign neg 0x3F800000
def f32Zero (neg : Bool) : Nat := fp32.withSign neg 0

/-- Table 9-3, for an argument that is zero or infinite, or negative where the function has no value
there, and LG2 of 1. -/
def sfnSpecial (f : Nat) (x : FVal) : Option FRes :=
  let nan := some (fp32.nan, fNV)
  let negative := x.neg && !x.isZero
  match f with
  | 0 => if x.isZero then some (f32Inf x.neg, fDZ) else if x.isInf then some (f32Zero x.neg, 0) else none
  | 1 => if negative then nan else if x.isZero then some (f32Inf x.neg, 0) else if x.isInf then some (0, 0) else none
  | 2 => if negative then nan else if x.isZero then some (f32Zero x.neg, 0) else if x.isInf then some (f32Inf false, 0) else none
  | 3 => if x.isZero then some (f32One false, 0)
         else if x.isInf then some (if x.neg then 0 else f32Inf false, 0) else none
  | 4 => if x.isZero then some (f32Inf true, 0) else if negative then nan
         else if x.isInf then some (f32Inf false, 0) else none
  | 5 => if x.isZero then some (f32Zero x.neg, 0) else if x.isInf then nan else none
  | 6 => if x.isZero then some (f32One false, 0) else if x.isInf then nan else none
  | 8 => if x.isZero then some (0x3F000000, 0)
         else if x.isInf then some (if x.neg then 0 else f32One false, 0) else none
  | _ => if x.isZero then some (f32Zero x.neg, 0) else if x.isInf then some (f32One x.neg, 0) else none

/-- m without its factors of two, and how many it had, by fuel. -/
def oddPart : Nat → Nat → Nat × Nat
  | 0, m => (m, 0)
  | n + 1, m => if m % 2 = 0 ∧ m ≠ 0 then let r := oddPart n (m / 2); (r.1, r.2 + 1) else (m, 0)

/-- f(x) where it is a dyadic number, for a finite nonzero x (R214). The other functions have none. -/
def sfnExact (f : Nat) (neg : Bool) (m : Nat) (e : Int) : Option Dy :=
  let o := oddPart 64 m
  let k : Int := e + o.2
  match f with
  | 0 => if o.1 = 1 then some ⟨if neg then -1 else 1, -k⟩ else none
  | 1 => if o.1 = 1 ∧ k % 2 = 0 then some ⟨1, -(k / 2)⟩ else none
  | 2 =>
    let r := isqrtBits 13 o.1 0
    if k % 2 = 0 ∧ r * r = o.1 then some ⟨r, k / 2⟩ else none
  | 3 => if 0 ≤ k ∧ k < 40 then some ⟨1, (if neg then -1 else 1) * (o.1 * 2 ^ k.toNat : Nat)⟩ else none
  | 4 => if o.1 = 1 then some ⟨k, 0⟩ else none
  | _ => none

/-- The dyadic number is an FP32 value. -/
def Dy.isF32 (x : Dy) : Bool := x.m == 0 || (fp32.round 0 (decide (x.m < 0)) x.m.natAbs x.e).2 == 0

/-- c / d ≤ |x|, and |x| < c / d, for a finite x. -/
def atLeast (m : Nat) (e : Int) (c d : Nat) : Bool := !(Dy.lt ⟨m * d, e⟩ ⟨c, 0⟩)

/-- |f(x)| is at least 2^128 (R214). -/
def sfnHuge (f : Nat) (neg : Bool) (m : Nat) (e : Int) : Bool :=
  match f with
  | 0 => !(Dy.lt ⟨1, -128⟩ ⟨m, e⟩)
  | 3 => !neg && atLeast m e 128 1
  | _ => false

/-- f(x) is nonzero and |f(x)| is below 2^−126 (R214). The bound for ERF is 2^−126 × √π / 2, and for
SIGM −126 ln 2, each between two neighbouring FP32 values. -/
def sfnTiny (f : Nat) (neg : Bool) (m : Nat) (e : Int) : Bool :=
  match f with
  | 0 => Dy.lt ⟨1, 126⟩ ⟨m, e⟩
  | 3 => neg && Dy.lt ⟨126, 0⟩ ⟨m, e⟩
  | 5 | 7 => !(Dy.lt ⟨1, -126⟩ ⟨m, e⟩)
  | 8 => neg && atLeast m e 873365447505531 10000000000000
  | 9 => !(Dy.lt ⟨7434210, -149⟩ ⟨m, e⟩)
  | _ => false

/-- The intervals on which Table 9-4 gives the delivered value itself. -/
def sfnFixed (f : Nat) (neg : Bool) (m : Nat) (e : Int) : Option Nat :=
  match f with
  | 3 => if neg && atLeast m e 150 1 then some 0 else none
  | 7 => if atLeast m e 91 10 then some (f32One neg) else none
  | 8 => if neg && atLeast m e 104 1 then some 0
         else if !neg && atLeast m e 35 2 then some (f32One false) else none
  | 9 => if atLeast m e 4 1 then some (f32One neg) else none
  | _ => none

/-- SFN of an FP32 value (R213 to R215). -/
def sfn (f : Nat) (w : Word) : FRes :=
  let x := fp32.decode w.toNat
  match x with
  | .nan sig => (fp32.nan, if sig then fNV else 0)
  | .inf _ => (sfnSpecial f x).getD (fp32.nan, fNV)
  | .fin neg m e =>
    match sfnSpecial f x with
    | some r => r
    | none =>
      let uf := if sfnTiny f neg m e then fUF ||| fNX else fNX
      let rest : FRes :=
        if sfnHuge f neg m e then (f32Inf (f == 0 && neg), fOF ||| fNX)
        else match sfnFixed f neg m e with
          | some y => (y, uf)
          | none => (sfnDelivered f w, uf)
      match sfnExact f neg m e with
      | some y => if y.isF32 then ((fp32.roundDy 0 y false).1, 0) else rest
      | none => rest

def execSfn (d a f : BitVec 7) (_r n : BitVec 1) (g : BitVec 2) (s : State) : Res :=
  .next (s.fop d [a.toNat] n g.toNat (fun l => sfn f.toNat (s.src a.toNat 0 l)))

end Sys2Proof.Machine
end

