-- ==== Sys2Proof/Machine/Dispatch.lean ====
section
/-! DEFINITION. The dispatcher: one arm per constructor, each a direct call of the meaning. -/
namespace Sys2Proof.Machine

def exec (i : Instr) (s : State) : Host.Outcome State Fault Refusal :=
  match i with
  | .bra c o => Sys2Proof.Machine.execBra c o s
  | .call c o => Sys2Proof.Machine.execCall c o s
  | .kbra z k o => Sys2Proof.Machine.execKbra z k o s
  | .brx a r g => Sys2Proof.Machine.execBrx a r g s
  | .callx a r g => Sys2Proof.Machine.execCallx a r g s
  | .ret g => Sys2Proof.Machine.execRet g s
  | .exit g => Sys2Proof.Machine.execExit g s
  | .nop => Sys2Proof.Machine.execNop s
  | .yield => Sys2Proof.Machine.execYield s
  | .regn => Sys2Proof.Machine.execRegn s
  | .trap ix => Sys2Proof.Machine.execTrap ix s
  | .brk ix => Sys2Proof.Machine.execBrk ix s
  | .waitc t l z c n => Sys2Proof.Machine.execWaitc t l z c n s
  | .spawn a b r g => Sys2Proof.Machine.execSpawn a b r g s
  | .kadd d a b r => Sys2Proof.Machine.execKadd d a b r s
  | .ksub d a b r => Sys2Proof.Machine.execKsub d a b r s
  | .kmul24 d a b r m => Sys2Proof.Machine.execKmul24 d a b r m s
  | .kmul32 d a b r => Sys2Proof.Machine.execKmul32 d a b r s
  | .kand d a b r => Sys2Proof.Machine.execKand d a b r s
  | .kor d a b r => Sys2Proof.Machine.execKor d a b r s
  | .kxor d a b r => Sys2Proof.Machine.execKxor d a b r s
  | .kshl d a b r => Sys2Proof.Machine.execKshl d a b r s
  | .kshr d a b r => Sys2Proof.Machine.execKshr d a b r s
  | .ksar d a b r => Sys2Proof.Machine.execKsar d a b r s
  | .kmin d a b r m => Sys2Proof.Machine.execKmin d a b r m s
  | .kmax d a b r m => Sys2Proof.Machine.execKmax d a b r m s
  | .ksel d a b r => Sys2Proof.Machine.execKsel d a b r s
  | .kcmp d a b r m c => Sys2Proof.Machine.execKcmp d a b r m c s
  | .kli d ix => Sys2Proof.Machine.execKli d ix s
  | .klih d ix => Sys2Proof.Machine.execKlih d ix s
  | .vtok d a b => Sys2Proof.Machine.execVtok d a b s
  | .iadd d a b r g => Sys2Proof.Machine.execIadd d a b r g s
  | .isub d a b r g => Sys2Proof.Machine.execIsub d a b r g s
  | .iadd64 d a b r g => Sys2Proof.Machine.execIadd64 d a b r g s
  | .imul24 d a b r m g => Sys2Proof.Machine.execImul24 d a b r m g s
  | .imul24h d a b r m g => Sys2Proof.Machine.execImul24h d a b r m g s
  | .imul32 d a b r g => Sys2Proof.Machine.execImul32 d a b r g s
  | .imulh d a b r m g => Sys2Proof.Machine.execImulh d a b r m g s
  | .imad24 d a b r m g => Sys2Proof.Machine.execImad24 d a b r m g s
  | .iand d a b r g => Sys2Proof.Machine.execIand d a b r g s
  | .ior d a b r g => Sys2Proof.Machine.execIor d a b r g s
  | .ixor d a b r g => Sys2Proof.Machine.execIxor d a b r g s
  | .ishl d a b r g => Sys2Proof.Machine.execIshl d a b r g s
  | .irot d a b r g => Sys2Proof.Machine.execIrot d a b r g s
  | .ishr d a b r g => Sys2Proof.Machine.execIshr d a b r g s
  | .isar d a b r g => Sys2Proof.Machine.execIsar d a b r g s
  | .imin d a b r m g => Sys2Proof.Machine.execImin d a b r m g s
  | .imax d a b r m g => Sys2Proof.Machine.execImax d a b r m g s
  | .icmp c e a b r m g => Sys2Proof.Machine.execIcmp c e a b r m g s
  | .isel d a b r g => Sys2Proof.Machine.execIsel d a b r g s
  | .mov d a => Sys2Proof.Machine.execMov d a s
  | .popc d a => Sys2Proof.Machine.execPopc d a s
  | .clz d a => Sys2Proof.Machine.execClz d a s
  | .brev d a => Sys2Proof.Machine.execBrev d a s
  | .iabs d a => Sys2Proof.Machine.execIabs d a s
  | .bfeZ32 d a b => Sys2Proof.Machine.execBfeZ32 d a b s
  | .bfeS32 d a b => Sys2Proof.Machine.execBfeS32 d a b s
  | .bfi d a b => Sys2Proof.Machine.execBfi d a b s
  | .idot4S8 d a b => Sys2Proof.Machine.execIdot4S8 d a b s
  | .idot4Z8 d a b => Sys2Proof.Machine.execIdot4Z8 d a b s
  | .li d ix => Sys2Proof.Machine.execLi d ix s
  | .lih d ix => Sys2Proof.Machine.execLih d ix s
  | .fadd d a b r n g => Sys2Proof.Machine.execFadd d a b r n g s
  | .fsub d a b r n g => Sys2Proof.Machine.execFsub d a b r n g s
  | .fmul d a b r n g => Sys2Proof.Machine.execFmul d a b r n g s
  | .ffma d a b r n g => Sys2Proof.Machine.execFfma d a b r n g s
  | .fmin d a b r n g => Sys2Proof.Machine.execFmin d a b r n g s
  | .fmax d a b r n g => Sys2Proof.Machine.execFmax d a b r n g s
  | .fcmp c e a b r n g => Sys2Proof.Machine.execFcmp c e a b r n g s
  | .fclass d a r g => Sys2Proof.Machine.execFclass d a r g s
  | .frnd d a b r n g => Sys2Proof.Machine.execFrnd d a b r n g s
  | .fscale d a b r n g => Sys2Proof.Machine.execFscale d a b r n g s
  | .fadd2F16 d a b r n g => Sys2Proof.Machine.execFadd2F16 d a b r n g s
  | .fadd2Bf16 d a b r n g => Sys2Proof.Machine.execFadd2Bf16 d a b r n g s
  | .ffma2F16 d a b r n g => Sys2Proof.Machine.execFfma2F16 d a b r n g s
  | .ffma2Bf16 d a b r n g => Sys2Proof.Machine.execFfma2Bf16 d a b r n g s
  | .fdot2F16 d a b r n g => Sys2Proof.Machine.execFdot2F16 d a b r n g s
  | .fdot2Bf16 d a b r n g => Sys2Proof.Machine.execFdot2Bf16 d a b r n g s
  | .cvt d a t z e => Sys2Proof.Machine.execCvt d a t z e s
  | .cvtn d a t z e => Sys2Proof.Machine.execCvtn d a t z e s
  | .packF8e4 d a b r h g => Sys2Proof.Machine.execPackF8e4 d a b r h g s
  | .packF8e5 d a b r h g => Sys2Proof.Machine.execPackF8e5 d a b r h g s
  | .unpack d a b z => Sys2Proof.Machine.execUnpack d a b z s
  | .qblk d a z => Sys2Proof.Machine.execQblk d a z s
  | .sfn d a f r n g => Sys2Proof.Machine.execSfn d a f r n g s
  | .vote d a b z => Sys2Proof.Machine.execVote d a b z s
  | .shfl d a b z => Sys2Proof.Machine.execShfl d a b z s
  | .perm d a p z => Sys2Proof.Machine.execPerm d a p z s
  | .redx d a b z => Sys2Proof.Machine.execRedx d a b z s
  | .scanx d a b z => Sys2Proof.Machine.execScanx d a b z s
  | .matchx d a b z => Sys2Proof.Machine.execMatchx d a b z s
  | .elect e b => Sys2Proof.Machine.execElect e b s
  | .crossLaneComplete rill pc => Sys2Proof.Machine.execCrossLaneComplete rill pc s
  | .ld8 d a o f r g => Sys2Proof.Machine.execLd8 d a o f r g s
  | .ld16 d a o f r g => Sys2Proof.Machine.execLd16 d a o f r g s
  | .ld32 d a o f r g => Sys2Proof.Machine.execLd32 d a o f r g s
  | .ld64 d a o f r g => Sys2Proof.Machine.execLd64 d a o f r g s
  | .ld128 d a o f r g => Sys2Proof.Machine.execLd128 d a o f r g s
  | .st8 d a o f r g => Sys2Proof.Machine.execSt8 d a o f r g s
  | .st16 d a o f r g => Sys2Proof.Machine.execSt16 d a o f r g s
  | .st32 d a o f r g => Sys2Proof.Machine.execSt32 d a o f r g s
  | .st64 d a o f r g => Sys2Proof.Machine.execSt64 d a o f r g s
  | .st128 d a o f r g => Sys2Proof.Machine.execSt128 d a o f r g s
  | .ldk d a o f r z => Sys2Proof.Machine.execLdk d a o f r z s
  | .stk d a o f r z => Sys2Proof.Machine.execStk d a o f r z s
  | .ldl d a z f g => Sys2Proof.Machine.execLdl d a z f g s
  | .stl d a z f g => Sys2Proof.Machine.execStl d a z f g s
  | .atom32 d a o z r g => Sys2Proof.Machine.execAtom32 d a o z r g s
  | .atom64 d a o z r g => Sys2Proof.Machine.execAtom64 d a o z r g s
  | .red32 d a o z r g => Sys2Proof.Machine.execRed32 d a o z r g s
  | .red64 d a o z r g => Sys2Proof.Machine.execRed64 d a o z r g s
  | .acopy h d a b r l g => Sys2Proof.Machine.execAcopy h d a b r l g s
  | .rcopy a r g => Sys2Proof.Machine.execRcopy a r g s
  | .pref a r g => Sys2Proof.Machine.execPref a r g s
  | .prefSc d a r g => Sys2Proof.Machine.execPrefSc d a r g s
  | .invl1 a r g => Sys2Proof.Machine.execInvl1 a r g s
  | .invl1All g => Sys2Proof.Machine.execInvl1All g s
  | .setobs z a r g => Sys2Proof.Machine.execSetobs z a r g s
  | .fence k m => Sys2Proof.Machine.execFence k m s
  | .tmma a r m g => Sys2Proof.Machine.execTmma a r m g s
  | .tzero z m g => Sys2Proof.Machine.execTzero z m g s
  | .tlda t z a r m g => Sys2Proof.Machine.execTlda t z a r m g s
  | .tsta t z a r m g => Sys2Proof.Machine.execTsta t z a r m g s
  | .tcvt t z a r m g => Sys2Proof.Machine.execTcvt t z a r m g s
  | .twait m g => Sys2Proof.Machine.execTwait m g s
  | .tprog d m g => Sys2Proof.Machine.execTprog d m g s
  | .barInit a b => Sys2Proof.Machine.execBarInit a b s
  | .arrive d a b => Sys2Proof.Machine.execArrive d a b s
  | .arriveD t a b => Sys2Proof.Machine.execArriveD t a b s
  | .bwait a b => Sys2Proof.Machine.execBwait a b s
  | .ringPost r => Sys2Proof.Machine.execRingPost r s
  | .ringPostSize r z => Sys2Proof.Machine.execRingPostSize r z s
  | .ringWait r a => Sys2Proof.Machine.execRingWait r a s
  | .vfsend a => Sys2Proof.Machine.execVfsend a s
  | .vfrecv d => Sys2Proof.Machine.execVfrecv d s
  | .xacq => Sys2Proof.Machine.execXacq s
  | .xrel => Sys2Proof.Machine.execXrel s
  | .wbase w k => Sys2Proof.Machine.execWbase w k s
  | .coll a r g => Sys2Proof.Machine.execColl a r g s
  | .rop a r g => Sys2Proof.Machine.execRop a r g s
  | .pint a b => Sys2Proof.Machine.execPint a b s
  | .eqres d a => Sys2Proof.Machine.execEqres d a s
  | .mfs d ix g => Sys2Proof.Machine.execMfs d ix g s
  | .mts d ix g => Sys2Proof.Machine.execMts d ix g s
  | .eretRetry => Sys2Proof.Machine.execEretRetry s
  | .eretCont => Sys2Proof.Machine.execEretCont s
  | .eretKill => Sys2Proof.Machine.execEretKill s
  | .cctlClean d => Sys2Proof.Machine.execCctlClean d s
  | .cctlEvict d => Sys2Proof.Machine.execCctlEvict d s
  | .tlbinvAll => Sys2Proof.Machine.execTlbinvAll s
  | .tlbinvCtx d => Sys2Proof.Machine.execTlbinvCtx d s
  | .tlbinvPage d => Sys2Proof.Machine.execTlbinvPage d s
  | .halt => Sys2Proof.Machine.execHalt s
  | .waitEnd rill ix => Sys2Proof.Machine.execWaitEnd rill ix s
  | .issueDrawCycle core => Sys2Proof.Machine.execIssueDrawCycle core s
  | .reservationJoin core rill => Sys2Proof.Machine.execReservationJoin core rill s
  | .epochRefill dom => Sys2Proof.Machine.execEpochRefill dom s
  | .priceCommit v => Sys2Proof.Machine.execPriceCommit v s
  | .corePriceSwitch core => Sys2Proof.Machine.execCorePriceSwitch core s
  | .dcapWrite dom v => Sys2Proof.Machine.execDcapWrite dom v s
  | .qtailWrite q v => Sys2Proof.Machine.execQtailWrite q v s
  | .qheadWrite q v => Sys2Proof.Machine.execQheadWrite q v s
  | .haltClear q => Sys2Proof.Machine.execHaltClear q s
  | .abort q => Sys2Proof.Machine.execAbort q s
  | .registerWrite off v => Sys2Proof.Machine.execRegisterWrite off v s
  | .arbiterGrant cp => Sys2Proof.Machine.execArbiterGrant cp s
  | .fenceObjectRead q ix => Sys2Proof.Machine.execFenceObjectRead q ix s
  | .prologueLimit cp => Sys2Proof.Machine.execPrologueLimit cp s
  | .windowInstall => Sys2Proof.Machine.execWindowInstall s
  | .completionCountReport die lid => Sys2Proof.Machine.execCompletionCountReport die lid s
  | .launchRetire lid => Sys2Proof.Machine.execLaunchRetire lid s
  | .placementEvaluation die => Sys2Proof.Machine.execPlacementEvaluation die s
  | .candidateWaitLimit die lid => Sys2Proof.Machine.execCandidateWaitLimit die lid s
  | .groupStart room => Sys2Proof.Machine.execGroupStart room s
  | .spanReservationRequest tower => Sys2Proof.Machine.execSpanReservationRequest tower s
  | .spanReservationReply tower => Sys2Proof.Machine.execSpanReservationReply tower s
  | .unitPlacedReport die lid => Sys2Proof.Machine.execUnitPlacedReport die lid s
  | .maskReport die => Sys2Proof.Machine.execMaskReport die s
  | .loadReturn rill id lane useL1 => Sys2Proof.Machine.execLoadReturn rill id lane useL1 s
  | .storeVisible rill id lane => Sys2Proof.Machine.execStoreVisible rill id lane s
  | .atomicPerform rill id lane => Sys2Proof.Machine.execAtomicPerform rill id lane s
  | .vtokWrite rill => Sys2Proof.Machine.execVtokWrite rill s
  | .copyLineWrite rill tag => Sys2Proof.Machine.execCopyLineWrite rill tag s
  | .deferredArrivalCount rill ix => Sys2Proof.Machine.execDeferredArrivalCount rill ix s
  | .rcopyUnit rill id => Sys2Proof.Machine.execRcopyUnit rill id s
  | .rcopyComplete rill id => Sys2Proof.Machine.execRcopyComplete rill id s
  | .tileOperandLine unit isB => Sys2Proof.Machine.execTileOperandLine unit isB s
  | .tileKstep unit => Sys2Proof.Machine.execTileKstep unit s
  | .tileOpComplete unit => Sys2Proof.Machine.execTileOpComplete unit s
  | .barrierDoneMessage group => Sys2Proof.Machine.execBarrierDoneMessage group s
  | .flumeEntryDelivery chan => Sys2Proof.Machine.execFlumeEntryDelivery chan s
  | .flumeCredit chan => Sys2Proof.Machine.execFlumeCredit chan s
  | .eventRecordWrite => Sys2Proof.Machine.execEventRecordWrite s
  | .eventResolve v => Sys2Proof.Machine.execEventResolve v s
  | .rillRetire rill => Sys2Proof.Machine.execRillRetire rill s
  | .preemptQueue v => Sys2Proof.Machine.execPreemptQueue v s
  | .preemptRestore v => Sys2Proof.Machine.execPreemptRestore v s
  | .contextSaveComplete room => Sys2Proof.Machine.execContextSaveComplete room s
  | .deferredPreemption => Sys2Proof.Machine.execDeferredPreemption s
  | .gateLayer tower => Sys2Proof.Machine.execGateLayer tower s
  | .restoreLayer tower => Sys2Proof.Machine.execRestoreLayer tower s
  | .gatePowerOff tower => Sys2Proof.Machine.execGatePowerOff tower s
  | .restoreComplete tower => Sys2Proof.Machine.execRestoreComplete tower s
  | .debugHaltRequest die => Sys2Proof.Machine.execDebugHaltRequest die s
  | .debugHalted die => Sys2Proof.Machine.execDebugHalted die s
  | .debugRun die => Sys2Proof.Machine.execDebugRun die s
  | .linkResponseWatchdog link => Sys2Proof.Machine.execLinkResponseWatchdog link s
  | .packageReset => Sys2Proof.Machine.execPackageReset s
  | .attestationAttempt die code => Sys2Proof.Machine.execAttestationAttempt die code s
  | .attestationTimeout die => Sys2Proof.Machine.execAttestationTimeout die s
  | .linkkey dir receiver => Sys2Proof.Machine.execLinkkey dir receiver s
  | .dieOpen die => Sys2Proof.Machine.execDieOpen die s
  | .rollRequest die => Sys2Proof.Machine.execRollRequest die s
  | .keyRolloverCount dir => Sys2Proof.Machine.execKeyRolloverCount dir s
  | .oldKeyErase dir => Sys2Proof.Machine.execOldKeyErase dir s
  | .linkTagFail dir second => Sys2Proof.Machine.execLinkTagFail dir second s
  | .dieResetRequest die => Sys2Proof.Machine.execDieResetRequest die s
  | .drainComplete die => Sys2Proof.Machine.execDrainComplete die s
  | .drainLimit die => Sys2Proof.Machine.execDrainLimit die s
  | .doeRequest kind => Sys2Proof.Machine.execDoeRequest kind s
  | .peerAttestation peer ok => Sys2Proof.Machine.execPeerAttestation peer ok s
  | .pstepAssert => Sys2Proof.Machine.execPstepAssert s
  | .pstepRelease => Sys2Proof.Machine.execPstepRelease s
  | .powerStepGo v => Sys2Proof.Machine.execPowerStepGo v s
  | .pcapWrite v => Sys2Proof.Machine.execPcapWrite v s
  | .weirPeriod pdraw demand full => Sys2Proof.Machine.execWeirPeriod pdraw demand full s
  | .peerIntentMessage dev cls fall lead => Sys2Proof.Machine.execPeerIntentMessage dev cls fall lead s
  | .peerIntentLapse dev => Sys2Proof.Machine.execPeerIntentLapse dev s
  | .fselWrite dom v => Sys2Proof.Machine.execFselWrite dom v s
  | .relockDone dom => Sys2Proof.Machine.execRelockDone dom s
  | .droopTrip dom => Sys2Proof.Machine.execDroopTrip dom s
  | .chargeUpdate mj => Sys2Proof.Machine.execChargeUpdate mj s
  | .thermalSample reading sensor => Sys2Proof.Machine.execThermalSample reading sensor s
  | .powerFail => Sys2Proof.Machine.execPowerFail s
  | .saveItemComplete atPort => Sys2Proof.Machine.execSaveItemComplete atPort s
  | .saveResume => Sys2Proof.Machine.execSaveResume s
  | .saveDiscard => Sys2Proof.Machine.execSaveDiscard s
  | .pageWalk core ctx va => Sys2Proof.Machine.execPageWalk core ctx va s
  | .bsizeWrite slice v => Sys2Proof.Machine.execBsizeWrite slice v s
  | .bsizeChangeDone slice => Sys2Proof.Machine.execBsizeChangeDone slice s
  | .treqs ix => Sys2Proof.Machine.execTreqs ix s
  | .treqx ix => Sys2Proof.Machine.execTreqx ix s
  | .tok ix => Sys2Proof.Machine.execTok ix s
  | .transientRequestTimeout line holder => Sys2Proof.Machine.execTransientRequestTimeout line holder s
  | .preq ix => Sys2Proof.Machine.execPreq ix s
  | .pact ix => Sys2Proof.Machine.execPact ix s
  | .pack ix => Sys2Proof.Machine.execPack ix s
  | .pdone ix => Sys2Proof.Machine.execPdone ix s
  | .pdeact ix => Sys2Proof.Machine.execPdeact ix s
  | .lineEvict line tower => Sys2Proof.Machine.execLineEvict line tower s
  | .coherenceRetransmit ix => Sys2Proof.Machine.execCoherenceRetransmit ix s
  | .hostMemRead addr kind => Sys2Proof.Machine.execHostMemRead addr kind s
  | .hostMemWrite addr data poison => Sys2Proof.Machine.execHostMemWrite addr data poison s
  | .hostWriteback line data shared poison => Sys2Proof.Machine.execHostWriteback line data shared poison s
  | .birspi line => Sys2Proof.Machine.execBirspi line s
  | .elmLossOfLight k => Sys2Proof.Machine.execElmLossOfLight k s
  | .elmLightReturn k => Sys2Proof.Machine.execElmLightReturn k s
  | .elmenWrite v => Sys2Proof.Machine.execElmenWrite v s
  | .dataFlit peer path flit => Sys2Proof.Machine.execDataFlit peer path flit s
  | .ackFlit peer ssn nak => Sys2Proof.Machine.execAckFlit peer ssn nak s
  | .pathControlFlit peer kind arg => Sys2Proof.Machine.execPathControlFlit peer kind arg s
  | .pathRejoin peer path => Sys2Proof.Machine.execPathRejoin peer path s
  | .replayTimeout peer ssn => Sys2Proof.Machine.execReplayTimeout peer ssn s
  | .setAnnouncement => Sys2Proof.Machine.execSetAnnouncement s
  | .holdMessage peer => Sys2Proof.Machine.execHoldMessage peer s
  | .remoteRequestAbandon req => Sys2Proof.Machine.execRemoteRequestAbandon req s
  | .sluiceRequest sluice src vc n u op addr data => Sys2Proof.Machine.execSluiceRequest sluice src vc n u op addr data s
  | .remoteResponse req code data => Sys2Proof.Machine.execRemoteResponse req code data s
  | .collectiveSignalRead ix bucket => Sys2Proof.Machine.execCollectiveSignalRead ix bucket s
  | .collectiveChunk ix bucket rank data exps hdr => Sys2Proof.Machine.execCollectiveChunk ix bucket rank data exps hdr s
  | .collectiveEnd ix => Sys2Proof.Machine.execCollectiveEnd ix s
  | .blackboxRecord => Sys2Proof.Machine.execBlackboxRecord s
  | .blackboxClear => Sys2Proof.Machine.execBlackboxClear s
  | .blackboxMctpRead idx => Sys2Proof.Machine.execBlackboxMctpRead idx s
  | .bootRecordClear => Sys2Proof.Machine.execBootRecordClear s
  | .powerRemoved => Sys2Proof.Machine.execPowerRemoved s

end Sys2Proof.Machine
end

