-- ==== Sys2Proof/Machine/Admit.lean ====
section
/-! DEFINITION. Which events the stream may bring about, local time, and the placing of one instruction. -/
namespace Sys2Proof.Machine

/-- Writes of the FED register space. -/
def isHostWrite : Instr → Bool
  | .registerWrite .. | .qtailWrite .. | .qheadWrite .. | .haltClear .. | .abort .. | .priceCommit .. | .dcapWrite ..
  | .eventResolve .. | .preemptQueue .. | .preemptRestore .. | .gateLayer .. | .restoreLayer .. | .debugHaltRequest ..
  | .debugRun .. | .rollRequest .. | .dieResetRequest .. | .powerStepGo .. | .pcapWrite .. | .fselWrite .. | .saveResume
  | .saveDiscard | .bsizeWrite .. | .elmenWrite .. | .blackboxClear => true
  | _ => false

/-- Power commands, which wait for a FED that is reset (Table 4-6). -/
def isPowerCommand : Instr → Bool
  | .powerStepGo .. | .pcapWrite .. | .fselWrite .. => true
  | .registerWrite off _ => decide (0x120000 ≤ off) && decide (off < 0x120060)
  | _ => false

/-- Units that a draw of R229 pays for: they come from the core's clock only, but for the copies that a save, or a
pre-emption on a halted die, completes (R427, R442), and the sending of an ROP and the passing of a collective, which no draw pays for. -/
def isPaidUnit : Instr → Bool
  | .copyLineWrite .. | .rcopyUnit .. | .tileKstep .. | .tileOperandLine .. | .reservationJoin .. => true
  | _ => false

/-- What the board can do to a package without power, or in SAVED. -/
def isBoardEvent : Instr → Bool
  | .packageReset | .powerRemoved | .bootRecordClear => true
  | _ => false

/-- The stream may bring the event about now. The host port reaches the registers through an ACTIVE IOD (R98). -/
def State.admits (s : State) (e : Instr) : Bool :=
  if s.boot.step = 0 ∨ s.save.saved then isBoardEvent e
  else if isHostWrite e then (s.die 1).st == .active && ((s.die 0).st == .active || isPowerCommand e)
  else if isPaidUnit e then
    (match e with
      | .copyLineWrite k _ => s.save.active || ((s.rill k).dropped && (s.die (keyDie k)).halted)
      | .rcopyUnit k id => (s.copyCmd k id).any (fun c => c.kind != .rcopy)
      | _ => false)
  else true

/-- Errors that ECC cannot correct are found, by the scrubber or by a read (R331), and instruction caches give up lines, at
any time. -/
def State.wear (s : State) (n : Nat) : State :=
  let s := match Config.upset n with
    | none => s
    | some (h, half) => s.upset h half
  match Config.icacheDrop n with
  | none => s
  | some (c, line) => s.icacheDrop c line

/-- Local time of each powered die runs on, in steps of 10 ns (R236). The FED's does not pass the time at which a Weir
period or a sample is due. -/
def State.passTime (s : State) : State :=
  let n := s.tick
  let due := min s.power.weirDue (min s.power.thermDue s.power.chargeDue)
  let bound := decide (10 < s.boot.step) && (s.die 0).st == .active && !s.save.saved
  let run := fun (d : Nat) (x : Die) =>
    let t := x.ltime.toNat + 10 * Config.elapsed n d
    let t := if d = 0 ∧ bound then max x.ltime.toNat (min t due) else t
    if x.st = .off then x else { x with ltime := BitVec.ofNat 64 t }
  let s := { s with tick := n + 1, dies := s.dies.map (fun (p : Nat × Die) => (p.1, run p.1 p.2)) }
  s.wear n

/-- A collective whose signal word has been stored to, with its next bucket (R387). -/
def State.signalDue (s : State) : Option (Nat × Nat) :=
  (s.fab.colls.zipIdx.find? (fun c => c.1.reread && !c.1.susp && c.1.status.isNone && decide (c.1.started < cBuckets c.1.block))).map
    (fun c => (c.2, c.1.started))

/-- A step of the stream: a read of a signal word that a store has made due, an event, or the next instruction of a command
processor. -/
def State.streamStep (s : State) : Res :=
  match s.signalDue with
  | some (i, bucket) =>
    execCollectiveSignalRead i bucket
      { s with fab := { s.fab with colls := s.fab.colls.zipIdx.map (fun c => if c.2 = i then { c.1 with reread := false } else c.1) } }
  | none =>
  let e := Config.nextEvent s.tick
  let cp := Config.processor s.tick % 4
  let t := s.passTime
  if e.isWord then (if t.cpMayIssue cp then issueWith exec (cpKey cp) t else .next t)
  else if t.admits e then exec e t
  else .next (if isHostWrite e && (t.die 1).st != .active then { t with reply := { unsupported := true } } else t)

/-! ## One instruction placed for the next step -/

/-- Key of the rill that runs a placed word: slot 0 of partition 0, or, for a privileged word, the agent's. -/
def placeKey (privileged : Bool) : Nat := if privileged then agentKey (coreKey 6 0) else slotKey (coreKey 6 0) 0 0

/-- Address, virtual and physical, of a placed word. -/
def placeAt : Nat := 0x10000

def placedRill : Rill :=
  { live := true, started := true, role := 3, width := 16, nvec := 192, nuni := 384, xregs := false
    th := (List.range 16).map (fun i => (i, { pc := BitVec.ofNat 64 placeAt, region := BitVec.ofNat 64 placeAt })) }

/-- A rill on an ACTIVE die of a package whose IOD, which has the page walker, is ACTIVE: it has been granted its issue, with the word at its PC and in its core's instruction cache, and
the page in its TLB. A privileged word is placed in the firmware image. -/
def State.place (s : State) (w : Nat) : State :=
  let i := decodeTableWord 32 w
  let privileged := i.any isPrivileged
  let k := placeKey privileged
  let s := s.modDie 6 (fun d => { d with st := .active, enm := 0xFFFFFF, hreq := false, halted := false })
  let s := s.modDie 1 (fun d => { d with st := .active })
  let word : Word := BitVec.ofNat 32 w
  let line : CacheLine := { bytes := toBytes 4 word.toNat ++ memRead s.dram (placeAt + 4) 124 }
  let s := s.modCore (coreKey 6 0) (fun c => { c with
    tlb := { ctx := 0, base := placeAt, size := 65536, leaf := { tgt := 0, addr := placeAt, x := true } } :: c.tlb
    icache := [(placeAt / 128, line)] })
  let s := s.setRill k { placedRill with agent := privileged }
  { s with
    save := { s.save with active := false, saved := false }, agenda := [], grants := [k], dear := [], granted := []
    dram := if privileged then s.dram else memWrite s.dram placeAt (toBytes 4 word.toNat)
    fw := if privileged then s.fw.set (placeAt / 4) word else s.fw }

end Sys2Proof.Machine
end

