-- ==== Sys2Proof/Machine/Step.lean ====
section
/-! DEFINITION. One step of the machine: an event that is due, an issue that has been granted, or the stream. -/
namespace Sys2Proof.Machine

def step (s : State) : Host.Outcome State Fault Refusal :=
  match s.agenda, s.grants with
  | e :: r, _ => exec e { s with agenda := r }
  | [], k :: r => issueWith exec k { s with grants := r }
  | [], [] => s.streamStep

/-- The table's word `w` placed where the next step issues. -/
def State.withFetchWord (s : State) (nbits w : Nat) : State := s.place (w % 2 ^ nbits)

end Sys2Proof.Machine
end

