-- ==== Sys2Proof/Safety.lean ====
section
/-! DEFINITION. What statements about the machine say: which parts of the state an instruction leaves
alone, what the results of register instructions are, and the invariants a safe run keeps. -/
namespace Sys2Proof.Machine

/-- A step goes on: it answers a next state. -/
def goesOn (o : Host.Outcome State Fault Refusal) : Bool :=
  match o with
  | .next _ => true
  | _ => false

/-! ## What stays -/

/-- Every byte of device memory, basin store, host memory and local store reads as before. -/
def MemKept (s t : State) : Prop :=
  (∀ a, memGet t.dram a = memGet s.dram a) ∧ (∀ a, memGet t.basin a = memGet s.basin a) ∧
  (∀ a, memGet t.hostMem a = memGet s.hostMem a) ∧ ∀ r a, memGet (t.room r).mem a = memGet (s.room r).mem a

/-- The state without its rills, extended blocks and cores. -/
def State.others (s : State) : State := { s with rills := [], xblks := [], cores := [] }

/-- A core without its reuse latches. -/
def Core.others (c : Core) : Core := { c with latch := [] }

/-- A rill without its threads, its registers and their uniform forms. -/
def Rill.others (r : Rill) : Rill := { r with th := [], v := [], k := [], uform := [] }

/-- The threads of the issue in hand are distinct lanes of a rill. -/
def State.cohortOk (s : State) : Prop := s.cur.lanes.Nodup ∧ ∀ l ∈ s.cur.lanes, l < 64

/-- Nothing changes but threads and registers of the issuing rill and reuse latches. -/
structure OnlyRegs (s t : State) : Prop where
  state : t.others = s.others
  rills : ∀ j, j ≠ s.cur.rill → t.rill j = s.rill j
  cores : ∀ c, (t.core c).others = (s.core c).others
  self : t.curRill.others = s.curRill.others
  mem : MemKept s t

/-- Vector registers outside the issuing rill, and outside the extended block of its slot pair. -/
def ForeignVregs (s t : State) : Prop :=
  ∀ j n l, j / 2 ≠ s.cur.rill / 2 → t.vreg j n l = s.vreg j n l

/-- The thread after its cohort has moved on. -/
def State.moved (s : State) (l : Nat) : Thread :=
  if l ∈ s.cur.lanes then { s.curRill.thread l with pc := s.cur.pc + 4 } else s.curRill.thread l

/-- A vector instruction has written the registers `dests` in the lanes `lanes` (register n of lane l is
`val n l`), has raised the flags `fl` there, and its cohort has moved on; nothing else has changed. -/
structure VecDone (s t : State) (dests lanes : List Nat) (val : Nat → Nat → Word) (fl : Nat → BitVec 5) : Prop where
  only : OnlyRegs s t
  foreign : ForeignVregs s t
  kregs : ∀ n, t.curRill.kreg n = s.curRill.kreg n
  vregs : ∀ n l, l < 64 →
    t.vreg s.cur.rill n l = if n ∈ dests ∧ l ∈ lanes then val n l else s.vreg s.cur.rill n l
  uform : ∀ n, n ∉ dests → (n ∈ t.curRill.uform ↔ n ∈ s.curRill.uform)
  threads : ∀ l, t.curRill.thread l =
    { s.moved l with flags := if l ∈ lanes then (s.curRill.thread l).flags ||| fl l else (s.curRill.thread l).flags }

/-- A uniform instruction has written the registers `dests`, and its cohort has moved on. -/
structure UniDone (s t : State) (dests : List Nat) (val : Nat → Word) : Prop where
  only : OnlyRegs s t
  vregs : ∀ j n l, t.vreg j n l = s.vreg j n l
  uform : t.curRill.uform = s.curRill.uform
  kregs : ∀ n, t.curRill.kreg n = if n ∈ dests then val n else s.curRill.kreg n
  threads : ∀ l, t.curRill.thread l = s.moved l

/-- An instruction has changed threads of the issuing rill only: thread l is now `f l`. -/
structure ThreadsDone (s t : State) (f : Nat → Thread) : Prop where
  only : OnlyRegs s t
  vregs : ∀ j n l, t.vreg j n l = s.vreg j n l
  uform : t.curRill.uform = s.curRill.uform
  kregs : ∀ n, t.curRill.kreg n = s.curRill.kreg n
  threads : ∀ l, t.curRill.thread l = f l

/-- The instruction completes: `exec` answers a next state, of which `P` holds. -/
def Completes (s : State) (i : Instr) (P : State → Prop) : Prop := ∃ t, exec i s = .next t ∧ P t

/-- A 24-bit factor (ext24 of R169 and R175) in 48 bits. -/
def wide24 (m : BitVec 1) (x : Word) : BitVec 48 :=
  if m = 1 then (x.truncate 24).signExtend 48 else (x.truncate 24).zeroExtend 48

/-- A 32-bit factor in 64 bits, signed when m is 1. -/
def wide32 (m : BitVec 1) (x : Word) : DWord := if m = 1 then x.signExtend 64 else x.zeroExtend 64

/-- a ≤ b with the signedness of m. -/
def leBy (m : BitVec 1) (a b : Word) : Bool := if m = 1 then decide (a.toInt ≤ b.toInt) else decide (a.toNat ≤ b.toNat)

/-- The condition of a compare (R169, R176): EQ, NE, LT, LE, GT, GE. -/
def condHolds (c : Nat) (m : BitVec 1) (a b : Word) : Bool :=
  match c with
  | 0 => a == b
  | 1 => a != b
  | 2 => leBy m a b && a != b
  | 3 => leBy m a b
  | 4 => leBy m b a && a != b
  | _ => leBy m b a

/-! ## Floating point -/

/-- The encodings of the FP32 NaNs, and of the signalling ones (R44). -/
def nan32 (w : Word) : Bool := decide (0x7F800000 < w.toNat % 2 ^ 31)
def snan32 (w : Word) : Bool := nan32 w && !w.getLsbD 22

/-- A number that orders the FP32 values that are not NaN as their values are ordered, −0 below +0. -/
def key32 (w : Word) : Int := if w.msb then 2 ^ 31 - 1 - (w.toNat : Int) else w.toNat

/-- Zero of either sign. -/
def zero32 (w : Word) : Bool := w.toNat % 2 ^ 31 == 0

/-- The outcome of FCMP (R183). -/
def fcmpHolds (c : Nat) (x y : Word) : Bool :=
  let un := nan32 x || nan32 y
  let eq := x == y || (zero32 x && zero32 y)
  match c with
  | 0 => !un && eq
  | 1 => un || !eq
  | 2 => !un && !eq && decide (key32 x < key32 y)
  | 3 => !un && (eq || decide (key32 x < key32 y))
  | 4 => !un && !eq && decide (key32 y < key32 x)
  | 5 => !un && (eq || decide (key32 y < key32 x))
  | 6 => un
  | _ => !un

/-- Two dyadic numbers are equal as numbers. -/
def Dy.same (a b : Dy) : Bool := (a.add ⟨-b.m, b.e⟩).m == 0

/-- R180: how a result is settled. `ops` are the operands, `terms` the terms whose exact sum is the result (for a
product, that product), `bad` says that a product is 0 × ∞. -/
structure Settled (f : FFmt) (mode : Nat) (ops terms : List FVal) (bad : Bool) (r : FRes) : Prop where
  invalid : bad = true → r = (f.nan, fNV)
  signalling : ops.any FVal.isSig = true → r = (f.nan, fNV)
  quiet : bad = false → ops.any FVal.isSig = false → ops.any FVal.isNan = true → r = (f.nan, 0)
  clash : ops.any FVal.isNan = false → .inf false ∈ terms → .inf true ∈ terms → r = (f.nan, fNV)
  infinite : bad = false → ops.any FVal.isNan = false → ∀ neg i, f.inf = some i → .inf neg ∈ terms →
    .inf (!neg) ∉ terms → r = (f.withSign neg i, 0)
  finite : bad = false → ops.any FVal.isNan = false → (∀ x ∈ terms, x.isInf = false) →
    r = f.roundDy mode (Dy.sum (terms.map FVal.dy)) (zeroSign mode terms)

/-- The rows of Table 2-5 (R60): element `w` of type `st`, with block exponent `x` where it is an SBI element,
converted to type `dt`. -/
structure Table25 (narrow : Bool) (mode : Nat) (dt st : NumTy) (w x : Nat) (r : Nat × BitVec 5) : Prop where
  intToFloat : st.isInt = true → dt.isFloat = true → r = (tyFmt dt).roundDy mode ⟨tyInt st w, 0⟩ false
  intToInt : st.isInt = true → dt.isInt = true → r.2 = 0 ∧ r.1 < 2 ^ dt.width ∧
    (if narrow = true ∧ dt.width ≤ st.width then tyInt dt r.1 = tyClamp dt (tyInt st w)
     else ∃ q : Int, tyInt dt r.1 = tyInt st w + q * 2 ^ dt.width)
  nanToInt : st.isFloat = true → dt.isInt = true → ((tyFmt st).decode w).isNan = true → r = (0, fNV)
  infToInt : st.isFloat = true → dt.isInt = true → ∀ neg, (tyFmt st).decode w = .inf neg →
    r.2 = fNV ∧ tyInt dt r.1 = if neg then tyLo dt else tyHi dt
  finToInt : st.isFloat = true → dt.isInt = true → ∀ neg m e, (tyFmt st).decode w = .fin neg m e →
    let v := ((tyFmt st).decode w).dy
    let n := roundInt mode v
    tyInt dt r.1 = tyClamp dt n ∧
    r.2 = if n < tyLo dt ∨ tyHi dt < n then fNV else if v.same ⟨n, 0⟩ then 0 else fNX
  nanToFloat : st.isFloat = true → dt.isFloat = true → ((tyFmt st).decode w).isNan = true →
    r = ((tyFmt dt).nan, if ((tyFmt st).decode w).isSig then fNV else 0)
  infToFloat : st.isFloat = true → dt.isFloat = true → ∀ neg, (tyFmt st).decode w = .inf neg →
    if narrow then r = ((tyFmt dt).withSign neg (tyFmt dt).maxFin, fNX)
    else match (tyFmt dt).inf with
      | some i => r = ((tyFmt dt).withSign neg i, 0)
      | none => r = ((tyFmt dt).nan, fNV)
  finToFloat : st.isFloat = true → dt.isFloat = true → ∀ neg m e, (tyFmt st).decode w = .fin neg m e →
    if narrow = true ∧ (tyFmt dt).maxDy.lt ⟨m, e⟩ = true then r = ((tyFmt dt).withSign neg (tyFmt dt).maxFin, fOF ||| fNX)
    else r = (tyFmt dt).roundDy mode ((tyFmt st).decode w).dy neg
  sbiNan : st.isSbi = true → x = 0xFF → r = ((tyFmt dt).nan, 0)
  sbi : st.isSbi = true → x < 0xFF →
    let v : Dy := ⟨sbiVal st w, (x : Int) - 127⟩
    if narrow = true ∧ (tyFmt dt).maxDy.lt ⟨v.m.natAbs, v.e⟩ = true then
      r.1 = (tyFmt dt).withSign (decide (v.m < 0)) (tyFmt dt).maxFin
    else r = (tyFmt dt).roundDy mode v false

/-! ## Cross-lane instructions -/

/-- Every live member of the mask stands in the issuing cohort, whose lanes are live lanes of the rill, and none waits
at this PC already (R202). -/
structure AllHere (s : State) (mask : Nat) : Prop where
  cohort : s.cohortOk
  width : s.curRill.width ≤ 64
  live : ∀ l ∈ s.cur.lanes, l ∈ s.curRill.liveLanes
  members : ∀ l ∈ s.curRill.liveMembers mask, l ∈ s.cur.lanes
  fresh : ∀ w ∈ s.curRill.waits, ¬(isCross w.ins = true ∧ w.pc = s.cur.pc)

/-- The live members are ready but for the wait itself: none awaits a register that the instruction names, and none has a
pair-pool access held (R152, R202, R277). -/
def State.crossSettled (s : State) (i : Instr) (mask : Nat) : Prop :=
  ∀ l ∈ s.curRill.liveMembers mask, s.curRill.settledIn (s.curRill.names i) false l = true ∧ s.pairHeld s.cur.rill l = false

/-- R208, R209: the combination of a list of terms, and its flags. -/
structure Combined (sub mode : Nat) (xs : List Word) (r : Word × BitVec 5) : Prop where
  none : xs = [] → r = (redIdentity sub, 0)
  sum : sub = 0 → r = (xs.foldr (· + ·) 0, 0)
  minS : sub = 1 → xs ≠ [] → r.2 = 0 ∧ r.1 ∈ xs ∧ ∀ x ∈ xs, r.1.toInt ≤ x.toInt
  maxS : sub = 2 → xs ≠ [] → r.2 = 0 ∧ r.1 ∈ xs ∧ ∀ x ∈ xs, x.toInt ≤ r.1.toInt
  minU : sub = 3 → xs ≠ [] → r.2 = 0 ∧ r.1 ∈ xs ∧ ∀ x ∈ xs, r.1.toNat ≤ x.toNat
  maxU : sub = 4 → xs ≠ [] → r.2 = 0 ∧ r.1 ∈ xs ∧ ∀ x ∈ xs, x.toNat ≤ r.1.toNat
  sumF : sub = 5 → xs ≠ [] → ∃ f : FRes, r = (BitVec.ofNat 32 f.1, f.2) ∧
    Settled fp32 mode (xs.map (fun x => fp32.decode x.toNat)) (xs.map (fun x => fp32.decode x.toNat)) false f
  extremeF : 6 ≤ sub → sub < 8 → xs ≠ [] → r.2 = (if xs.any snan32 then fNV else 0) ∧
    (xs.all nan32 = true → r.1 = 0x7FC00000) ∧
    (xs.all nan32 = false → r.1 ∈ xs ∧ nan32 r.1 = false ∧
      ∀ x ∈ xs, nan32 x = false → if sub = 6 then key32 r.1 ≤ key32 x else key32 x ≤ key32 r.1)

/-- R197: a block of elements, quantised: the exponent byte X and the element of each lane. -/
structure Quantised (qmax mode : Nat) (lanes : List Nat) (x : Nat → FVal) (X : Nat) (q : Nat → Int) : Prop where
  range : X ≤ 254 ∧ ∀ l ∈ lanes, (q l).natAbs ≤ qmax
  value : ∀ l ∈ lanes, q l = roundInt mode ((x l).dy.mul ⟨1, 127 - (X : Int)⟩)
  least : ∀ e, e < X → ∃ l ∈ lanes, qmax < (roundInt mode ((x l).dy.mul ⟨1, 127 - (e : Int)⟩)).natAbs

/-! ## Updates of one rill -/

/-- Nothing changes but rill `k`, which is now `r`. -/
structure RillTo (s t : State) (k : Nat) (r : Rill) : Prop where
  state : t.others = s.others
  cores : t.cores = s.cores
  xblks : t.xblks = s.xblks
  rills : ∀ j, j ≠ k → t.rill j = s.rill j
  self : t.rill k = r

/-- Nothing changes but the issuing rill, which is now `r` but for its threads: thread l is `f l`. -/
structure RillSet (s t : State) (r : Rill) (f : Nat → Thread) : Prop where
  state : t.others = s.others
  cores : t.cores = s.cores
  xblks : t.xblks = s.xblks
  rills : ∀ j, j ≠ s.cur.rill → t.rill j = s.rill j
  self : { t.curRill with th := [] } = { r with th := [] }
  threads : ∀ l, t.curRill.thread l = f l

/-- The cohort of the issue in hand stands at `pc`. -/
def State.cohortAt (s : State) (r : Rill) (pc : DWord) : Rill := r.mapThreads s.cur.lanes (fun _ x => { x with pc := pc })

/-! ## Accesses -/

/-- The state without its rills, cores and extended blocks, and without what a translation may change: tower TLBs, the
walker, the requests and messages with which a walk asks for tokens, and the count of free values. -/
def State.beyond (s : State) : State :=
  { s.others with towerTlb := [], walker := {}, free := 0
                  coh := { s.coh with msgs := [], trans := [], ptab := [], numOut := [], resend := [] } }

/-- The same, and without what peers have returned of their memory. -/
def State.apart (s : State) : State := { s.beyond with fab := { s.fab with reads := [] } }

/-- A core without its latches and its TLB. -/
def Core.beyond (c : Core) : Core := { c with latch := [], tlb := [] }

/-- The issuing rill has issued access `a`: it is the last of its accesses, its counter has risen, and the cohort has moved
on, with regions as `f` says; no register and no byte of memory has changed. -/
structure AccessIssued (s t : State) (a : Access) (f : Nat → Thread) : Prop where
  state : t.beyond = s.beyond
  cores : ∀ c, (t.core c).beyond = (s.core c).beyond
  rills : ∀ j, j ≠ s.cur.rill → t.rill j = s.rill j
  vregs : ∀ j n l, t.vreg j n l = s.vreg j n l
  kregs : ∀ n, t.curRill.kreg n = s.curRill.kreg n
  uform : t.curRill.uform = s.curRill.uform
  accs : t.curRill.accs = s.curRill.accs ++
    [{ a with seq := s.curRill.seq, pc := s.cur.pc, word := s.cur.word, cohort := s.cur.lanes }]
  loads : t.curRill.nld = if a.kind = .st ∨ a.kind = .red then s.curRill.nld else s.curRill.nld + 1
  stores : t.curRill.nst = if a.kind = .st ∨ a.kind = .red then s.curRill.nst + 1 else s.curRill.nst
  threads : ∀ l, t.curRill.thread l = f l
  mem : MemKept s t

/-- The threads after a memory instruction that ends the regions of the acting lanes (R285). -/
def State.movedEnding (s : State) (lanes : List Nat) (l : Nat) : Thread :=
  { s.moved l with region := if l ∈ lanes then s.cur.pc + 4 else (s.curRill.thread l).region }

/-- The issuing rill has placed a command with parameter block `block` in its copy context, its cohort has moved on and the
regions of the acting lanes have ended; no register and no byte of memory has changed. -/
structure BlockIssued (s t : State) (kind : CopyKind) (block lanes : List Nat) : Prop where
  state : t.apart = s.apart
  cores : ∀ c, (t.core c).beyond = (s.core c).beyond
  rills : ∀ j, j ≠ s.cur.rill → t.rill j = s.rill j
  vregs : ∀ j n l, t.vreg j n l = s.vreg j n l
  kregs : ∀ n, t.curRill.kreg n = s.curRill.kreg n
  uform : t.curRill.uform = s.curRill.uform
  copies : t.curRill.copies = s.curRill.copies ++ [{ id := s.curRill.seq, kind := kind, seq := s.curRill.seq, block := block }]
  counts : t.curRill.nld = s.curRill.nld ∧ t.curRill.nst = s.curRill.nst ∧ t.curRill.ncp = s.curRill.ncp ∧ t.curRill.accs = s.curRill.accs
  threads : ∀ l, t.curRill.thread l = s.movedEnding lanes l
  mem : MemKept s t

/-- Table 13-4: the new value of an atomic on n-bit operands, where the sub-operation gives it for any value. -/
def atomTable (sub n : Nat) (old v w : BitVec n) : BitVec n :=
  match sub with
  | 0 => old + v
  | 1 => if v.toInt < old.toInt then v else old
  | 2 => if old.toInt < v.toInt then v else old
  | 3 => old &&& v
  | 4 => old ||| v
  | 5 => old ^^^ v
  | 6 => v
  | 7 => if old = v then w else old
  | 8 => if v.toNat ≤ old.toNat then 0 else old + 1
  | 9 => if old.toNat + v.toNat < 2 ^ n ∧ old.toNat + v.toNat ≤ w.toNat then old + v else old
  | 11 => if old.toNat ≤ v.toNat then old else v
  | _ => if old.toNat ≤ v.toNat then v else old

/-- The byte at `x` after the requests of one issue have stored: that of the last request, in lane order, that covers it. -/
def storedByte (g : List LaneReq) (old : Nat → Byte) (x : Nat) : Byte :=
  match (g.filter (fun q => decide (q.pa ≤ x ∧ x < q.pa + q.n))).getLast? with
  | some q => BitVec.ofNat 8 (q.data / 256 ^ (x - q.pa))
  | none => old x

/-- Line operations of atomics, one after the other, on bytes `m`: the old values, and the bytes after them (R295). -/
def atomRun (val : Nat → Nat → Nat → Nat → Nat) : List LaneReq → (Nat → Byte) → List Nat × (Nat → Byte)
  | [], m => ([], m)
  | q :: rest, m =>
    let old := ofBytes ((List.range q.n).map (fun i => m (q.pa + i)))
    let new := val (8 * q.n) old q.data q.data2
    let r := atomRun val rest (fun x => if q.pa ≤ x ∧ x < q.pa + q.n then BitVec.ofNat 8 (new / 256 ^ (x - q.pa)) else m x)
    (old :: r.1, r.2)

/-- The bytes of a request's target. -/
def State.targetByte (s : State) (k : Nat) (q : LaneReq) (x : Nat) : Byte :=
  match q.tgt with
  | 0 => memGet s.dram x
  | 1 => memGet s.basin x
  | 3 => memGet s.hostMem x
  | _ => memGet (s.room (s.localRoom k (q.tgt == tgtPair))).mem x

/-- The memories other than the one a request's target is keep their bytes. -/
def OtherTargetsKept (s t : State) (k : Nat) (q : LaneReq) : Prop :=
  (q.tgt ≠ 0 → ∀ x, memGet t.dram x = memGet s.dram x) ∧ (q.tgt ≠ 1 → ∀ x, memGet t.basin x = memGet s.basin x) ∧
  (q.tgt ≠ 3 → ∀ x, memGet t.hostMem x = memGet s.hostMem x) ∧
  ∀ r, (q.tgt < 4 ∨ r ≠ s.localRoom k (q.tgt == tgtPair)) → ∀ x, memGet (t.room r).mem x = memGet (s.room r).mem x

/-- The memories are in their canonical form. -/
def State.memoriesOk (s : State) : Prop :=
  memWf s.dram = true ∧ memWf s.basin = true ∧ memWf s.hostMem = true ∧ ∀ r, memWf (s.room r).mem = true

/-- The enabled cores of a die by its fused harvest map. -/
def State.coresOf (s : State) (d : Nat) : Nat := ((List.range 24).filter (bitOf · (s.die d).harvest)).length

/-- Table 0-1: a compute die has 22 to 24 enabled cores, and the eight have at least 184. -/
def State.harvestOk (s : State) : Prop :=
  (∀ d, 6 ≤ d → d < 14 → (s.die d).harvest < 2 ^ 24 ∧ 22 ≤ s.coresOf d) ∧
  184 ≤ ((List.range 8).map (fun i => s.coresOf (6 + i))).sum

/-- The memories are in their canonical form, those of images that are held among them. -/
def State.canonical (s : State) : Prop :=
  s.memoriesOk ∧ ∀ r, memWf (s.save.image.rooms.get {} r).mem = true ∧ memWf (s.save.older.rooms.get {} r).mem = true

/-- A request can be performed now, when it writes or reads its place in its target: the core reaches its base die, the slice
holds the tokens, the basin holds the place and no size change holds it, the host port is open, the partner's store is open. -/
def State.reachable (s : State) (k : Nat) (q : LaneReq) (write : Bool) : Prop :=
  (q.tgt < 4 → s.reaches (keyCore k) = true) ∧
  ((q.tgt = 0 ∧ (if write then s.canWrite (q.pa / 128) (sliceTower k (q.pa / 128))
    else s.canRead (q.pa / 128) (sliceTower k (q.pa / 128))) = true) ∨
  (q.tgt = 1 ∧ s.bnext.get none (q.pa / 2 ^ 21) = none ∧ s.gone q = false) ∨ (q.tgt = 3 ∧ s.hostOpen = true) ∨ q.tgt = 4 ∨ (q.tgt = 5 ∧ s.pairOpen k write = true))

/-- The access has met no poison, no refusal and no lost request. -/
def Access.sound (a : Access) : Prop := a.poison = false ∧ a.refused = [] ∧ a.lost = false

/-- The bytes a copied lane leaves at its destination: its V bytes and the zero fill (R297). -/
def LaneBytes.image (x : LaneBytes) : List Byte := x.bytes.take x.lane.valid ++ List.replicate (x.lane.size - x.lane.valid) 0

/-- The byte at local address `x` after a line write: that of the last lane that covers it (R298). -/
def copiedByte (ls : List LaneBytes) (old : Nat → Byte) (x : Nat) : Byte :=
  match (ls.filter (fun q => decide (q.lane.dst % 2 ^ 18 ≤ x ∧ x < q.lane.dst % 2 ^ 18 + q.image.length))).getLast? with
  | some q => q.image.getD (x - q.lane.dst % 2 ^ 18) 0
  | none => old x

/-- Memory `m` with the bytes `bs` at `a`. -/
def patched (m : Nat → Byte) (a : Nat) (bs : List Byte) (x : Nat) : Byte :=
  if a ≤ x ∧ x < a + bs.length then bs.getD (x - a) 0 else m x

/-- The issuing rill has placed operation `o` at the tail of the queue of tile unit `u` and its tile counter has risen; its
cohort has moved on and the regions of the acting lanes have ended. -/
structure TileQueued (s t : State) (u : Nat) (o : TileOp) (lanes : List Nat) : Prop where
  state : { t.apart with tiles := [] } = { s.apart with tiles := [] }
  cores : ∀ c, (t.core c).beyond = (s.core c).beyond
  rills : ∀ j, j ≠ s.cur.rill → t.rill j = s.rill j
  vregs : ∀ j n l, t.vreg j n l = s.vreg j n l
  kregs : ∀ n, t.curRill.kreg n = s.curRill.kreg n
  uform : t.curRill.uform = s.curRill.uform
  unit : t.tile u = { s.tile u with queue := (s.tile u).queue ++
    [{ o with id := s.curRill.seq, rill := s.cur.rill, launch := s.curRill.launch, ctx := s.curRill.ctx, seq := s.curRill.seq }] }
  units : ∀ j, j ≠ u → t.tile j = s.tile j
  counts : t.curRill.ntl = s.curRill.ntl + 1 ∧ t.curRill.nld = s.curRill.nld ∧ t.curRill.nst = s.curRill.nst ∧
    t.curRill.ncp = s.curRill.ncp ∧ t.curRill.accs = s.curRill.accs ∧ t.curRill.copies = s.curRill.copies
  threads : ∀ l, t.curRill.thread l = s.movedEnding lanes l
  mem : MemKept s t

/-- The cells of a tile unit, but for those of slot `slot` in rows below `m` and columns below `n`, are as before. -/
def OtherCellsKept (s t : TileUnit) (slot m n : Nat) : Prop :=
  ∀ z i j, z < 15 → i < 64 → j < 64 → ¬(z = slot ∧ i < m ∧ j < n) → t.cell z i j = s.cell z i j

/-- A stored element with its subnormal flushed (R56). -/
def flushed (t : NumTy) (w : Nat) : Nat :=
  let f := tyFmt t
  if w / 2 ^ f.mw % 2 ^ f.ew = 0 then w / 2 ^ (f.mw + f.ew) * 2 ^ (f.mw + f.ew) else w

/-- Element `j` of `n` bytes. -/
def elemAt (bs : List Byte) (n j : Nat) : Nat := ofBytes ((bs.drop (n * j)).take n)

/-- R359: what TLDA leaves of the bytes of a row in its cells `c`, and, for .tm24, in its triples `t`. -/
structure RowLoaded (ty : Nat) (bs : List Byte) (c : Nat → Word) (t : Nat → BitVec 24) : Prop where
  plain : ty = 0 → ∀ j, j < 64 → c j = BitVec.ofNat 32 (elemAt bs 4 j)
  narrow : ∀ T, (ty, T) ∈ [(1, NumTy.f16), (2, .bf16)] → ∀ j, j < 64 →
    ∃ x fl, c j = BitVec.ofNat 32 x ∧ Table25 false 0 .f32 T (flushed T (elemAt bs 2 j)) 0 (x, fl)
  triples : ty = 3 → ∀ j, j < 64 → t j = BitVec.ofNat 24 (elemAt bs 4 j)

/-- R359, R360: the bytes and the exponent bytes that TSTA, or TCVT (`cvt`), makes of a row of cells `c` or triples `t`. -/
structure RowStored (cvt : Bool) (ty : Nat) (c : Nat → Word) (t : Nat → BitVec 24) (bs exps : List Byte) : Prop where
  plain : cvt = false → ty = 0 → bs = ((List.range 64).map (fun j => toBytes 4 (c j).toNat)).flatten
  triples : cvt = false → ty = 3 → bs = ((List.range 64).map (fun j => toBytes 4 (t j).toNat)).flatten
  narrow : ∀ n T, (cvt, ty, n, T) ∈ [(false, 1, 2, NumTy.f16), (false, 2, 2, .bf16), (true, 0, 1, .f8e4), (true, 1, 1, .f8e5)] →
    ∃ f : Nat → Nat × BitVec 5, (∀ j, j < 64 → Table25 true 0 T .f32 (c j).toNat 0 (f j)) ∧
      bs = ((List.range 64).map (fun j => toBytes n (f j).1)).flatten
  blocks : cvt = true → 2 ≤ ty → ∃ (X : Nat → Nat) (q : Nat → Int),
    exps = [BitVec.ofNat 8 (X 0), BitVec.ofNat 8 (X 1)] ∧
    bs = (if ty = 2 then (List.range 64).map (fun j => BitVec.ofNat 8 (intBits 8 (q j)))
      else (List.range 32).map (fun j => BitVec.ofNat 8 (intBits 4 (q (2 * j)) + 16 * intBits 4 (q (2 * j + 1))))) ∧
    ∀ h, h < 2 →
      let el := fun j => fp32.decode (c j).toNat
      let cols := (List.range 32).map (32 * h + ·)
      if cols.any (fun j => (el j).isNan || (el j).isInf) then X h = 255 ∧ ∀ j ∈ cols, q j = 0
      else Quantised (if ty = 2 then 127 else 7) 0 cols el (X h) q

/-- Local store of room `room` holds the bytes `bs` at `a`; every other byte of memory is as before. -/
structure LocalSet (s t : State) (room a : Nat) (bs : List Byte) : Prop where
  here : ∀ x, memGet (t.room room).mem x = patched (memGet (s.room room).mem) a bs x
  rooms : ∀ r, r ≠ room → ∀ x, memGet (t.room r).mem x = memGet (s.room r).mem x
  dram : ∀ x, memGet t.dram x = memGet s.dram x
  basin : ∀ x, memGet t.basin x = memGet s.basin x
  host : ∀ x, memGet t.hostMem x = memGet s.hostMem x

/-- A barrier object after `n` arrivals have been counted in it (R400, R403): its half completes when none is awaited. -/
def Barrier.counted (b : Barrier) (n : Nat) : Barrier :=
  if n < b.pend then { b with pend := b.pend - n }
  else if b.span && !b.pdone then { b with pend := 0, odone := true }
  else { b with ph := !b.ph, pend := b.expect, odone := false, pdone := false }

end Sys2Proof.Machine
end

