-- ==== Sys2Proof/Certificates/Slice0/Obligations.lean ====
section
/-! DEFINITION. Statements about the machine, from the numbered rules of the spec. -/
open Sys2Proof Sys2Proof.Machine

/-! ## Encodings -/

/-- R128, R142, R143: every instruction word of the machine, with every operand at every value its fields admit,
decodes from the four bytes of its word, lowest byte first, to itself, and takes those four bytes. -/
def Obligations.EncodedWordsDecodeToThemselves : Prop :=
  ∀ i : Instr, i.isWord = true →
    ∃ w, w < 2 ^ 32 ∧ encode i = some w ∧ ∀ rest, decodeBytes (toBytes 4 w ++ rest) = some (i, rest)

/-- R145: a word that decodes is the encoding of what it decodes to, so no bit of a word is ignored: a reserved
bit that is not 0, an unassigned major and an unassigned sub-operation decode to nothing. -/
def Obligations.DecodedWordsEncodeBack : Prop :=
  ∀ (w : Nat) (i : Instr), w < 2 ^ 32 → decode w = some i → encode i = some w ∧ i.isWord = true

/-! ## Uniform and vector integer instructions -/

/-- R169, R170: each uniform instruction writes its destination with the value of Table 7-3, and nothing else
changes but the PCs of its cohort. R171: VTOK moves its cohort on and leaves its destination awaiting the value that the lane's register holds at
the issue; VTOK_WRITE writes the oldest such value, and no vector register changes. A lane at or above the rill's
width raises the register-bounds trap instead (4). -/
def Obligations.UniformInstructionsWriteTheirResult : Prop :=
  (∀ (s : State) (d a b : BitVec 7) (r m : BitVec 1) (c : BitVec 2) (i : BitVec 18) (h : BitVec 14), s.cohortOk →
     let x := s.usrc a.toNat 0
     let y := s.usrc b.toNat 0
     let z := s.usrc d.toNat 0
     let done := fun (j : Instr) (w : Word) => Completes s j (fun t => UniDone s t [s.curRill.kname d.toNat] (fun _ => w))
     let shift := y.toNat % 64
     done (.kadd d a b r) (x + y) ∧ done (.ksub d a b r) (x - y) ∧ done (.kmul32 d a b r) (x * y) ∧
     done (.kmul24 d a b r m) ((wide24 m x * wide24 m y).truncate 32) ∧
     done (.kand d a b r) (x &&& y) ∧ done (.kor d a b r) (x ||| y) ∧ done (.kxor d a b r) (x ^^^ y) ∧
     (∃ w : Word, done (.kshl d a b r) w ∧ ∀ n, n < 32 → w.getLsbD n = (decide (shift ≤ n) && x.getLsbD (n - shift))) ∧
     (∃ w : Word, done (.kshr d a b r) w ∧ ∀ n, n < 32 → w.getLsbD n = x.getLsbD (n + shift)) ∧
     (∃ w : Word, done (.ksar d a b r) w ∧ ∀ n, n < 32 → w.getLsbD n = x.getLsbD (min (n + shift) 31)) ∧
     (∃ w : Word, done (.kmin d a b r m) w ∧ (w = x ∨ w = y) ∧ leBy m w x ∧ leBy m w y) ∧
     (∃ w : Word, done (.kmax d a b r m) w ∧ (w = x ∨ w = y) ∧ leBy m x w ∧ leBy m y w) ∧
     done (.ksel d a b r) (if z ≠ 0 then x else y) ∧
     done (.kcmp d a b r m c) (if condHolds c.toNat m x y then 1 else 0) ∧
     done (.kli d i) (BitVec.ofInt 32 i.toInt) ∧
     done (.klih d h) ((h.zeroExtend 32 <<< 18) ||| (z &&& 0x3FFFF))) ∧
  (∀ (s : State) (d a b : BitVec 7), s.cohortOk →
     (s.vtokLane b = if b.toNat = 127 then s.cur.lanes.headD 0 else b.toNat) ∧
     (s.vtokLane b < s.curRill.width →
       Completes s (.vtok d a b) (fun t =>
         t.curRill.vtoks = s.curRill.vtoks ++ [{ dst := s.curRill.kname d.toNat, val := s.src a.toNat 0 (s.vtokLane b) }] ∧
         (∀ n, t.curRill.kreg n = s.curRill.kreg n) ∧ (∀ j n l, t.vreg j n l = s.vreg j n l) ∧
         (∀ l, t.curRill.thread l = s.moved l) ∧ t.others = s.others)) ∧
     (¬s.vtokLane b < s.curRill.width → exec (.vtok d a b) s = .next (s.trap 0x04)) ∧
     ∀ k p rest, (s.rill k).vtoks = p :: rest →
       Completes s (.vtokWrite k) (fun t =>
         (t.rill k).vtoks = rest ∧ (∀ n, (t.rill k).kreg n = if n = p.dst then p.val else (s.rill k).kreg n) ∧
         (∀ j, j ≠ k → t.rill j = s.rill j) ∧ (∀ j n l, t.vreg j n l = s.vreg j n l) ∧ t.others = s.others))

/-- R175: each two-operand integer instruction writes its destination in the acting lanes with the value of Table
8-2, each lane from its own old registers, and nothing else changes but the PCs of its cohort; IADD64 adds register pairs
modulo 2^64 and writes both registers of its destination. -/
def Obligations.VectorIntegerInstructionsWriteTheirResult : Prop :=
  ∀ (s : State) (d a b : BitVec 7) (r m : BitVec 1) (g : BitVec 2), s.cohortOk →
    let x := fun l => s.src a.toNat 0 l
    let y := fun l => s.src b.toNat 0 l
    let z := fun l => s.src d.toNat 0 l
    let done := fun (j : Instr) (P : Nat → Word → Prop) => ∃ f : Nat → Word, (∀ l, P l (f l)) ∧
      Completes s j (fun t => VecDone s t [s.curRill.vname d.toNat] (s.acting g.toNat) (fun _ => f) (fun _ => 0))
    let shift := fun l => (y l).toNat % 64
    done (.iadd d a b r g) (fun l w => w = x l + y l) ∧ done (.isub d a b r g) (fun l w => w = x l - y l) ∧
    done (.imul24 d a b r m g) (fun l w => w = (wide24 m (x l) * wide24 m (y l)).truncate 32) ∧
    done (.imul24h d a b r m g) (fun l w =>
      let h : BitVec 16 := (wide24 m (x l) * wide24 m (y l)).extractLsb' 32 16
      w = if m = 1 then h.signExtend 32 else h.zeroExtend 32) ∧
    done (.imul32 d a b r g) (fun l w => w = x l * y l) ∧
    done (.imulh d a b r m g) (fun l w => w = (wide32 m (x l) * wide32 m (y l)).extractLsb' 32 32) ∧
    done (.imad24 d a b r m g) (fun l w => w = z l + (wide24 m (x l) * wide24 m (y l)).truncate 32) ∧
    done (.iand d a b r g) (fun l w => w = x l &&& y l) ∧ done (.ior d a b r g) (fun l w => w = x l ||| y l) ∧
    done (.ixor d a b r g) (fun l w => w = x l ^^^ y l) ∧
    done (.ishl d a b r g) (fun l w => ∀ n, n < 32 → w.getLsbD n = (decide (shift l ≤ n) && (x l).getLsbD (n - shift l))) ∧
    done (.irot d a b r g) (fun l w => ∀ n, n < 32 → w.getLsbD ((n + (y l).toNat) % 32) = (x l).getLsbD n) ∧
    done (.ishr d a b r g) (fun l w => ∀ n, n < 32 → w.getLsbD n = (x l).getLsbD (n + shift l)) ∧
    done (.isar d a b r g) (fun l w => ∀ n, n < 32 → w.getLsbD n = (x l).getLsbD (min (n + shift l) 31)) ∧
    done (.imin d a b r m g) (fun l w => (w = x l ∨ w = y l) ∧ leBy m w (x l) ∧ leBy m w (y l)) ∧
    done (.imax d a b r m g) (fun l w => (w = x l ∨ w = y l) ∧ leBy m (x l) w ∧ leBy m (y l) w) ∧
    done (.isel d a b r g) (fun l w => w = if z l ≠ 0 then x l else y l) ∧
    Completes s (.iadd64 d a b r g) (fun t =>
      let sum := fun l => s.srcPair a.toNat l + s.srcPair b.toNat l
      let n := s.curRill.vname d.toNat
      VecDone s t [n, n + 1] (s.acting g.toNat)
        (fun i l => if i = n then (sum l).truncate 32 else (sum l).extractLsb' 32 32) (fun _ => 0))

/-- R177 to R179: the one-operand, bit-field, byte-product and immediate instructions act in every lane of the
cohort that has not exited, whatever its guards. -/
def Obligations.VectorBitInstructionsWriteTheirResult : Prop :=
  ∀ (s : State) (d a b : BitVec 7) (i : BitVec 18) (h : BitVec 14), s.cohortOk →
    let x := fun l => s.src a.toNat 0 l
    let y := fun l => s.src b.toNat 0 l
    let z := fun l => s.src d.toNat 0 l
    let lanes := s.cur.lanes.filter (fun l => !(s.curRill.thread l).exited)
    let done := fun (j : Instr) (P : Nat → Word → Prop) => ∃ f : Nat → Word, (∀ l, P l (f l)) ∧
      Completes s j (fun t => VecDone s t [s.curRill.vname d.toNat] lanes (fun _ => f) (fun _ => 0))
    let p := fun l => (y l).toNat % 32
    let n := fun l => min ((y l).toNat / 256 % 64) (32 - p l)
    let dot := fun (v : Word → Nat → Int) l => (List.range 4).foldl (fun q e => q + v (x l) e * v (y l) e) 0
    done (.mov d a) (fun l w => w = x l) ∧
    done (.popc d a) (fun l w => w.toNat = ((List.range 32).filter (fun e => (x l).getLsbD e)).length) ∧
    done (.clz d a) (fun l w => w.toNat ≤ 32 ∧ (∀ e, e < w.toNat → (x l).getLsbD (31 - e) = false) ∧
      (w.toNat < 32 → (x l).getLsbD (31 - w.toNat) = true)) ∧
    done (.brev d a) (fun l w => ∀ e, e < 32 → w.getLsbD e = (x l).getLsbD (31 - e)) ∧
    done (.iabs d a) (fun l w => w.toNat = (x l).toInt.natAbs) ∧
    done (.bfeZ32 d a b) (fun l w => ∀ e, e < 32 → w.getLsbD e = (decide (e < n l) && (x l).getLsbD (p l + e))) ∧
    done (.bfeS32 d a b) (fun l w => (n l = 0 → w = 0) ∧
      (0 < n l → ∀ e, e < 32 → w.getLsbD e = (x l).getLsbD (p l + min e (n l - 1)))) ∧
    done (.bfi d a b) (fun l w => ∀ e, e < 32 →
      w.getLsbD e = if p l ≤ e ∧ e < p l + n l then (x l).getLsbD (e - p l) else (z l).getLsbD e) ∧
    done (.idot4S8 d a b) (fun l w => w = z l + BitVec.ofInt 32 (dot (fun v e => (v.extractLsb' (8 * e) 8).toInt) l)) ∧
    done (.idot4Z8 d a b) (fun l w => w = z l + BitVec.ofInt 32 (dot (fun v e => ((v.extractLsb' (8 * e) 8).toNat : Int)) l)) ∧
    done (.li d i) (fun _ w => w = BitVec.ofInt 32 i.toInt) ∧
    done (.lih d h) (fun l w => w = (h.zeroExtend 32 <<< 18) ||| (z l &&& 0x3FFFF))

/-! ## Floating-point instructions -/

/-- R180, R181: FADD, FSUB, FMUL and FFMA settle the exact result of their operands and raise its flags in the acting
lanes, or none with NF set; nothing else changes but the PCs of the cohort. -/
def Obligations.FloatArithmeticSettlesTheExactResult : Prop :=
  ∀ (s : State) (d a b : BitVec 7) (r n : BitVec 1) (g : BitVec 2), s.cohortOk →
    let x := fun l => s.fsrc a l
    let y := fun l => s.fsrc b l
    let z := fun l => s.fsrc d l
    let p := fun l => (x l).mul (y l)
    let done := fun (j : Instr) (P : Nat → FRes → Prop) => ∃ f : Nat → FRes, (∀ l, P l (f l)) ∧
      Completes s j (fun t => VecDone s t [s.curRill.vname d.toNat] (s.acting g.toNat) (fun _ l => BitVec.ofNat 32 (f l).1)
        (fun l => if n = 1 then 0 else (f l).2))
    done (.fadd d a b r n g) (fun l => Settled fp32 s.mode [x l, y l] [x l, y l] false) ∧
    done (.fsub d a b r n g) (fun l => Settled fp32 s.mode [x l, y l] [x l, (y l).negate] false) ∧
    done (.fmul d a b r n g) (fun l => Settled fp32 s.mode [x l, y l] [(p l).1] (p l).2) ∧
    done (.ffma d a b r n g) (fun l => Settled fp32 s.mode [x l, y l, z l] [(p l).1, z l] (p l).2)

/-- R182 to R186: FMIN, FMAX, FCLASS, FRND and FSCALE. The order of FMIN and FMAX is that of the encodings, −0 below +0. R176, R183, R137: ICMP and FCMP write their outcome to guard e in the acting lanes, discarded for g0; FCMP raises NV for a
signalling NaN, and in its ordered conditions for any NaN, unless NF is set; no register and no other guard changes. -/
def Obligations.FloatSelectionScalingAndCompares : Prop :=
  (∀ (s : State) (d a b : BitVec 7) (r n : BitVec 1) (g : BitVec 2), s.cohortOk →
     let x := fun l => s.src a.toNat 0 l
     let y := fun l => s.src b.toNat 0 l
     let done := fun (j : Instr) (P : Nat → Word → BitVec 5 → Prop) => ∃ (f : Nat → Word) (fl : Nat → BitVec 5),
       (∀ l, P l (f l) (fl l)) ∧ Completes s j (fun t => VecDone s t [s.curRill.vname d.toNat] (s.acting g.toNat) (fun _ => f)
         (fun l => if n = 1 then 0 else fl l))
     let extreme := fun (le : Int → Int → Prop) (l : Nat) (w : Word) (fl : BitVec 5) =>
       fl = (if snan32 (x l) || snan32 (y l) then fNV else 0) ∧
       (nan32 (x l) = true → nan32 (y l) = true → w = 0x7FC00000) ∧
       (nan32 (x l) = true → nan32 (y l) = false → w = y l) ∧ (nan32 (x l) = false → nan32 (y l) = true → w = x l) ∧
       (nan32 (x l) = false → nan32 (y l) = false → (w = x l ∨ w = y l) ∧ le (key32 w) (key32 (x l)) ∧ le (key32 w) (key32 (y l)))
     let nans := fun (v w : Word) (fl : BitVec 5) => nan32 v = true → w = 0x7FC00000 ∧ fl = if snan32 v then fNV else 0
     let same := fun (v w : Word) (fl : BitVec 5) => (v.toNat % 2 ^ 31 = 0 ∨ v.toNat % 2 ^ 31 = 0x7F800000) → w = v ∧ fl = 0
     done (.fmin d a b r n g) (extreme (· ≤ ·)) ∧
     done (.fmax d a b r n g) (extreme (fun p q => q ≤ p)) ∧
     (∃ f : Nat → Word, (∀ l, ∃ e, e < 10 ∧ f l = BitVec.ofNat 32 (2 ^ e) ∧
         (e = 0 ↔ x l = 0xFF800000) ∧ (e = 7 ↔ x l = 0x7F800000) ∧ (e = 3 ↔ x l = 0x80000000) ∧ (e = 4 ↔ x l = 0) ∧
         (e = 8 ↔ snan32 (x l) = true) ∧ (e = 9 ↔ nan32 (x l) = true ∧ snan32 (x l) = false) ∧
         ((e = 2 ∨ e = 5) ↔ 0 < (x l).toNat % 2 ^ 31 ∧ (x l).toNat % 2 ^ 31 < 2 ^ 23) ∧
         ((e = 1 ∨ e = 2) → (x l).msb = true) ∧ ((e = 5 ∨ e = 6) → (x l).msb = false)) ∧
       Completes s (.fclass d a r g) (fun t => VecDone s t [s.curRill.vname d.toNat] (s.acting g.toNat) (fun _ => f) (fun _ => 0))) ∧
     (b.toNat < 5 → done (.frnd d a b r n g) (fun l w fl =>
       let mode := if b.toNat = 4 then s.mode else b.toNat
       nans (x l) w fl ∧ same (x l) w fl ∧
       (nan32 (x l) = false → x l ≠ 0x7F800000 → x l ≠ 0xFF800000 → fl = 0 ∧ w.msb = (x l).msb ∧
         (fp32.decode w.toNat).dy.same ⟨roundInt mode (s.fsrc a l).dy, 0⟩ = true))) ∧
     done (.fscale d a b r n g) (fun l w fl =>
       nans (x l) w fl ∧ same (x l) w fl ∧
       (nan32 (x l) = false → (x l).toNat % 2 ^ 31 ≠ 0 → (x l).toNat % 2 ^ 31 ≠ 0x7F800000 →
         (w, fl) = (BitVec.ofNat 32 (fp32.roundDy s.mode ((s.fsrc a l).dy.mul ⟨1, (y l).toInt⟩) false).1,
           (fp32.roundDy s.mode ((s.fsrc a l).dy.mul ⟨1, (y l).toInt⟩) false).2)))) ∧
  (∀ (s : State) (c : BitVec 3) (e : BitVec 2) (a b : BitVec 7) (r m n : BitVec 1) (g : BitVec 2), s.cohortOk →
     let x := fun l => s.src a.toNat 0 l
     let y := fun l => s.src b.toNat 0 l
     let nv := fun l => snan32 (x l) || snan32 (y l) || (decide (2 ≤ c.toNat ∧ c.toNat ≤ 5) && (nan32 (x l) || nan32 (y l)))
     let compares := fun (i : Instr) (holds : Nat → Bool) (raise : Nat → Prop) => Completes s i (fun t =>
       (∀ l, (l ∉ s.acting g.toNat ∨ ¬raise l → (t.curRill.thread l).flags = (s.curRill.thread l).flags) ∧
         (l ∈ s.acting g.toNat → raise l → (t.curRill.thread l).flags = (s.curRill.thread l).flags ||| fNV)) ∧
       ThreadsDone s t (fun l =>
         { s.moved l with
           flags := (t.curRill.thread l).flags
           g1 := (t.curRill.thread l).g1, g2 := (t.curRill.thread l).g2, g3 := (t.curRill.thread l).g3 }) ∧
       ∀ l k, k < 4 → (t.curRill.thread l).guard k =
         if k = e.toNat ∧ k ≠ 0 ∧ l ∈ s.acting g.toNat then holds l else (s.curRill.thread l).guard k)
     (c.toNat < 6 → compares (.icmp c e a b r m g) (fun l => condHolds c.toNat m (x l) (y l)) (fun _ => False)) ∧
     compares (.fcmp c e a b r n g) (fun l => fcmpHolds c.toNat (x l) (y l)) (fun l => n = 0 ∧ nv l = true))

/-- R187, R188: the packed instructions settle each of their two elements, and the dot products one sum of three exact
terms with one rounding to FP32; the flags are the union over the elements. -/
def Obligations.PackedFloatArithmeticSettlesEachElement : Prop :=
  ∀ (s : State) (d a b : BitVec 7) (r n : BitVec 1) (g : BitVec 2), s.cohortOk →
    let done := fun (j : Instr) (P : Nat → Word → BitVec 5 → Prop) => ∃ (f : Nat → Word) (fl : Nat → BitVec 5),
      (∀ l, P l (f l) (fl l)) ∧ Completes s j (fun t => VecDone s t [s.curRill.vname d.toNat] (s.acting g.toNat) (fun _ => f)
        (fun l => if n = 1 then 0 else fl l))
    let both := fun (P : Nat → Nat → FRes → Prop) (l : Nat) (w : Word) (fl : BitVec 5) => ∃ e0 e1 : FRes, P 0 l e0 ∧ P 1 l e1 ∧
      w = BitVec.ofNat 32 (e0.1 + 65536 * e1.1) ∧ e0.1 < 65536 ∧ e1.1 < 65536 ∧ fl = e0.2 ||| e1.2
    let add2 := fun (F : FFmt) => both (fun i l =>
      let x := s.hsrc F a i l; let y := s.hsrc F b i l
      Settled F s.mode [x, y] [x, y] false)
    let fma2 := fun (F : FFmt) => both (fun i l =>
      let x := s.hsrc F a i l; let y := s.hsrc F b i l; let z := s.hsrc F d i l
      Settled F s.mode [x, y, z] [(x.mul y).1, z] (x.mul y).2)
    let dot2 := fun (F : FFmt) (l : Nat) (w : Word) (fl : BitVec 5) =>
      let x0 := s.hsrc F a 0 l; let y0 := s.hsrc F b 0 l; let x1 := s.hsrc F a 1 l; let y1 := s.hsrc F b 1 l; let z := s.fsrc d l
      ∃ e : FRes, Settled fp32 s.mode [x0, y0, x1, y1, z] [z, (x0.mul y0).1, (x1.mul y1).1] ((x0.mul y0).2 || (x1.mul y1).2) e ∧
        w = BitVec.ofNat 32 e.1 ∧ fl = e.2
    done (.fadd2F16 d a b r n g) (add2 fp16) ∧ done (.fadd2Bf16 d a b r n g) (add2 bf16) ∧
    done (.ffma2F16 d a b r n g) (fma2 fp16) ∧ done (.ffma2Bf16 d a b r n g) (fma2 bf16) ∧
    done (.fdot2F16 d a b r n g) (dot2 fp16) ∧ done (.fdot2Bf16 d a b r n g) (dot2 bf16)

/-- R60, R190 to R194: CVT and CVTN convert by Table 2-5 and place the element by R191, a pair for a 64-bit type; PACK
writes its half and keeps the other; UNPACK delivers four elements exactly. -/
def Obligations.ConversionsFollowTheirTable : Prop :=
  ∀ (s : State) (d a b : BitVec 7) (t4 s4 : BitVec 4) (e : BitVec 3) (r h z : BitVec 1) (g : BitVec 2), s.cohortOk →
    let dt := NumTy.ofCode t4
    let st := NumTy.ofCode s4
    let dn := s.curRill.vname d.toNat
    let elem := fun l => if st.width = 64 then (s.srcPair a.toNat l).toNat
      else (s.src a.toNat 0 l).toNat / 2 ^ (st.width * e.toNat) % 2 ^ st.width
    let cvt := fun (narrow : Bool) (j : Instr) => cvtLegal narrow dt st = true → ∃ f : Nat → Nat × BitVec 5,
      (∀ l, Table25 narrow s.mode dt st (elem l) ((s.src d.toNat 0 l).toNat % 256) (f l)) ∧
      Completes s j (fun t => VecDone s t (if dt.width = 64 then [dn, dn + 1] else [dn]) (s.acting 0)
        (fun i l =>
          let v : DWord := if dt.isSigned = true ∧ dt.width < 32 then BitVec.ofInt 64 (tyInt dt (f l).1) else BitVec.ofNat 64 (f l).1
          if i = dn then v.truncate 32 else v.extractLsb' 32 32)
        (fun l => (f l).2))
    let pack := fun (F : FFmt) (j : Instr) => ∃ f : Nat → Nat → Nat × BitVec 5,
      (∀ i l, Table25 true s.mode (if F = f8e4 then .f8e4 else .f8e5) .f32 (s.src (if i = 0 then a else b).toNat 0 l).toNat 0 (f i l)) ∧
      Completes s j (fun t => VecDone s t [dn] (s.acting g.toNat)
        (fun _ l =>
          let half : BitVec 16 := BitVec.ofNat 16 ((f 0 l).1 + 256 * (f 1 l).1)
          let old := s.src d.toNat 0 l
          if h = 0 then old.extractLsb' 16 16 ++ half else half ++ old.extractLsb' 0 16)
        (fun l => (f 0 l).2 ||| (f 1 l).2))
    cvt false (.cvt d a t4 s4 e) ∧ cvt true (.cvtn d a t4 s4 e) ∧
    pack f8e4 (.packF8e4 d a b r h g) ∧ pack f8e5 (.packF8e5 d a b r h g) ∧
    ((b.toNat = 8 ∨ b.toNat = 9 ∨ b.toNat = 10) →
      let F := if b.toNat = 8 then fp32 else if b.toNat = 9 then fp16 else bf16
      let src := fun i l => (if z = 0 then f8e4 else f8e5).decode ((s.src a.toNat 0 l).toNat / 256 ^ i % 256)
      ∃ el : Nat → Nat → Nat,
        (∀ i l, ((src i l).isNan = true → el i l = F.nan) ∧
          (∀ neg, src i l = .inf neg → F.decode (el i l) = .inf neg) ∧
          (∀ neg m x, src i l = .fin neg m x → (F.decode (el i l)).dy.same (src i l).dy = true ∧ (F.decode (el i l)).neg = neg)) ∧
        Completes s (.unpack d a b z) (fun t => VecDone s t
          (if b.toNat = 8 then [dn, dn + 1, dn + 2, dn + 3] else [dn, dn + 1]) (s.acting 0)
          (fun i l => if b.toNat = 8 then BitVec.ofNat 32 (el (i - dn) l)
            else BitVec.ofNat 32 (el (2 * (i - dn)) l + 65536 * el (2 * (i - dn) + 1) l))
          (fun l => if (List.range 4).any (fun i => (src i l).isSig) then fNV else 0)))

/-- R51, R53: round to nearest delivers a nearest element of its format, and the directed modes do not step over the
number or over an element; NX says whether the result differs from it. -/
def Obligations.RoundingDeliversAClosestElement : Prop :=
  ∀ (f : FFmt) (mode a : Nat) (neg : Bool) (e : Int), f ∈ [fp32, fp16, bf16, f8e5] → mode < 4 → a ≠ 0 →
    let x : Dy := ⟨if neg then -(a : Int) else a, e⟩
    let r := f.round mode neg a e
    let v := (f.decode r.1).dy
    (∃ n m k, f.decode r.1 = .fin n m k) →
      (r.2 &&& fNX = 0 ↔ v.same x = true) ∧
      (∀ w n m k, f.decode w = .fin n m k →
        let u := (f.decode w).dy
        (mode = 0 → ((v.add x.neg).abs).le ((u.add x.neg).abs) = true) ∧
        (mode = 2 ∨ (mode = 1 ∧ neg = false) → v.le x = true ∧ (u.le x = true → u.le v = true)) ∧
        (mode = 3 ∨ (mode = 1 ∧ neg = true) → x.le v = true ∧ (x.le u = true → v.le u = true)))

/-- R213, R214: one function of the argument gives SFN's value and flags in every state, lane and rounding mode; it delivers
the canonical NaN for a NaN and Table 9-3's results on the special arguments. Nothing but the destination, the flags (none
with NF set) and the PCs changes. -/
def Obligations.SpecialFunctionsKeepTheirTable : Prop :=
  ∃ sf : Nat → Word → FRes,
    (∀ (s : State) (d a f : BitVec 7) (r n : BitVec 1) (g : BitVec 2), s.cohortOk → f.toNat < 10 →
      let x := fun l => s.src a.toNat 0 l
      Completes s (.sfn d a f r n g) (fun t => VecDone s t [s.curRill.vname d.toNat] (s.acting g.toNat)
        (fun _ l => BitVec.ofNat 32 (sf f.toNat (x l)).1) (fun l => if n = 1 then 0 else (sf f.toNat (x l)).2))) ∧
    (∀ k w, nan32 w = true → sf k w = (0x7FC00000, if snan32 w then fNV else 0)) ∧
    sf 0 0 = (0x7F800000, fDZ) ∧ sf 0 0x80000000 = (0xFF800000, fDZ) ∧ sf 0 0x7F800000 = (0, 0) ∧ sf 0 0xFF800000 = (0x80000000, 0) ∧
    sf 1 0 = (0x7F800000, 0) ∧ sf 1 0x80000000 = (0xFF800000, 0) ∧ sf 1 0x7F800000 = (0, 0) ∧
    sf 2 0 = (0, 0) ∧ sf 2 0x80000000 = (0x80000000, 0) ∧ sf 2 0x7F800000 = (0x7F800000, 0) ∧
    (∀ w : Word, w.msb = true → zero32 w = false → nan32 w = false → ∀ k ∈ [1, 2, 4], sf k w = (0x7FC00000, fNV)) ∧
    (∀ w : Word, zero32 w = true → sf 3 w = (0x3F800000, 0) ∧ sf 4 w = (0xFF800000, 0) ∧ sf 6 w = (0x3F800000, 0) ∧
      sf 8 w = (0x3F000000, 0) ∧ ∀ k ∈ [5, 7, 9], sf k w = (w.toNat, 0)) ∧
    sf 3 0x7F800000 = (0x7F800000, 0) ∧ sf 3 0xFF800000 = (0, 0) ∧ sf 4 0x7F800000 = (0x7F800000, 0) ∧ sf 4 0x3F800000 = (0, 0) ∧
    (∀ k ∈ [5, 6], sf k 0x7F800000 = (0x7FC00000, fNV) ∧ sf k 0xFF800000 = (0x7FC00000, fNV)) ∧
    (∀ k ∈ [7, 9], sf k 0x7F800000 = (0x3F800000, 0) ∧ sf k 0xFF800000 = (0xBF800000, 0)) ∧
    sf 8 0x7F800000 = (0x3F800000, 0) ∧ sf 8 0xFF800000 = (0, 0)

/-! ## Cross-lane instructions -/

/-- R201 to R212: where every live member stands in the cohort and is ready, each cross-lane instruction completes at once: the acting
lanes, which are the live members, receive their results, and the whole cohort moves on. R202, R204: a held cross-lane instruction completes once every live member is held by its wait and ready, with all its threads
at the following word, and until then nothing happens; an issue after which every live lane is held by cross-lane waits, of
which none is satisfied, ends them without effect and raises the cross-lane mismatch trap (14).
The model's choice: SHFL takes segment code 7 as 6 (log entry 144). -/
def Obligations.CrossLaneInstructionsCompleteOrTrap : Prop :=
  (∀ (s : State) (d a b : BitVec 7) (z : BitVec 4) (p : BitVec 6) (e : BitVec 2),
     let mask := s.memberMask b.toNat
     let x := fun l => s.src a.toNat 0 l
     let y := fun l => s.src b.toNat 0 l
     let r := s.curRill
     let dn := r.vname d.toNat
     let gone := fun l => (r.thread l).exited
     let guards := fun (j : Instr) (gd : Nat) (lanes : List Nat) (f : Nat → Bool) =>
       s.crossSettled j mask → Completes s j (fun t => ThreadsDone s t (fun l => if l ∈ lanes then (s.moved l).setGuard gd (f l) else s.moved l))
     let writes := fun (m : Nat) (j : Instr) (lanes dests : List Nat) (P : (Nat → Nat → Word) → (Nat → BitVec 5) → Prop) =>
       ∃ f fl, P f fl ∧ (s.crossSettled j m → Completes s j (fun t => VecDone s t dests lanes f fl))
     (AllHere s mask →
       let live := r.liveMembers mask
       let yes := fun j => live.contains j && x j != 0
       (z.toNat = 0 → guards (.vote d a b z) (d.toNat % 4) live (fun _ => live.any (fun j => x j != 0))) ∧
       (z.toNat = 1 → guards (.vote d a b z) (d.toNat % 4) live (fun _ => (r.members mask).all yes)) ∧
       (z.toNat = 2 → writes mask (.vote d a b z) live [dn, dn + 1] (fun f fl => fl = (fun _ => 0) ∧
         ∀ l i j, i < 2 → j < 32 → (f (dn + i) l).getLsbD j = yes (32 * i + j))) ∧
       (z.toNat < 8 → writes mask (.redx d a b z) live [dn] (fun f fl => ∀ l ∈ live,
         Combined z.toNat r.rmode.toNat (live.map x) (f dn l, fl l))) ∧
       writes mask (.scanx d a b z) live [dn] (fun f fl => ∀ l ∈ live,
         Combined (z.toNat % 8) r.rmode.toNat
           ((live.filter (fun j => decide (j < l) || (decide (z.toNat < 8) && j == l))).map x) (f dn l, fl l)) ∧
       (z.toNat < 2 → writes mask (.matchx d a b z) live [dn] (fun f fl => fl = (fun _ => 0) ∧ ∀ l ∈ live,
         let cls := live.filter (fun j => x j == x l)
         (z.toNat = 0 → (f dn l).toNat ∈ cls ∧ ∀ j ∈ cls, (f dn l).toNat ≤ j) ∧
         (z.toNat = 1 → (f dn l).toNat % 65536 = (cls.filter (· < l)).length ∧ (f dn l).toNat / 65536 = cls.length))) ∧
       guards (.elect e b) e.toNat live (fun l => decide (∀ j ∈ live, l ≤ j))) ∧
     (AllHere s allLanes →
       let live := r.liveLanes
       let src := fun l => shflSource z.toNat r.width l (y l).toNat
       (z.toNat < 4 → writes allLanes (.shfl d a b z) (live.filter (fun l => !(src l).2)) [dn] (fun f fl => fl = (fun _ => 0) ∧ ∀ l ∈ live,
         f dn l = if gone (src l).1 then 0 else x (src l).1)) ∧
       (z.toNat < 4 → writes allLanes (.perm d a p z) live [dn] (fun f fl => fl = (fun _ => 0) ∧ ∀ l ∈ live,
         let j := permSource z.toNat r.width l p.toNat
         f dn l = if gone j then 0 else x j)))) ∧
  ((∀ (s : State) (k : Nat) (pc : DWord) (w : Wait),
     (s.rill k).waits.find? (fun w => isCross w.ins && w.pc == pc) = some w → w.lanes.Nodup →
     ((s.runs k && crossReady s k w) = false → exec (.crossLaneComplete k pc) s = .next s) ∧
     ((s.runs k && crossReady s k w) = true → Completes s (.crossLaneComplete k pc) (fun t =>
       t.others = s.others ∧ (∀ j, j ≠ k → t.rill j = s.rill j) ∧
       (∀ v, v ∈ (t.rill k).waits ↔ v ∈ (s.rill k).waits ∧ ¬(isCross v.ins = true ∧ v.pc = pc)) ∧
       (∀ n, (t.rill k).kreg n = (s.rill k).kreg n) ∧
       ∀ l, ((t.rill k).thread l).pc = if l ∈ w.lanes then w.pc + 4 else ((s.rill k).thread l).pc))) ∧
   ∀ (s : State) (d a b : BitVec 7) (z : BitVec 4) (e : BitVec 2), s.cohortOk →
     (∀ l ∈ s.cur.lanes, l < s.curRill.width) →
     (∀ w ∈ s.curRill.waits, isCross w.ins = true → w.pc ≠ s.cur.pc ∧ s.curRill.crossCome w = false) →
     (∀ l ∈ s.curRill.liveLanes, l ∈ s.cur.lanes ∨ ∃ w ∈ s.curRill.waits, isCross w.ins = true ∧ l ∈ w.lanes) →
     (∃ l ∈ s.curRill.liveMembers (s.memberMask b.toNat), l ∉ s.cur.lanes) →
     let quiet := s.modRill s.cur.rill (fun r => { r with waits := r.waits.filter (fun w => !isCross w.ins) })
     ∀ i ∈ [Instr.vote d a b z, .redx d a b z, .scanx d a b z, .matchx d a b z, .elect e b],
       ∃ t, exec i s = .next t ∧ (∀ k, t.rill k = (quiet.trap 0x0E).rill k) ∧ t.others = (quiet.trap 0x0E).others)

/-- R195 to R197: QBLK, of a rill of width 32 or 64 whose live lanes all stand in the cohort and are ready, quantises each block of 32
lanes; at width 16 it raises the width trap (13). -/
def Obligations.QblkQuantisesItsBlocks : Prop :=
  ∀ (s : State) (d a : BitVec 7) (z : BitVec 1),
    let r := s.curRill
    let dn := r.vname d.toNat
    let qmax := if z = 0 then 127 else 7
    let el := fun l => if (r.thread l).exited then FVal.fin false 0 0 else fp32.decode (s.src a.toNat 0 l).toNat
    let block := fun l => (List.range 32).map (fun i => l / 32 * 32 + i)
    let bad := fun l => (el l).isNan || (el l).isInf
    (r.width = 16 → exec (.qblk d a z) s = .next (s.trap 0x0D)) ∧
    (AllHere s allLanes → r.width = 32 ∨ r.width = 64 →
      ∃ (X : Nat → Nat) (q : Nat → Int),
        (∀ l ∈ r.liveLanes, (block l).any bad = false → Quantised qmax r.rmode.toNat (block l) el (X (l / 32)) q) ∧
        (s.crossSettled (.qblk d a z) allLanes → Completes s (.qblk d a z) (fun t => VecDone s t [dn] r.liveLanes
          (fun _ l => if (block l).any bad then 0xFF00 else BitVec.ofNat 32 (X (l / 32) * 256) + BitVec.ofNat 32 (intBits 8 (q l)))
          (fun l => if (block l).any bad then (if bad l then fNV else 0)
            else if (el l).dy.same ⟨q l, (X (l / 32) : Int) - 127⟩ then 0 else fNX))))

/-! ## Control -/

/-- R129, R156, R157: BRA and CALL take the lanes their nibble selects to PC + 4 × off21, and the other lanes of the cohort
to PC + 4; CALL pushes the return offset, and ends the region of a taken lane at its target and that of every other lane of the
cohort at the following word (R130, R155). A target outside the code span
raises the control-target trap (5), a full call stack in a taken lane the call-stack trap (6), and no lane moves. R156, R159, R160: BRX and CALLX take each acting lane to KCODE plus its register's offset, RET to the offset it pops; a
bad offset, a full or an empty stack in one acting lane raises its trap (5, 6, 7) and no lane moves. The model's readings: CALL ends the
region of the lanes not taken too (log entry 31), and RET looks at the offsets before the stacks, in the order of Table 7-1 (log entry 124). -/
def Obligations.BranchesCallsAndReturnsMoveTheLanesTaken : Prop :=
  (∀ (s : State) (c : BitVec 4) (o : BitVec 21), s.cohortOk →
     let take := s.cur.lanes.filter (fun l => (s.curRill.thread l).guard (c.toNat % 4) == decide (c.toNat < 4))
     let target : Int := s.cur.pc.toNat + 4 * o.toInt
     let inside := (s.curRill.kcode : Int) ≤ target ∧ target ≤ s.curRill.kcode + 0x00FFFFFC
     let full := ∃ l ∈ take, 32 ≤ (s.curRill.thread l).stack.length
     let goal : DWord := BitVec.ofInt 64 target
     let ret : Word := BitVec.ofNat 32 (s.cur.pc.toNat + 4 - s.curRill.kcode)
     c.toNat < 8 →
     (take ≠ [] → ¬inside → exec (.bra c o) s = .next (s.trap 0x05) ∧ exec (.call c o) s = .next (s.trap 0x05)) ∧
     (take = [] ∨ inside → full → exec (.call c o) s = .next (s.trap 0x06)) ∧
     (take = [] ∨ inside →
       Completes s (.bra c o) (fun t => ThreadsDone s t (fun l => if l ∈ take then { s.curRill.thread l with pc := goal } else s.moved l))) ∧
     (take = [] ∨ inside → ¬full →
       Completes s (.call c o) (fun t => ThreadsDone s t (fun l =>
         if l ∈ take then { s.curRill.thread l with pc := goal, stack := ret :: (s.curRill.thread l).stack, region := goal }
         else s.movedEnding s.cur.lanes l)))) ∧
  (∀ (s : State) (a : BitVec 7) (r : BitVec 1) (g : BitVec 2), s.cohortOk →
     let act := s.acting g.toNat
     let off := fun l => (s.src a.toNat 0 l).toNat
     let good := ∀ l ∈ act, off l ≤ 0x00FFFFFC ∧ off l % 4 = 0
     let full := ∃ l ∈ act, 32 ≤ (s.curRill.thread l).stack.length
     let goal := fun l : Nat => BitVec.ofNat 64 (s.curRill.kcode + off l)
     let ret : Word := BitVec.ofNat 32 (s.cur.pc.toNat + 4 - s.curRill.kcode)
     let back := fun l => BitVec.ofNat 64 (s.curRill.kcode + ((s.curRill.thread l).stack.headD 0).toNat)
     (¬good → exec (.brx a r g) s = .next (s.trap 0x05) ∧ exec (.callx a r g) s = .next (s.trap 0x05)) ∧
     (good → Completes s (.brx a r g) (fun t =>
       ThreadsDone s t (fun l => if l ∈ act then { s.curRill.thread l with pc := goal l } else s.moved l))) ∧
     (good → full → exec (.callx a r g) s = .next (s.trap 0x06)) ∧
     (good → ¬full → Completes s (.callx a r g) (fun t => ThreadsDone s t (fun l =>
       if l ∈ act then { s.curRill.thread l with pc := goal l, stack := ret :: (s.curRill.thread l).stack, region := goal l } else s.moved l))) ∧
     let fair := ∀ l ∈ act, ∀ o ∈ (s.curRill.thread l).stack.head?, o.toNat ≤ 0x00FFFFFC ∧ o.toNat % 4 = 0
     (¬fair → exec (.ret g) s = .next (s.trap 0x05)) ∧
     (fair → (∃ l ∈ act, (s.curRill.thread l).stack = []) → exec (.ret g) s = .next (s.trap 0x07)) ∧
     (fair → (∀ l ∈ act, (s.curRill.thread l).stack ≠ []) → Completes s (.ret g) (fun t => ThreadsDone s t (fun l =>
       if l ∈ act then { s.curRill.thread l with pc := back l, stack := (s.curRill.thread l).stack.tail, region := back l }
       else s.moved l))))

/-- R158, R161 to R163: KBRA decides once for the cohort on a uniform register; EXIT ends the regions of the acting lanes and makes them exited, outside
a prologue and where no cross-lane wait depends on them; NOP only moves the cohort on; YIELD also sets its yield marks; REGN
ends its regions at the following word. R165, R152: WAITC goes on where each waited counter is at or below its limit, and holds its cohort otherwise; WAIT_END
lets the threads of a wait that is over go on without issuing it again, and changes nothing while it is not over. -/
def Obligations.KbraExitYieldRegnAndWaitc : Prop :=
  (∀ (s : State) (n : BitVec 1) (k : BitVec 3) (o : BitVec 21) (g : BitVec 2), s.cohortOk →
     let v := s.curRill.kreg k.toNat
     let takes := (n = 0 ∧ v ≠ 0) ∨ (n = 1 ∧ v = 0)
     let target : Int := s.cur.pc.toNat + 4 * o.toInt
     let inside := (s.curRill.kcode : Int) ≤ target ∧ target ≤ s.curRill.kcode + 0x00FFFFFC
     (¬takes → Completes s (.kbra n k o) (fun t => ThreadsDone s t s.moved)) ∧
     (takes → inside ∨ isCp s.cur.rill = true → Completes s (.kbra n k o) (fun t => ThreadsDone s t (fun l =>
       if l ∈ s.cur.lanes then { s.curRill.thread l with pc := BitVec.ofInt 64 target } else s.curRill.thread l))) ∧
     (takes → ¬inside → isCp s.cur.rill = false → exec (.kbra n k o) s = .next (s.trap 0x05)) ∧
     (isCp s.cur.rill = false → (∀ w ∈ s.curRill.waits, isCross w.ins = false) →
       Completes s (.exit g) (fun t => ThreadsDone s t (fun l =>
         { s.movedEnding (s.acting g.toNat) l with exited := (s.curRill.thread l).exited || decide (l ∈ s.acting g.toNat) }))) ∧
     Completes s .nop (fun t => ThreadsDone s t s.moved) ∧
     Completes s .yield (fun t => ThreadsDone s t (fun l =>
       { s.moved l with yieldAt := if l ∈ s.cur.lanes then some s.curRill.issues else (s.curRill.thread l).yieldAt })) ∧
     Completes s .regn (fun t => ThreadsDone s t (fun l =>
       { s.moved l with region := if l ∈ s.cur.lanes then s.cur.pc + 4 else (s.curRill.thread l).region }))) ∧
  (∀ (s : State) (tg l n c m : BitVec 4), s.cohortOk →
     let below := fun (r : Rill) => (l.toNat = 15 ∨ r.nld ≤ l.toNat) ∧ (n.toNat = 15 ∨ r.nst ≤ n.toNat) ∧
       (∀ t, t < 4 → tg.getLsbD t = true → r.ncp.get 0 t ≤ c.toNat) ∧ (m.toNat = 15 ∨ r.ntl ≤ m.toNat)
     let w := s.mkWait (.waitc tg l n c m) [tg.toNat, l.toNat, n.toNat, c.toNat, m.toNat]
     (below s.curRill → Completes s (.waitc tg l n c m) (fun t => RillTo s t s.cur.rill
       (s.cohortAt { s.curRill with seq := s.curRill.seq + 1 } (s.cur.pc + 4)))) ∧
     (¬below s.curRill → Completes s (.waitc tg l n c m) (fun t => RillTo s t s.cur.rill
       { s.curRill with seq := s.curRill.seq + 1, waits := s.curRill.waits ++ [w] })) ∧
     ∀ (u : State) (k i : Nat), (u.rill k).waits[i]? = some w → u.runs k = true →
       (below (u.rill k) → Completes u (.waitEnd k i) (fun t => RillTo u t k
         ({ u.rill k with waits := dropNth (u.rill k).waits i }.mapThreads s.cur.lanes (fun _ x => { x with pc := s.cur.pc + 4 })))) ∧
       (¬below (u.rill k) → exec (.waitEnd k i) u = .next u))

/-- R164, R418: TRAP and BRK park their rill: the record holds the cause, the code, the trapping PC and the following word
as resume address, and the cohort stays at its PC with its regions ended at that word. -/
def Obligations.TrapAndBrkParkTheirRill : Prop :=
  ∀ (s : State) (i : BitVec 18), s.cohortOk → isCp s.cur.rill = false → s.curRill.agent = false →
    ∀ p ∈ [(Instr.trap i, 0x08), (Instr.brk i, 0x09)], Completes s p.1 (fun t =>
      t.curRill.trap = some
        { cause := p.2, pc := s.cur.pc, resume := s.cur.pc + 4, word := s.cur.word, cohort := s.cur.lanes
          aux := i.zeroExtend 32, waiting := true } ∧
      (∀ n, t.curRill.kreg n = s.curRill.kreg n) ∧ (∀ j n l, t.vreg j n l = s.vreg j n l) ∧ MemKept s t ∧
      (∀ j, j ≠ s.cur.rill → t.rill j = s.rill j) ∧
      ∀ l, t.curRill.thread l = { s.curRill.thread l with
        region := if l ∈ s.cur.lanes then s.cur.pc + 4 else (s.curRill.thread l).region })

/-! ## Memory instructions -/

/-- R279, R280, R286 to R288: a load or store whose lanes are aligned and translate issues one access with the places of its
lanes, raises its counter and moves its cohort on; one in which no lane acts only moves its cohort on. -/
def Obligations.LoadsAndStoresIssueTheirAccess : Prop :=
  ∀ (s : State) (d a : BitVec 7) (o : BitVec 3) (f : BitVec 4) (r g : BitVec 2) (z : BitVec 1), s.cohortOk →
    let m := s.obsMask o.toNat
    let act := s.acting g.toNat
    let issues := fun (j : Instr) (n : Nat) (acc : Acc) (x : Access) (addrs : List (Nat × Nat)) (data : Nat → Nat) =>
      (addrs = [] → Completes s j (fun t => ThreadsDone s t s.moved)) ∧
      ∀ ps u, addrs ≠ [] → (∀ p ∈ addrs, p.2 % n = 0) → s.translateLanes acc addrs = (.ok ps, u) →
        Completes s j (fun t => AccessIssued s t
          { x with size := n, mask := m, reqs := (ps.map (laneReqs n (fun l => (data l, 0)))).flatten } s.moved)
    let at_ := fun (n : Nat) => act.map (fun l => (l, (s.srcPair a.toNat l + BitVec.ofInt 64 (f.toInt * n)).toNat))
    let ld := fun (j : Instr) (n k : Nat) => issues j n .read
      { kind := .ld, dst := s.curRill.vname d.toNat, nreg := k, acq := decide (r.toNat = 1 ∧ m ≠ 0) } (at_ n) (fun _ => 0)
    let st := fun (j : Instr) (n : Nat) (v : Nat → Nat) => issues j n .write
      { kind := .st, rel := decide (r.toNat = 2 ∧ m ≠ 0) } (at_ n) v
    let reg := fun i l => (s.src d.toNat i l).toNat
    let n : Nat := 4 * (1 + z.toNat)
    let kat := [(0, (s.usrcPair a.toNat + BitVec.ofInt 64 (f.toInt * n)).toNat)]
    ld (.ld8 d a o f r g) 1 1 ∧ ld (.ld16 d a o f r g) 2 1 ∧ ld (.ld32 d a o f r g) 4 1 ∧ ld (.ld64 d a o f r g) 8 2 ∧
    ld (.ld128 d a o f r g) 16 4 ∧
    st (.st8 d a o f r g) 1 (fun l => reg 0 l % 256) ∧ st (.st16 d a o f r g) 2 (fun l => reg 0 l % 65536) ∧
    st (.st32 d a o f r g) 4 (reg 0) ∧ st (.st64 d a o f r g) 8 (fun l => reg 0 l + reg 1 l * 2 ^ 32) ∧
    st (.st128 d a o f r g) 16 (fun l => reg 0 l + reg 1 l * 2 ^ 32 + reg 2 l * 2 ^ 64 + reg 3 l * 2 ^ 96) ∧
    issues (.ldk d a o f r z) n .read { kind := .ld, uni := true, dst := s.curRill.kname d.toNat, nreg := 1 + z.toNat
                                        acq := decide (r.toNat = 1 ∧ m ≠ 0) } kat (fun _ => 0) ∧
    issues (.stk d a o f r z) n .write { kind := .st, uni := true, rel := decide (r.toNat = 2 ∧ m ≠ 0) } kat
      (fun _ => (s.usrc d.toNat 0).toNat + if z = 1 then (s.usrc d.toNat 1).toNat * 2 ^ 32 else 0)

/-- R274, R279, R289: LDL and STL issue one access to the local store of the lanes' addresses, in the pair pool where bit 18
is set, if every lane is aligned and within its bounds. -/
def Obligations.LocalAccessesIssueTheirAccess : Prop :=
  ∀ (s : State) (d a : BitVec 7) (z : BitVec 2) (f : BitVec 4) (g : BitVec 2), s.cohortOk → z.toNat < 3 →
    let n : Nat := 4 * 2 ^ z.toNat
    let act := s.acting g.toNat
    let at_ := fun l => (s.src a.toNat 0 l + BitVec.ofInt 32 (f.toInt * n)).toNat
    let group := s.group s.curRill.group
    let member := group.span && s.curRill.room == group.room
    let fits := fun x : Nat => x < 2 ^ 19 ∧
      (if 2 ^ 18 ≤ x then member = true ∧ x % 2 ^ 18 + n ≤ (s.room s.curRill.room).lsize
       else x + n ≤ (s.room s.curRill.room).lsize)
    let req := fun (v : Nat → Nat) (l : Nat) =>
      ({ lane := l, va := at_ l, tgt := if 2 ^ 18 ≤ at_ l then 5 else 4, pa := at_ l % 2 ^ 18, n := n, data := v l } : LaneReq)
    let reg := fun i l => (s.src d.toNat i l).toNat
    let v := fun l => if z.toNat = 0 then reg 0 l else if z.toNat = 1 then reg 0 l + reg 1 l * 2 ^ 32
      else reg 0 l + reg 1 l * 2 ^ 32 + reg 2 l * 2 ^ 64 + reg 3 l * 2 ^ 96
    (act = [] → Completes s (.ldl d a z f g) (fun t => ThreadsDone s t s.moved) ∧
      Completes s (.stl d a z f g) (fun t => ThreadsDone s t s.moved)) ∧
    (act ≠ [] → (∀ l ∈ act, at_ l % n = 0 ∧ fits (at_ l)) →
      Completes s (.ldl d a z f g) (fun t => AccessIssued s t
        { kind := .ld, dst := s.curRill.vname d.toNat, nreg := 2 ^ z.toNat, size := n, reqs := act.map (req (fun _ => 0)) } s.moved) ∧
      Completes s (.stl d a z f g) (fun t => AccessIssued s t { kind := .st, size := n, reqs := act.map (req v) } s.moved)) ∧
    ∀ l, (∀ j ∈ act, at_ j % n = 0) → act.find? (fun j => !decide (fits (at_ j))) = some l →
      exec (.ldl d a z f g) s = .next (s.laneTrap 0x10 0 (BitVec.ofNat 64 (at_ l)) l) ∧
      exec (.stl d a z f g) s = .next (s.laneTrap 0x10 0 (BitVec.ofNat 64 (at_ l)) l)

/-- R279, R285, R291: an ATOM or RED whose lanes are aligned and translate issues one access with the operands of Table 13-3,
and ends the region of every acting thread. -/
def Obligations.AtomicsIssueTheirAccess : Prop :=
  ∀ (s : State) (d a : BitVec 7) (o : BitVec 3) (z : BitVec 4) (r g : BitVec 2), s.cohortOk →
    let m := s.obsMask o.toNat
    let act := s.acting g.toNat
    let addrs := act.map (fun l => (l, (s.srcPair a.toNat l).toNat))
    let reg := fun i l => (s.src d.toNat i l).toNat
    let two := z.toNat = 7 ∨ z.toNat = 9
    let narrow := fun l => (reg 0 l, if two then reg 1 l else 0)
    let wide := fun l => (reg 0 l + reg 1 l * 2 ^ 32, if two then reg 2 l + reg 3 l * 2 ^ 32 else 0)
    let issues := fun (j : Instr) (n k : Nat) (kind : AccKind) (data : Nat → Nat × Nat) =>
      (act = [] → Completes s j (fun t => ThreadsDone s t s.moved)) ∧
      ∀ ps u, act ≠ [] → (∀ p ∈ addrs, p.2 % n = 0) → s.translateLanes .atomic addrs = (.ok ps, u) →
        Completes s j (fun t => AccessIssued s t
          { kind := kind, dst := s.curRill.vname d.toNat, nreg := k, size := n, sub := z.toNat, guard := g.toNat
            acq := r.getLsbD 0 && m != 0, rel := r.getLsbD 1 && m != 0, mask := m
            reqs := ps.map (fun p => { lane := p.1, va := p.2.1, tgt := p.2.2.tgt, peer := p.2.2.peer, pa := p.2.2.pa, n := n
                                       data := (data p.1).1, data2 := (data p.1).2 }) } (s.movedEnding act))
    issues (.atom32 d a o z r g) 4 1 .atom narrow ∧ issues (.atom64 d a o z r g) 8 2 .atom wide ∧
    issues (.red32 d a o z r g) 4 0 .red narrow ∧ issues (.red64 d a o z r g) 8 0 .red wide

/-- R280, R284: a memory instruction with a misaligned lane raises the alignment trap (15), and one whose lanes are aligned
but do not all translate the translation-fault trap (17) with the cause of the lowest-numbered faulting lane; it issues
nothing. The model's choice: while a walk for a lane has not ended, which the model reads as a walk in flight or queued (log entry 13), the
instruction changes nothing but the walk's own state (the issue in front of it is held: log entry 165). -/
def Obligations.MemoryInstructionsTrapOnTheirFaults : Prop :=
  ∀ (s : State) (d a : BitVec 7) (o : BitVec 3) (f z : BitVec 4) (r g : BitVec 2) (k : BitVec 1),
    let act := s.acting g.toNat
    let at_ := fun (n : Nat) => act.map (fun l => (l, (s.srcPair a.toNat l + BitVec.ofInt 64 (f.toInt * n)).toNat))
    let bare := act.map (fun l => (l, (s.srcPair a.toNat l).toNat))
    let n : Nat := 4 * (1 + k.toNat)
    let kat := [(0, (s.usrcPair a.toNat + BitVec.ofInt 64 (f.toInt * n)).toNat)]
    ∀ q ∈ [(Instr.ld16 d a o f r g, 2, Acc.read, at_ 2), (.ld32 d a o f r g, 4, .read, at_ 4), (.ld64 d a o f r g, 8, .read, at_ 8),
        (.ld128 d a o f r g, 16, .read, at_ 16), (.ld8 d a o f r g, 1, .read, at_ 1), (.st8 d a o f r g, 1, .write, at_ 1),
        (.st16 d a o f r g, 2, .write, at_ 2), (.st32 d a o f r g, 4, .write, at_ 4), (.st64 d a o f r g, 8, .write, at_ 8),
        (.st128 d a o f r g, 16, .write, at_ 16), (.ldk d a o f r k, n, .read, kat), (.stk d a o f r k, n, .write, kat),
        (.atom32 d a o z r g, 4, .atomic, bare), (.atom64 d a o z r g, 8, .atomic, bare), (.red32 d a o z r g, 4, .atomic, bare),
        (.red64 d a o z r g, 8, .atomic, bare), (.prefSc d a k g, 1, .read, bare)],
      (∀ l x, q.2.2.2.find? (fun p => p.2 % q.2.1 != 0) = some (l, x) →
        ∃ t, exec q.1 s = .next t ∧ t.curRill.trap = (s.laneTrap 0x0F 0 (BitVec.ofNat 64 x) l).curRill.trap ∧
          t.curRill.accs = (s.laneTrap 0x0F 0 (BitVec.ofNat 64 x) l).curRill.accs) ∧
      (∀ l x c u, (∀ p ∈ q.2.2.2, p.2 % q.2.1 = 0) → s.translateLanes q.2.2.1 q.2.2.2 = (.error (l, x, c), u) →
        (c ≠ waitCode → ∃ t, exec q.1 s = .next t ∧ t.curRill.trap = (u.laneTrap 0x11 c (BitVec.ofNat 64 x) l).curRill.trap ∧
          t.curRill.accs = (u.laneTrap 0x11 c (BitVec.ofNat 64 x) l).curRill.accs) ∧
        (c = waitCode → ∃ t, exec q.1 s = .next t ∧ t.rills = s.rills ∧ MemKept s t))

/-- R303 to R306, R285: PREF asks for a token of the line its lane addresses, INVL1 takes the line from the core's L1 and
INVL1.all empties it, SETOBS writes its slot from the lowest acting lane and ends the regions of the acting threads, PREF.sc
issues a load of the sidecar. None of them changes a register or a byte of memory. R303 and R304 have no completion to wait for; that PREF
and INVL1 hold their cohort while a walk for a lane has not ended is the model's choice (log entries 13 and 165). R305, R317, R268: FENCE moves its cohort on once the earlier accesses of its rill are performed
with respect to the mask's observers (kinds 0 and 1) and its earlier loads are bound (kinds 0 and 2), no earlier issue being
held before it takes effect (log entry 165), and then for kinds 0 and 2 empties the core's L1 when the mask holds more than core; until then its cohort is held. -/
def Obligations.PrefetchesObserverSlotsAndFences : Prop :=
  (∀ (s : State) (d a : BitVec 7) (r : BitVec 1) (z : BitVec 3) (g : BitVec 2), s.cohortOk →
     let act := s.acting g.toNat
     let c := keyCore s.cur.rill
     let at_ := fun l => (s.srcPair a.toNat l).toNat
     let via := if isCp s.cur.rill then Via.direct else .core c
     let alone := fun (l : Nat) (p : Place) (u : State) =>
       act = [l] ∧ s.translate via s.curRill.ctx (at_ l) .read s.curRill.agent = (.ok p, u)
     let kept := fun (t : State) => (∀ n, t.curRill.kreg n = s.curRill.kreg n) ∧ (∀ j n l, t.vreg j n l = s.vreg j n l) ∧
       t.curRill.accs = s.curRill.accs ∧ t.curRill.nld = s.curRill.nld ∧ t.curRill.nst = s.curRill.nst ∧ MemKept s t
     (∀ ps v, s.quietPlaces a.toNat g.toNat = (some ps, v) →
       Completes s (.pref a r g) (fun t => kept t ∧ (∀ l, t.curRill.thread l = s.moved l) ∧
         (act = [] → t.coh = s.coh) ∧ (∀ l p u, alone l p u → p.tgt ≠ 0 → t.coh = u.coh) ∧
         ∀ l p u, alone l p u → p.tgt = 0 →
           let h := sliceTower s.cur.rill (p.pa / 128)
           u.canRead (p.pa / 128) h = false → (u.coh.trans.filter (fun q => q.holder == h)).length < 32 →
             ∃ q ∈ t.coh.trans, q.line = p.pa / 128 ∧ q.holder = h) ∧
       Completes s (.invl1 a r g) (fun t => kept t ∧ (∀ l, t.curRill.thread l = s.moved l) ∧ t.coh = v.coh ∧
         ∀ n, (t.core c).l1.find n = if ps.any (fun p => p.tgt == 0 && p.pa / 128 == n) then none else (s.core c).l1.find n)) ∧
     (∀ v, s.quietPlaces a.toNat g.toNat = (none, v) →
       Completes s (.pref a r g) (fun t => kept t ∧ t.rills = s.rills) ∧ Completes s (.invl1 a r g) (fun t => kept t ∧ t.rills = s.rills)) ∧
     Completes s (.invl1All g) (fun t => kept t ∧ (∀ l, t.curRill.thread l = s.moved l) ∧
       (t.core c).l1 = if act = [] then (s.core c).l1 else []) ∧
     Completes s (.setobs z a r g) (fun t => kept t ∧ (∀ l, t.curRill.thread l = s.movedEnding act l) ∧ t.others = s.others ∧
       (act = [] → t.curRill.obsm = s.curRill.obsm) ∧
       ∀ l rest, act = l :: rest → s.curRill.obsm.length = 8 → ∀ i, i < 8 →
         t.curRill.obsm.getD i 0 = if i = z.toNat then (s.src a.toNat 0 l).truncate 8 else s.curRill.obsm.getD i 0) ∧
     (act = [] → Completes s (.prefSc d a r g) (fun t => ThreadsDone s t s.moved)) ∧
     ∀ ps u, act ≠ [] → s.translateLanes .read (act.map (fun l => (l, at_ l))) = (.ok ps, u) →
       Completes s (.prefSc d a r g) (fun t => AccessIssued s t
         { kind := .sidecar, dst := s.curRill.vname d.toNat, nreg := 4, size := 1
           reqs := ps.map (fun p => { lane := p.1, va := p.2.1, tgt := p.2.2.tgt, peer := p.2.2.peer, pa := p.2.2.pa, n := 1 }) } s.moved)) ∧
  (∀ (s : State) (z : BitVec 2) (m : BitVec 8), s.cohortOk → z.toNat < 3 →
     let earlier := s.curRill.accs.filter (fun a => decide (a.seq < s.curRill.seq))
     let written := ∀ a ∈ earlier, ∀ q ∈ a.reqs, q.done = true ∨ maskWaits m.toNat q.tgt = false
     let bound := ∀ a ∈ earlier, a.kind = .ld ∨ a.kind = .sidecar ∨ a.kind = .atom → ∀ q ∈ a.reqs, q.done = true
     let ready := (z.toNat ≠ 2 → written) ∧ (z.toNat ≠ 1 → bound) ∧ (∀ w ∈ s.curRill.waits, w.seq < s.curRill.seq → w.held = none)
     let c := keyCore s.cur.rill
     let kept := fun (t : State) => t.others = s.others ∧ (∀ n, t.curRill.kreg n = s.curRill.kreg n) ∧
       (∀ j n l, t.vreg j n l = s.vreg j n l) ∧ t.curRill.accs = s.curRill.accs ∧ MemKept s t
     (ready → Completes s (.fence z m) (fun t => kept t ∧ (∀ l, t.curRill.thread l = s.moved l) ∧ t.curRill.waits = s.curRill.waits ∧
       (t.core c).l1 = if z.toNat ≠ 1 ∧ 1 < m.toNat ∧ isCp s.cur.rill = false then [] else (s.core c).l1)) ∧
     (¬ready → Completes s (.fence z m) (fun t => kept t ∧ (∀ l, t.curRill.thread l = s.curRill.thread l) ∧ t.cores = s.cores ∧
       ∃ w, t.curRill.waits = s.curRill.waits ++ [w] ∧ w.ins = .fence z m ∧ w.pc = s.cur.pc ∧ w.lanes = s.cur.lanes)))

/-- R286, R287, R308: LOAD_RETURN binds one request of a load to the bytes at its place, or to the copy its core's L1 holds;
the last one writes the destination registers of the access, lowest address to the lowest register, and its counter falls.
R282, R308: STORE_VISIBLE writes the bytes of one lane's store and, as a free value has it (log entry 16), of all the lanes that share its
line or only of those that share a byte with it, the last lane's byte where lanes overlap, and no other byte but those of the
frame of a saved partner whose local store they are (R277); the last one ends the access and its counter falls. No register
changes. Which lanes of a line become visible together is a free value: the model's reading (log entry 16). -/
def Obligations.LoadsReturnAndStoresBecomeVisible : Prop :=
  (∀ (s : State) (k id lane : Nat) (hit : Bool) (a : Access) (q : LaneReq),
     s.access k id = some a → a.kind = .ld → a.reqs.find? (fun p => p.key == lane && !p.done) = some q →
     (s.rill k).mayPerform a q = true → (∀ p ∈ a.reqs, p.lane < 64) → a.sound → (s.rill k).live = true → k < leftBase →
     let copy := if hit = true ∧ a.acq = false ∧ isCp k = false ∧ q.tgt = 0 then (s.core (keyCore k)).l1.find (q.pa / 128) else none
     copy.isSome = true ∨ s.reachable k q false →
     let clean := match copy with
       | some x => x.psn &&& halfBits q.pa q.n = 0
       | none => s.poisoned (sliceTower k (q.pa / 128)) q.tgt q.pa q.n = false
     clean →
     let bytes := match copy with
       | some x => (x.bytes.drop (q.pa % 128)).take q.n
       | none => (List.range q.n).map (fun i => s.targetByte k q (q.pa + i))
     let b := a.mapReqs (fun p => if p.key = q.key then { p with data := ofBytes bytes, done := true } else p)
     let part := fun (l n : Nat) => BitVec.ofNat 32 (b.laneValue l / 2 ^ (32 * (n - a.dst)))
     Completes s (.loadReturn k id lane hit) (fun t => MemKept s t ∧ (∀ j, j ≠ k → t.rill j = s.rill j) ∧
       (b.performed = false → t.access k id = some b ∧ (t.rill k).nld = (s.rill k).nld ∧
         (∀ n, (t.rill k).kreg n = (s.rill k).kreg n) ∧ ∀ n l, t.vreg k n l = s.vreg k n l) ∧
       (b.performed = true → t.access k id = none ∧ (t.rill k).nld = (s.rill k).nld - 1 ∧
         (∀ n, (t.rill k).kreg n = if a.uni = true ∧ a.dst ≤ n ∧ n < a.dst + a.nreg then part 0 n else (s.rill k).kreg n) ∧
         ∀ n l, l < 64 → t.vreg k n l =
           if a.uni = false ∧ a.dst ≤ n ∧ n < a.dst + a.nreg ∧ l ∈ a.lanes then part l n else s.vreg k n l))) ∧
  (∀ (s : State) (k id lane : Nat) (a : Access) (q : LaneReq),
     s.access k id = some a → a.kind = .st → a.reqs.find? (fun p => p.key == lane && !p.done) = some q →
     a.sound → s.reachable k q true → s.memoriesOk →
     let full := if q.tgt < 2 then a.reqs.filter (fun p => !p.done && p.tgt == q.tgt && p.pa / 128 == q.pa / 128)
       else if 4 ≤ q.tgt then a.reqs.filter (fun p => !p.done && p.overlaps q) else [q]
     (if q.tgt = 3 then (s.rill k).mayPerform a q else full.all ((s.rill k).inOrder a)) = true →
     let partner := s.group (s.group (s.rill k).group).partner
     (∀ f, q.tgt = 5 → partner.st = .saved → partner.frame = some f →
       s.homeOpen (s.traps.cxpbase + 0x400000 * f + 0x160000 + q.pa) q.n true = true) →
     Completes s (.storeVisible k id lane) (fun t => ∃ g, (g = full ∨ q.tgt < 2 ∧ g = full.filter (fun p => p.overlaps q)) ∧
       let b := a.mapReqs (fun p => if g.any (fun x => x.key == p.key) then { p with done := true } else p)
       (∀ x, t.targetByte k q x = storedByte g (s.targetByte k q) x) ∧ t.memoriesOk ∧
       (match (if q.tgt = 5 ∧ partner.st = .saved then partner.frame else none) with
        | none => OtherTargetsKept s t k q
        | some f =>
          let base := s.traps.cxpbase + 0x400000 * f + 0x160000
          (∀ x, memGet t.dram x = if base ≤ x then storedByte g (fun o => memGet s.dram (base + o)) (x - base) else memGet s.dram x) ∧
          OtherTargetsKept { s with dram := t.dram } t k q) ∧
       (∀ j, j ≠ k → t.rill j = s.rill j) ∧ (∀ n, (t.rill k).kreg n = (s.rill k).kreg n) ∧ (∀ j n l, t.vreg j n l = s.vreg j n l) ∧
       (∀ l, (t.rill k).thread l = (s.rill k).thread l) ∧
       (b.performed = false → t.access k id = some b ∧ (t.rill k).nst = (s.rill k).nst) ∧
       (b.performed = true → t.access k id = none ∧ (t.rill k).nst = (s.rill k).nst - 1)))

/-- R281, R292 to R295: ATOMIC_PERFORM performs the lanes of one line in order, each reading what the one before left, with
the new values of Table 13-4; an ATOM then receives the old values, and FADDB its outcomes. Before the first, every line of
the issue is to hand, and until then the slices have been asked for them; a poisoned half leaves memory as it is, and the
access ends with the data-poison trap, that of a RED too (the model's reading: log entry 32). That the lines are asked for together, and
that a half found poisoned later ends the issue at that line, is the model's choice: log entry 123. -/
def Obligations.AtomicsPerformTheirTable : Prop :=
  ∃ val : Nat → Nat → Nat → Nat → Nat → Nat,
    (∀ sub n old v w, sub < 13 → sub ≠ 10 → 0 < n → old < 2 ^ n → v < 2 ^ n → w < 2 ^ n →
      val sub n old v w = (atomTable sub n (BitVec.ofNat n old) (BitVec.ofNat n v) (BitVec.ofNat n w)).toNat) ∧
    (∀ old v w, ∃ fl, Settled fp32 0 [fp32.decode old, fp32.decode v] [fp32.decode old, fp32.decode v] false (val 10 32 old v w, fl)) ∧
    ∀ (s : State) (k id lane : Nat) (a : Access) (q : LaneReq),
      s.access k id = some a → (a.kind = .atom ∨ a.kind = .red) → a.reqs.find? (fun p => p.key == lane && !p.done) = some q →
      a.sound → s.memoriesOk → (∀ p ∈ a.reqs, p.lane < 64 ∧ p.off = 0) → s.gone q = false → (s.rill k).live = true → k < leftBase →
      (a.reqs.map (·.lane)).Nodup → q.tgt < 2 → a.uni = false →
      let slice := fun (p : LaneReq) => sliceTower k (p.pa / 128)
      let toHand := ∀ p ∈ a.reqs, p.done = false →
        (p.tgt = 0 → s.canRead (p.pa / 128) (slice p) = true) ∧ (p.tgt = 1 → s.bnext.get none (p.pa / 2 ^ 21) = none)
      let rotten := a.reqs.any (fun p => !p.done && s.poisoned (slice p) p.tgt p.pa p.n)
      let g := a.reqs.filter (fun p => !p.done && p.tgt == q.tgt && p.pa / 128 == q.pa / 128)
      g.all ((s.rill k).inOrder a) = true →
      let run := atomRun (val a.sub) g (s.targetByte k q)
      let old := fun (p : LaneReq) => (run.1.zip g).find? (fun x => x.2.key == p.key) |>.map (·.1)
      let b := a.mapReqs (fun p => match old p with
        | some v => { p with data := v, done := true
                             ok := a.sub == 9 && decide (v + p.data < 2 ^ (8 * p.n)) && decide (v + p.data ≤ p.data2) }
        | none => p)
      let asked := fun (x : Access) => { x with reqs := x.reqs.map (fun (p : LaneReq) => { p with left := false }) }
      (a.clear = false → ¬toHand → Completes s (.atomicPerform k id lane) (fun t => MemKept s t ∧ (∀ j, j ≠ k → t.rill j = s.rill j) ∧
        { t.rill k with accs := [] } = { s.rill k with accs := [] } ∧ t.xblks = s.xblks ∧
        (t.rill k).accs.map asked = (s.rill k).accs.map asked)) ∧
      (a.clear = true ∨ toHand → rotten = true → s.reaches (keyCore k) = true → isCp k = false → (s.rill k).trap = none →
        (s.rill k).dropped = false → Completes s (.atomicPerform k id lane) (fun t => MemKept s t ∧
        ((t.rill k).trap.map (·.cause)) = some 0x12 ∧ ((t.rill k).trap.map (·.pc)) = some a.pc ∧ t.access k id = none ∧
        ∀ j n l, t.vreg j n l = s.vreg j n l)) ∧
      (a.clear = true ∨ toHand → rotten = false → (∀ p ∈ a.reqs, p.done = false → p.tgt ≠ 2) → s.reachable k q true → Completes s (.atomicPerform k id lane) (fun t =>
        (∀ x, t.targetByte k q x = run.2 x) ∧ OtherTargetsKept s t k q ∧ (∀ j, j ≠ k → t.rill j = s.rill j) ∧
        (∀ n, (t.rill k).kreg n = (s.rill k).kreg n) ∧
        (q.tgt = 0 → isCp k = false → (t.core (keyCore k)).l1.find (q.pa / 128) = none) ∧
        (b.performed = true → t.access k id = none ∧ (a.kind = .red → (t.rill k).nst = (s.rill k).nst - 1) ∧
          (a.kind = .atom → (t.rill k).nld = (s.rill k).nld - 1)) ∧
        (¬(b.performed = true ∧ a.kind = .atom ∧ a.sub = 9) → ∀ l, (t.rill k).thread l = (s.rill k).thread l) ∧
        (b.performed = true → a.kind = .atom → a.sub = 9 → 0 < a.guard → a.guard < 4 → ∀ l ∈ a.lanes,
          ((t.rill k).thread l).guard a.guard = b.reqs.any (fun p => p.lane == l && p.ok)) ∧
        ∀ n l, l < 64 → t.vreg k n l =
          if b.performed = true ∧ a.kind = .atom ∧ a.dst ≤ n ∧ n < a.dst + a.nreg ∧ l ∈ a.lanes
          then BitVec.ofNat 32 (b.laneValue l / 2 ^ (32 * (n - a.dst))) else s.vreg k n l))

/-! ## Copies, remote operations and collectives -/

/-- R296, R297, R280: an ACOPY whose acting lanes pass the checks of size, alignment and local bounds places one command in
its copy context and raises its tag's counter; one that fails a check traps (19, 15, 16) and places none. R297 to R299: a line write of the oldest command of a tag leaves the V bytes of its lanes and their zero fill in local
store, the highest lane's where lanes overlap, and changes no other byte; the command ends, and its tag's counter falls, with
its last lane. A command whose first lane faults is held by the fault. -/
def Obligations.CopiesJoinAndFillLocalStore : Prop :=
  (∀ (s : State) (h : BitVec 1) (d a b : BitVec 7) (r l : BitVec 1) (g : BitVec 2), s.cohortOk →
     let act := s.acting g.toNat
     let tag := 2 * h.toNat + l.toNat
     let ctl := fun i => (s.src b.toNat 0 i).toNat
     let size := fun i => 4 * 2 ^ (ctl i / 256 % 8)
     let dst := fun i => (s.src d.toNat 0 i).toNat
     let src := fun i => (s.srcPair a.toNat i).toNat
     let group := s.group s.curRill.group
     let fits := fun i => dst i < 2 ^ 19 ∧
       (if 2 ^ 18 ≤ dst i then (group.span && s.curRill.room == group.room) = true ∧
          dst i % 2 ^ 18 + size i ≤ (s.room s.curRill.room).lsize
        else dst i + size i ≤ (s.room s.curRill.room).lsize)
     let lane := fun i => ({ lane := i, dst := dst i, src := src i, size := size i, valid := min (ctl i % 256) (size i) } : CopyLane)
     (act = [] → Completes s (.acopy h d a b r l g) (fun t => ThreadsDone s t s.moved)) ∧
     (act ≠ [] → (∀ i ∈ act, ctl i / 256 % 8 < 6 ∧ dst i % size i = 0 ∧ src i % size i = 0 ∧ fits i) → s.overCap 0x840 = false →
       Completes s (.acopy h d a b r l g) (fun t => RillTo s t s.cur.rill
         (s.cohortAt { s.curRill with
           seq := s.curRill.seq + 1
           copies := s.curRill.copies ++
             [{ id := s.curRill.seq, kind := .acopy, seq := s.curRill.seq, tag := tag, lanes := act.map lane }]
           ncp := s.curRill.ncp.set tag (s.curRill.ncp.get 0 tag + 1) } (s.cur.pc + 4)))) ∧
     (∀ i, act.find? (fun i => decide (6 ≤ ctl i / 256 % 8)) = some i →
       exec (.acopy h d a b r l g) s = .next (s.laneTrap 0x13 0 0 i)) ∧
     (∀ i, (∀ j ∈ act, ctl j / 256 % 8 < 6) → act.find? (fun i => dst i % size i != 0 || src i % size i != 0) = some i →
       exec (.acopy h d a b r l g) s = .next (s.laneTrap 0x0F 0 (BitVec.ofNat 64 (if dst i % size i ≠ 0 then dst i else src i)) i)) ∧
     ∀ i, (∀ j ∈ act, ctl j / 256 % 8 < 6 ∧ dst j % size j = 0 ∧ src j % size j = 0) → act.find? (fun i => !decide (fits i)) = some i →
       exec (.acopy h d a b r l g) s = .next (s.laneTrap 0x10 0 (BitVec.ofNat 64 (dst i)) i)) ∧
  (∀ (s : State) (k tag : Nat) (c : CopyCmd), (s.rill k).oldestOf tag = some c → s.memoriesOk →
     let p := s.copyPrep k c
     let room := (s.rill k).room
     let done := c.lanes.map (fun q => if p.1.any (fun x => x.lane == q) then { q with done := true } else q)
     (p.1 = [] → Completes s (.copyLineWrite k tag) (MemKept s)) ∧
     (p.1 ≠ [] → (∀ x ∈ p.1, x.poisoned = false ∧ bitOf 18 x.lane.dst = false) → Completes s (.copyLineWrite k tag) (fun t =>
       (∀ x, memGet (t.room room).mem x = copiedByte p.1 (memGet (s.room room).mem) x) ∧
       (∀ j, j ≠ room → (t.room j).mem = (s.room j).mem) ∧ t.dram = s.dram ∧ t.basin = s.basin ∧ t.hostMem = s.hostMem ∧
       (done.all (·.done) = false → (t.rill k).ncp = (s.rill k).ncp ∧ t.copyCmd k c.id = some { c with lanes := done }) ∧
       (done.all (·.done) = true → t.copyCmd k c.id = none ∧
         (t.rill k).ncp.get 0 tag = (s.rill k).ncp.get 0 tag - 1))) ∧
     (∀ x ∈ p.1, x.lane ∈ c.nextLine ∧ (x.lane.valid = 0 → x.bytes = [])) ∧
     ∀ q pl u, c.held = none → (s.rill k).engineMayRead c.seq = true → c.nextLine = [q] → bitOf 18 q.dst = false → 0 < q.valid →
       q.buf = none → s.translate (.engine (s.coreOf k)) (s.rill k).ctx q.src .read false = (pl, u) →
       (∀ e, pl = .error e → e ≠ waitCode → Completes s (.copyLineWrite k tag) (fun t => MemKept s t ∧
         (t.copyCmd k c.id).map (fun x => (x.held.isSome, x.fcause, x.faddr)) = some (true, e, q.src))) ∧
       (∀ x, pl = .ok x → x.tgt = 0 → s.canRead (x.pa / 128) (coreTower (s.coreOf k)) = true →
         p.1.map (fun y => (y.lane, y.bytes)) = [(q, memRead s.dram x.pa q.valid)]))

/-- R300, R381, R384, R392, R33, R35: RCOPY, ROP and COLL read the block address from the lowest acting lane, capture the block,
place one command and end the regions of the acting threads; a misaligned block address or a block that breaks its checks
raises the invalid-parameter-block trap (11). The model's choices: which fields count as reserved (log entries 23 and 43), and that nothing
is done while a walk for the block, or for an address of an ROP, has not ended (log entries 13 and 165). -/
def Obligations.BlockInstructionsPlaceOneCommand : Prop :=
  ∀ (s : State) (a : BitVec 7) (r : BitVec 1) (g : BitVec 2), s.cohortOk →
    let act := s.acting g.toNat
    let all := [Instr.rcopy a r g, .rop a r g, .coll a r g]
    (act = [] → ∀ i ∈ all, Completes s i (fun t => ThreadsDone s t s.moved)) ∧
    ∀ l rest addr, act = l :: rest → addr = (s.srcPair a.toNat l).toNat →
      (addr % 64 ≠ 0 → ∀ i ∈ all, exec i s = .next (s.trap 0x0B)) ∧
      (∀ b u, s.capture addr 1 = .ok (b, u) →
        (rcopyBad b = false → u.overCap 0x841 = false → Completes s (.rcopy a r g) (fun t => BlockIssued s t .rcopy b act)) ∧
        (rcopyBad b = true → exec (.rcopy a r g) s = .next (u.trap 0x0B)) ∧
        ((word64 b 5 = 0 ∨ word64 b 5 % 64 ≠ 0 ∨ word64 b 3 % 64 ≠ 0 ∨ word64 b 4 % 64 ≠ 0 ∨
            (word64 b 3 < word64 b 4 + word64 b 5 ∧ word64 b 4 < word64 b 3 + word64 b 5)) →
          exec (.rcopy a r g) s = .next (u.trap 0x0B))) ∧
      (∀ b u, s.capture addr 2 = .ok (b, u) →
        (∀ p v, ropBad b = false → u.ropPlaces b = (.ok p, v) →
          Completes s (.rop a r g) (fun t => BlockIssued s t .rop (b ++ [p.peer, p.pa]) act)) ∧
        (∀ c va v, ropBad b = false → u.ropPlaces b = (.error (c, va), v) →
          exec (.rop a r g) s = .next (if c = waitCode then v else v.trapWith 0x11 c (BitVec.ofNat 64 va) 0 s.cur.pc)) ∧
        (ropBad b = true → exec (.rop a r g) s = .next (u.trap 0x0B))) ∧
      ∀ b u, s.capture addr 3 = .ok (b, u) →
        (collBad s.fab.devno b = false → Completes s (.coll a r g) (fun t => BlockIssued s t .coll b act)) ∧
        (collBad s.fab.devno b = true → exec (.coll a r g) s = .next (u.trap 0x0B))

/-- R301, R384, R392: RCOPY_UNIT reads a remote copy's next 64-byte unit whole and writes the oldest one read, to its place and
nowhere else; for an ROP it sends its request once, and for a collective it passes the command to Confluence, which holds 64,
and frees its entry of the copy context. -/
def Obligations.RemoteCopyMovesWholeUnits : Prop :=
  ∀ (s : State) (k id : Nat) (c : CopyCmd), s.copyCmd k id = some c →
    (c.kind = .rcopy → s.rcopyReady k id = none → Completes s (.rcopyUnit k id) (MemKept s)) ∧
    (∀ e q x, c.kind = .rcopy → s.rcopyReady k id = some (e, q, x) → s.memoriesOk → x.tgt ≠ 2 → Completes s (.rcopyUnit k id) (fun t =>
      (∀ a, memGet t.dram a = if x.tgt = 0 then patched (memGet s.dram) x.pa (q.buf.getD []) a else memGet s.dram a) ∧
      (∀ a, memGet t.basin a = if x.tgt = 1 then patched (memGet s.basin) x.pa (q.buf.getD []) a else memGet s.basin a) ∧
      (∀ a, memGet t.hostMem a = if 3 ≤ x.tgt then patched (memGet s.hostMem) x.pa (q.buf.getD []) a else memGet s.hostMem a) ∧
      ∀ r a, memGet (t.room r).mem a = memGet (s.room r).mem a)) ∧
    (∀ x u, c.kind = .rcopy → c.held = none → c.begun = true → c.lanes = [] → c.redo = [] → 64 * c.pos < word64 c.block 5 →
      s.inFlight k c < 256 →
      s.translate (.engine (s.coreOf k)) (s.rill k).ctx (word64 c.block 3 + 64 * c.pos) .read false = (.ok x, u) → x.tgt = 0 →
      let h := coreTower (s.coreOf k)
      s.canRead (x.pa / 128) h = true → s.poisoned h 0 x.pa 64 = false →
      Completes s (.rcopyUnit k id) (fun t => (t.copyCmd k id).map (fun c => (c.pos, c.lanes)) =
        some (c.pos + 1, [{ lane := c.pos, size := 64, valid := 64, buf := some (memRead s.dram x.pa 64) }]))) ∧
    (c.kind = .rop → c.begun = false → c.held = none → c.redo = [] → (s.rill k).engineMayRead c.seq = true → Completes s (.rcopyUnit k id) (fun t => MemKept s t ∧
      (t.copyCmd k id).map (·.begun) = some true ∧
      ∃ r ∈ t.fab.reqs, r.kind = .rop ∧ r.rill = k ∧ r.acc = c.id ∧ r.peer = word64 c.block 16 ∧ r.data = c.block.take 16)) ∧
    (c.kind = .coll → (s.rill k).engineMayRead c.seq = true → s.fab.colls.length < 64 →
      Completes s (.rcopyUnit k id) (fun t => MemKept s t ∧ t.copyCmd k id = none ∧
        ∃ x, t.fab.colls = s.fab.colls ++ [x] ∧ x.group = (s.rill k).group ∧ x.rid = (s.rill k).rid ∧ x.block = c.block ∧
          x.started = 0 ∧ x.status = none)) ∧
    (c.kind = .coll → 64 ≤ s.fab.colls.length → exec (.rcopyUnit k id) s = .next s) ∧
    (c.begun = true → c.kind = .rop → exec (.rcopyUnit k id) s = .next s)

/-- R301, R302, R383, R34: once its last unit is written, a remote copy performs its completion action and leaves its copy
context, and an ROP whose result has come writes its 64 bytes at RESVA before; until then nothing changes. -/
def Obligations.RemoteCopyEndsWithItsCompletionAction : Prop :=
  ∀ (s : State) (k id : Nat) (c : CopyCmd), s.copyCmd k id = some c → c.held = none → s.memoriesOk →
    let tower := coreTower (s.coreOf k)
    let open_ := fun (x : Place) => x.tgt = 0 ∧ s.canWrite (x.pa / 128) tower = true
    let at_ := fun va x u => s.translate (.engine (s.coreOf k)) (s.rill k).ctx va .write false = (.ok x, u)
    let finished := c.begun = true ∧ c.nextUnit = none ∧ s.inFlight k c = 0
    (c.kind = .rcopy → ¬finished → exec (.rcopyComplete k id) s = .next s) ∧
    (c.kind = .rcopy → finished → hCmode c.block = 0 → Completes s (.rcopyComplete k id) (fun t =>
      t.copyCmd k id = none ∧ MemKept s t ∧ (t.rill k).ncp = (s.rill k).ncp)) ∧
    (∀ x u, c.kind = .rcopy → finished → hCmode c.block = 2 → at_ (word64 c.block 1) x u → open_ x →
      Completes s (.rcopyComplete k id) (fun t => t.copyCmd k id = none ∧
        ∀ a, memGet t.dram a = patched (memGet s.dram) x.pa (toBytes 8 (word64 c.block 2)) a)) ∧
    (c.kind = .rcopy → finished → hCmode c.block = 1 → Completes s (.rcopyComplete k id) (fun t =>
      t.copyCmd k id = none ∧ MemKept s t ∧ t.rooms = (s.ringPost (s.rill k).room (hCring c.block)).rooms)) ∧
    (c.kind = .rop → c.result = [] → exec (.rcopyComplete k id) s = .next s) ∧
    (∀ x u, c.kind = .rop → c.result ≠ [] → c.pos ≠ 1 → hCmode c.block = 0 → at_ (word64 c.block 4) x u → open_ x →
      Completes s (.rcopyComplete k id) (fun t => t.copyCmd k id = none ∧
        ∀ a, memGet t.dram a = patched (memGet s.dram) x.pa c.result a))

/-- R386, R387, R391: a collective's buckets start in order, each when its signal word has reached SIGBASE + b + 1; a chunk that
arrives from a device in session is kept once, by the oldest collective of its identifier that waits for it, and acknowledged on
VC2, and one whose fields differ ends the collective with code 2; a collective that is complete or has met an error stores its
status word once its results at peers are acknowledged, performs its completion action once the status word is, and leaves
Confluence. The model's choices: which collective takes a chunk (log entry 128), what the packets of the exchange hold and when they go
(log entry 103), and that the IOD reads and stores at the home-tower slice (log entry 19). -/
def Obligations.CollectivesAdvanceAndEnd : Prop :=
  ∀ (s : State) (i bucket : Nat) (c : Coll), s.fab.colls[i]? = some c →
    let b := c.block
    let rank := s.collRank b
    let own := cOwn b bucket
    let z := cSize b
    let ready := c.susp = false ∧ c.status = none ∧ bucket = c.started ∧ bucket < cBuckets b
    (¬ready → exec (.collectiveSignalRead i bucket) s = .next s) ∧
    (cNbkt b = 0 → s.collSignal i c bucket = (some true, s)) ∧
    (∀ v u, cNbkt b ≠ 0 → c.got = [] → s.vread .direct c.party c.ctx (word64 b 9) 8 false = (.ok v, u) →
      (s.collSignal i c bucket).1 = some (decide ((word64 b 10 + bucket + 1) % 2 ^ 64 ≤ ofBytes v))) ∧
    (∀ x u, ready → x ≠ some true → s.collSignal i c bucket = (x, u) → exec (.collectiveSignalRead i bucket) s = .next u) ∧
    (∀ u x v w, ready → s.collSignal i c bucket = (some true, u) →
      u.collRead c (word64 b 3 + own.1 * z) (own.2 * z) (own.2 * z + 2) c.got = (.ok x, v, w) →
      Completes s (.collectiveSignalRead i bucket) (fun t =>
        (t.fab.colls[i]?).map (fun x => (x.started, x.data.get [] (64 * bucket + rank))) = some (bucket + 1, v.map Prod.fst))) ∧
    (∀ cid from_ data exps hdr, (∀ x ∈ s.fab.colls, bitsOf 15 0 (word64 x.block 8) = cid → x.status = none → x.data.find (64 * bucket + from_) ≠ none) →
      exec (.collectiveChunk cid bucket from_ data exps hdr) s = .next s) ∧
    (∀ cid from_ data exps hdr, bitsOf 15 0 (word64 b 8) = cid → c.status = none → c.data.find (64 * bucket + from_) = none →
      (∀ (j : Nat) (x : Coll), j < i → s.fab.colls[j]? = some x →
        bitsOf 15 0 (word64 x.block 8) ≠ cid ∨ x.status ≠ none ∨ x.data.find (64 * bucket + from_) ≠ none) →
      let session := (s.peer ((collRanks b).getD from_ 0)).sess
      (from_ < cNrank b → session = false → exec (.collectiveChunk cid bucket from_ data exps hdr) s = .next s) ∧
      (cNrank b ≤ from_ ∨ session = true → hdr ≠ collHeader b →
        Completes s (.collectiveChunk cid bucket from_ data exps hdr) (fun t => MemKept s t ∧
          (t.fab.colls[i]?).map (·.status) = some (some (2, from_)))) ∧
      (from_ < cNrank b → session = true → from_ ≠ rank → bucket < cBuckets b → hdr = collHeader b → data.length = own.2 * z →
        Completes s (.collectiveChunk cid bucket from_ data exps hdr) (fun t =>
          (t.fab.colls[i]?).map (fun x => x.data.get [] (64 * bucket + from_)) = some data))) ∧
    ∀ st, c.status = some st → c.told = false → hCmode b = 0 → s.collStoring c 0 = false → s.collStoring c 3 = false →
      (word64 b 6 = 0 → Completes s (.collectiveEnd i) (fun t => t.fab.colls = dropNth s.fab.colls i ∧ MemKept s t)) ∧
      ∀ x u, word64 b 6 ≠ 0 → s.translate .direct c.ctx (word64 b 6) .write false = (.ok x, u) →
        (x.tgt = 2 → Completes s (.collectiveEnd i) (fun t => MemKept s t ∧ (t.fab.colls[i]?).map (·.told) = some true)) ∧
        (x.tgt = 0 → memWf s.dram = true → s.canWrite (x.pa / 128) (homeBd (x.pa / 128)) = true →
        Completes s (.collectiveEnd i) (fun t => t.fab.colls = dropNth s.fab.colls i ∧
          ∀ a, memGet t.dram a = patched (memGet s.dram) x.pa
            (toBytes 8 (st.1 + st.2 * 256 + c.completed % 2 ^ 32 * 2 ^ 16)) a))

/-- R389: the SBI8 reduction of a block: exponents meet in their maximum E, 255 wins, each rank's elements are aligned and
rounded on their own, and the sums are rounded once to FP32, or to the smallest exponent at which every element fits. -/
def Obligations.SbiReductionFollowsItsPhases : Prop :=
  ∀ (n : Nat) (q : Nat → List Int) (x : Nat → Nat), 0 < n → (∀ r, x r ≤ 255) →
    ∃ E, (∀ r, r < n → x r ≤ E) ∧ (∃ r, r < n ∧ x r = E) ∧
      let a := fun (r k : Nat) => roundInt 0 ⟨(q r).getD k 0, 8 - ((E : Int) - x r)⟩
      let S := fun k => ((List.range n).map (fun r => a r k)).foldr (· + ·) 0
      let at_ := fun (f k : Nat) => roundInt 0 ⟨S k, (E : Int) - 8 - f⟩
      (E = 255 → (combineBlock false n q x).bytes = List.replicate 32 0 ∧ (combineBlock false n q x).exps = [255]) ∧
      (E < 255 → (combineBlock true n q x).exps = [] ∧
        ∀ k, k < 32 → ofBytes (((combineBlock true n q x).bytes.drop (4 * k)).take 4) = (fp32.roundDy 0 ⟨S k, (E : Int) - 135⟩ false).1) ∧
      (E < 255 → ∃ f, f ≤ 254 ∧ (combineBlock false n q x).exps = [BitVec.ofNat 8 f] ∧
        (∀ e, e < f → ∃ k, k < 32 ∧ 127 < (at_ e k).natAbs) ∧
        (f < 254 → ∀ k, k < 32 → (at_ f k).natAbs ≤ 127) ∧
        ∀ k, k < 32 → ((combineBlock false n q x).bytes.getD k 0).toInt = max (-127) (min 127 (at_ f k)))

/-- R106, R378, R379: a Sluice takes requests of a peer in session only, applies each of a window once and keeps its response: a
request already applied, and a late copy of one from before the latest oldest number, change no memory and are counted in DUPS,
the first answered from the cache; a store writes its bytes, and a load answers with the bytes at its address and changes no byte
but those of its entry of the result cache (R266); on VC0 a request whose predecessor is not applied is held; one beyond the
window is discarded. Where an entry lies in the result cache is the model's choice: log
entry 104; that its line is written at its home, and that the latest oldest number counts, are its readings: log entries 132 and 160. -/
def Obligations.SluicesApplyEachRequestOnce : Prop :=
  ∀ (s : State) (sluice src vc n u addr : Nat) (data : List Byte), sluice < 12 → src < 64 → vc < 2 → n < 65536 → u < 65536 →
    addr < 2 ^ 40 → addr / 4096 % 12 = sluice →
    let key := winKey sluice src vc
    let w := s.fab.wins.get {} key
    let before := fun (a b : Nat) => decide (0 < (b + 65536 - a) % 65536 ∧ (b + 65536 - a) % 65536 < 32768)
    let oldest := if before w.oldest u = true then u else w.oldest
    let inWindow := fun (m : Nat) => decide ((m + 65536 - oldest) % 65536 < 1024)
    let live := inWindow n
    let line := addr / 128
    let run := fun (op : Nat) => Completes s (.sluiceRequest sluice src vc n u op addr data)
    let entry := cacheEntry key n
    ((s.peer src).sess = false → ∀ op, exec (.sluiceRequest sluice src vc n u op addr data) s = .next s) ∧
    ((s.peer src).sess = true →
    (∀ op, live = true → w.applied.contains n = true → run op (fun t => MemKept s t ∧ t.fab.dups = satAdd 64 s.fab.dups 1 ∧
      t.cached key n = s.cached key n)) ∧
    (∀ op, before n oldest = true → run op (fun t => MemKept s t ∧ t.fab.dups = satAdd 64 s.fab.dups 1 ∧
      (t.fab.wins.get {} key).held = w.held)) ∧
    (∀ op, live = false → before n oldest = false → run op (fun t => MemKept s t ∧ t.fab.dups = s.fab.dups ∧
      (t.fab.wins.get {} key).held = w.held ∧
      ∀ m, inWindow m = true → (t.fab.wins.get {} key).cache.find m = w.cache.find m)) ∧
    (∀ op, live = true → w.applied.contains n = false → vc = 0 → n ≠ (w.last + 1) % 65536 → w.held = [] → run op (fun t =>
      MemKept s t ∧ (t.fab.wins.get {} key).held = [{ n := n, op := op, addr := addr, data := data }])) ∧
    (live = true → w.applied.contains n = false → vc = 1 → w.held = [] → memWf s.dram = true → s.canWrite line (homeBd line) = true →
      run 1 (fun t => (∀ a, memGet t.dram a = patched (memGet s.dram) addr data a) ∧ t.cached key n = [0] ∧
        (t.fab.wins.get {} key).applied.contains n = true)) ∧
    (live = true → w.applied.contains n = false → vc = 1 → w.held = [] → memWf s.dram = true → s.canRead line (homeBd line) = true →
      s.poisoned (homeBd line) 0 addr (data.getD 0 0).toNat = false → s.homeOpen entry (data.getD 0 0).toNat true = true →
      let answer := memRead s.dram addr (data.getD 0 0).toNat
      run 0 (fun t => (∀ a, memGet t.dram a = patched (memGet s.dram) entry answer a) ∧
        t.cached key n = 0 :: answer ∧ (t.fab.wins.get {} key).applied.contains n = true)))

/-- R375, R378, R380: the response to a lane's request performs it, with the data it brings; refused lanes end in the
translation-fault trap with code 5 at the lowest of them, poisoned data in the data-poison trap; a request that may be
abandoned ends its lane's access in the remote-unreachable trap, or its ROP with status 5. -/
def Obligations.ResponsesReachTheirRequester : Prop :=
  ∀ (s : State) (req code : Nat) (data : List Byte) (r : RemReq),
    (s.fab.reqs.find? (fun r => r.id == req) = some r → s.abandonable r = false → exec (.remoteRequestAbandon req) s = .next s) ∧
    (∀ c, s.fab.reqs.find? (fun r => r.id == req) = some r → s.abandonable r = true → r.kind = .rop → r.rill < 0x10000 →
      s.copyCmd r.rill r.acc = some c → c.kind = .rop →
      Completes s (.remoteRequestAbandon req) (fun t => (t.copyCmd r.rill r.acc).map (·.result) = some (toBytes 64 5))) ∧
    ∀ a, r.rill < 0x10000 → s.access r.rill r.acc = some a → r.kind.isLane = true → (∀ p ∈ a.reqs, p.lane < 64) →
      a.sound → a.acq = false → a.uni = false → (s.rill r.rill).trap = none → (s.rill r.rill).live = true →
      (s.rill r.rill).dropped = false →
      let b := a.mapReqs (fun q => if q.key = r.lane then { q with done := true } else q)
      let full := a.mapReqs (fun q => if q.key = r.lane then { q with done := true, data := ofBytes (data.take r.size) } else q)
      let k := r.rill
      let cause := fun (t : State) => ((t.rill k).trap.map (fun x => (x.cause, x.fcause, x.pc)))
      let still := fun (t : State) => ∀ n l, t.vreg k n l = s.vreg k n l
      (s.fab.reqs.find? (fun r => r.id == req && r.sent) = some r → b.performed = true →
        (a.kind = .ld → code = 0 → Completes s (.remoteResponse req code data) (fun t => MemKept s t ∧ t.access k r.acc = none ∧
          (t.rill k).nld = (s.rill k).nld - 1 ∧ ∀ n l, l < 64 → t.vreg k n l =
            if a.dst ≤ n ∧ n < a.dst + a.nreg ∧ l ∈ a.lanes then BitVec.ofNat 32 (full.laneValue l / 2 ^ (32 * (n - a.dst)))
            else s.vreg k n l)) ∧
        (a.kind = .st → code = 0 → Completes s (.remoteResponse req code data) (fun t => MemKept s t ∧ still t ∧
          t.access k r.acc = none ∧ (t.rill k).nst = (s.rill k).nst - 1 ∧ (t.rill k).trap = none)) ∧
        (code = 1 → Completes s (.remoteResponse req code data) (fun t => MemKept s t ∧ still t ∧ cause t = some (0x11, 5, a.pc))) ∧
        (code = 2 → Completes s (.remoteResponse req code data) (fun t => MemKept s t ∧ still t ∧ cause t = some (0x12, 0, a.pc)))) ∧
      (s.fab.reqs.find? (fun r => r.id == req && r.sent) = some r → b.performed = false → code = 0 →
        Completes s (.remoteResponse req code data) (fun t => MemKept s t ∧ still t ∧ (t.rill k).nld = (s.rill k).nld ∧
          (t.access k r.acc).map (fun x => x.reqs.map (·.done)) = some (b.reqs.map (·.done)))) ∧
      (s.fab.reqs.find? (fun r => r.id == req) = some r → s.abandonable r = true → b.performed = true →
        Completes s (.remoteRequestAbandon req) (fun t => still t ∧ cause t = some (0x19, 0, a.pc)))

/-! ## Tile units -/

/-- R338, R340, R341, R355, R357: TMMA, TZERO, TLDA, TSTA and TCVT place one operation at the tail of their unit's queue, raise
the rill's tile counter and end the regions of the acting threads; a unit the group does not hold raises the tile-unit trap (21),
a misaligned address or stride the alignment trap (15), a bad block the invalid-parameter-block trap (11). -/
def Obligations.TileInstructionsQueueTheirOperation : Prop :=
  ∀ (s : State) (a d : BitVec 7) (z : BitVec 4) (ty : BitVec 2) (r m : BitVec 1) (g : BitVec 2), s.cohortOk →
    let act := s.acting g.toNat
    let room := s.room s.curRill.room
    let all := [Instr.tmma a r m g, .tzero z m g, .tlda ty z a r m g, .tsta ty z a r m g, .tcvt ty z a r m g]
    (act = [] → ∀ i ∈ all ++ [Instr.twait m g, .tprog d m g], Completes s i (fun t => ThreadsDone s t s.moved)) ∧
    (act ≠ [] → room.units[m.toNat]? = none →
      ∀ i ∈ all ++ [Instr.twait m g, .tprog d m g], exec i s = .next (s.trap 0x15)) ∧
    ∀ x l rest, act = l :: rest → room.units[m.toNat]? = some x →
      let u := 2 * room.core + x
      let word := fun i => (s.src a.toNat i l).toNat
      let first := word 0 + word 1 * 2 ^ 32
      let second := word 2 + word 3 * 2 ^ 32
      let stride := word 2
      (s.overCap 0x822 = false →
        Completes s (.tzero z m g) (fun t => TileQueued s t u { kind := .tzero, slot := z.toNat } act)) ∧
      (∀ k ∈ [(Instr.tlda ty z a r m g, TileKind.tlda), (.tsta ty z a r m g, .tsta)],
        (first % 128 = 0 → stride % 128 = 0 → s.overCap 0x820 = false → Completes s k.1 (fun t => TileQueued s t u
          { kind := k.2, slot := z.toNat, ty := ty.toNat, addr := first, stride := stride } act)) ∧
        (first % 128 ≠ 0 → exec k.1 s = .next (s.laneTrap 0x0F 0 (BitVec.ofNat 64 first) l)) ∧
        (first % 128 = 0 → stride % 128 ≠ 0 → exec k.1 s = .next (s.laneTrap 0x0F 0 (BitVec.ofNat 64 stride) l))) ∧
      (first % 128 = 0 → (2 ≤ ty.toNat → second % 128 = 0) → s.overCap 0x821 = false →
        Completes s (.tcvt ty z a r m g) (fun t => TileQueued s t u
          { kind := .tcvt, slot := z.toNat, ty := ty.toNat, addr := first, addr2 := second } act)) ∧
      (first % 128 ≠ 0 → exec (.tcvt ty z a r m g) s = .next (s.laneTrap 0x0F 0 (BitVec.ofNat 64 first) l)) ∧
      ∀ b v, s.capture (s.srcPair a.toNat l).toNat 1 = .ok (b, v) →
        (tmmaBad b = true → exec (.tmma a r m g) s = .next (v.trap 0x0B)) ∧
        (tmmaBad b = false → v.overCap ((if tCplx b then 0x810 else 0x800) + tAt b) = false →
          Completes s (.tmma a r m g) (fun t => TileQueued s t u { kind := .tmma, block := b, slot := tSlot b } act))

/-- R361, R362, R340, R344, R351, R354: TWAIT goes on once no operation of its rill is in the unit's queue; TPROG reads the
running operation's progress word; a load pipe takes a line with its sidecar into the operand buffer; an operation with nothing
left leaves the queue, after its completion action, which posts a ring of the unit's group, and its rill's tile counter falls,
where it counts the operation: that of a restored rill starts at 0 (R428). -/
def Obligations.TileUnitsReadWaitAndComplete : Prop :=
  ∀ (s : State) (d : BitVec 7) (m : BitVec 1) (g : BitVec 2) (x l : Nat) (rest : List Nat), s.cohortOk →
    let act := s.acting g.toNat
    let room := s.room s.curRill.room
    let u := 2 * room.core + x
    let mine := (s.tile u).queue.filter (fun o => o.rill == s.cur.rill)
    (act = l :: rest → room.units[m.toNat]? = some x →
      (mine = [] → (∀ w ∈ s.curRill.waits, w.held = none) → Completes s (.twait m g) (fun t => RillTo s t s.cur.rill
        (s.cohortAt { s.curRill with seq := s.curRill.seq + 1 } (s.cur.pc + 4)))) ∧
      (mine ≠ [] → Completes s (.twait m g) (fun t => RillTo s t s.cur.rill
        { s.curRill with seq := s.curRill.seq + 1, waits := s.curRill.waits ++ [s.mkWait (.twait m g) [u]] })) ∧
      Completes s (.tprog d m g) (fun t => VecDone s t [s.curRill.vname d.toNat] act
        (fun _ _ => match (s.tile u).queue with
          | [] => 0
          | o :: _ => BitVec.ofNat 32 (2 ^ 31 + (if o.susp then 2 ^ 30 + o.fop * 2 ^ 28 + o.frow * 2 ^ 22 else 0) + o.done))
        (fun _ => 0))) ∧
    ∀ (v : Nat) (isB : Bool) (o : TileOp), (s.tile v).queue.head? = some o → o.begun = true → o.susp = false →
      (∀ row va p w, o.kind = .tmma → (s.tile v).settled o isB = none → o.missing isB o.needs = some (row, va) →
        o.lines.length < bufferLines →
        s.useFree.tilePlace v o.ctx (va / 128 * 128) .read = (.ok p, w) → p.tgt = 0 →
        s.canRead (p.pa / 128) (coreTower (v / 2)) = true → Completes s (.tileOperandLine v isB) (fun t => MemKept s t ∧
          ((t.tile v).queue.head?).map (fun q => q.line isB va) = some
            { data := memRead s.dram p.pa 128, fmt := (s.sidecar (p.pa / 128)).fmt, scales := (s.sidecar (p.pa / 128)).scales
              at_ := (s.sidecar (p.pa / 128)).at_ })) ∧
      (∀ row va e w, o.kind = .tmma → (s.tile v).settled o isB = none → o.missing isB o.needs = some (row, va) →
        e ≠ waitCode → (isB = true → o.missing false o.needs = none) →
        s.useFree.tilePlace v o.ctx (va / 128 * 128) .read = (.error e, w) → Completes s (.tileOperandLine v isB) (fun t => MemKept s t ∧
          ((t.tile v).queue.head?).map (fun q => (q.susp, q.fop, q.frow, q.fcause, q.faddr)) = some (true, isB.toNat, row, e, va))) ∧
      (o.left = true → exec (.tileOpComplete v) s = .next s) ∧
      (o.left = false → (o.kind = .tmma → hCmode o.block = 0) → Completes s (.tileOpComplete v) (fun t => MemKept s t ∧
        (t.tile v).queue = (s.tile v).queue.tail ∧ (t.tile v).acc = (s.tile v).acc ∧
        (t.rill o.rill).ntl = if o.counted = true ∧ o.rill ≠ noRill then (s.rill o.rill).ntl - 1 else (s.rill o.rill).ntl)) ∧
      (o.left = false → o.kind = .tmma → hCmode o.block = 1 → Completes s (.tileOpComplete v) (fun t => MemKept s t ∧
        (t.tile v).queue = (s.tile v).queue.tail ∧ t.rooms = (s.ringPost (s.unitRoom v) (hCring o.block)).rooms))

/-- R345, R347, R63, R64, R67 to R69, R358, R359: a k-step of a TMMA whose lines are in the buffer adds its exact products: for
floating point each whole group of 16 is settled with the cell in one rounding, for SBI the products join the triple of the
cell, which is rounded into it where its segment ends; no other cell changes. TZERO clears its slot; TLDA and TSTA move a row,
unchanged for .f32 and .tm24 and converted to and from FP32 for .f16 and .bf16, and TCVT writes a row converted to .f8e4 or
.f8e5, or quantised to .sbi8 or .sbi4 with its exponent bytes. Every unit of work that is to hand is done: the count of the running operation's units rises by
one. -/
def Obligations.TileStepsComputeTheirCells : Prop :=
  ∀ (s : State) (v : Nat) (o : TileOp), (s.tile v).queue.head? = some o → o.begun = true → o.susp = false → o.left = true →
    let b := o.block
    let p := tStep (tAt b) (tBt b)
    let k := o.pos
    let slot := tSlot b
    let u := s.tile v
    (o.kind = .tmma → o.fed = false → exec (.tileKstep v) s = .next s) ∧
    (o.kind = .tmma ∧ o.fed = true ∨ o.kind = .tzero → ∃ t, exec (.tileKstep v) s = .next t ∧
      (t.tile v).queue.map (fun q => (q.id, q.steps)) = (o.id, o.steps + 1) :: u.queue.tail.map (fun q => (q.id, q.steps))) ∧
    (∀ ps w, s.unitPrep v = (some (o, ps), w) → ∃ t, exec (.tileKstep v) s = .next t ∧
      (t.tile v).queue.map (fun q => (q.id, q.steps)) = (o.id, o.steps + 1) :: u.queue.tail.map (fun q => (q.id, q.steps))) ∧
    (o.kind = .tmma → o.fed = true → 0 < p → tM b ≤ 64 → tNc b ≤ 64 → slot < 15 → Completes s (.tileKstep v) (fun t =>
      MemKept s t ∧ OtherCellsKept u (t.tile v) slot (tM b) (tNc b) ∧
      (isSbiCode (tAt b) = false →
        let ends := (k + p) % 16 = 0 ∨ k + p = tK b
        let ks := (List.range (k + p - k / 16 * 16)).map (k / 16 * 16 + ·)
        (¬ends → ∀ i j, i < 64 → j < 64 → (t.tile v).cell slot i j = u.cell slot i j) ∧
        (ends → ∀ i j, i < tM b → j < tNc b →
          let ts := o.fterms i j ks
          let acc := fp32.decode (if tClr b = true ∧ k / 16 = 0 then 0 else (u.cell slot i j).toNat)
          ∃ r fl, (t.tile v).cell slot i j = BitVec.ofNat 32 r ∧ Settled fp32 0 (acc :: ts.1) (acc :: ts.1) ts.2.1 (r, fl))) ∧
      (isSbiCode (tAt b) = true → 0 < k → k + p < tK b → (tKorg b + k) % 256 ≠ 0 → ∀ i j, i < tM b → j < tNc b →
        o.before.exps i j (k - 1) = o.exps i j k → (o.exps i j k).1 ≠ 255 → (o.exps i j k).2 ≠ 255 → tmValid (u.triple i j) = true →
        (t.tile v).cell slot i j = u.cell slot i j ∧
        (t.tile v).triple i j = tmAdd (u.triple i j) (o.ssum i j ((List.range p).map (k + ·)))) ∧
      (isSbiCode (tAt b) = true → 0 < k → k + p = tK b → (tKorg b + k) % 256 ≠ 0 → ∀ i j, i < tM b → j < tNc b →
        let e := o.exps i j k
        let last := tmAdd (u.triple i j) (o.ssum i j ((List.range p).map (k + ·)))
        o.before.exps i j (k - 1) = e → e.1 ≠ 255 → e.2 ≠ 255 → tmValid (u.triple i j) = true → tmValid last = true →
        (t.tile v).triple i j = 0 ∧ ∃ r fl, (t.tile v).cell slot i j = BitVec.ofNat 32 r ∧
          let acc := fp32.decode (u.cell slot i j).toNat
          let y : FVal := .fin (decide (crt last < 0)) (crt last).natAbs ((e.1 + e.2 : Nat) - 254)
          Settled fp32 0 [acc, y] [acc, y] false (r, fl)))) ∧
    (∀ ks i j, tCplx b = false → (o.fterms i j ks).1 = ks.map (fun k => ((o.felem false i k).1.mul (o.felem true j k).1).1)) ∧
    (o.kind = .tzero → Completes s (.tileKstep v) (fun t => MemKept s t ∧
      (o.slot = 15 → (∀ i j, (t.tile v).triple i j = 0) ∧ (t.tile v).acc = u.acc) ∧
      (o.slot < 15 → (∀ i j, i < 64 → j < 64 → (t.tile v).cell o.slot i j = 0) ∧ OtherCellsKept u (t.tile v) o.slot 64 64 ∧
        (t.tile v).carry = u.carry))) ∧
    (∀ ps w, o.kind = .tlda → (o.slot = 15 ↔ o.ty = 3) → o.slot < 16 → o.ty < 4 → s.unitPrep v = (some (o, ps), w) → ps ≠ [] →
      (∀ p ∈ ps, p.1.tgt = 0) → o.rowsAt o.steps < 64 → Completes s (.tileKstep v) (fun t => MemKept s t ∧
        let row := o.rowsAt o.steps
        RowLoaded o.ty (ps.map (fun p => memRead s.dram p.1.pa p.2)).flatten ((t.tile v).cell o.slot row) ((t.tile v).triple row) ∧
        (∀ z i j, z < 15 → i < 64 → j < 64 → ¬(z = o.slot ∧ i = row) → (t.tile v).cell z i j = u.cell z i j) ∧
        ∀ i j, i < 64 → j < 64 → ¬(o.ty = 3 ∧ i = row) → (t.tile v).triple i j = u.triple i j)) ∧
    (∀ ps w, o.kind = .tsta ∨ o.kind = .tcvt → (o.slot = 15 ↔ o.kind = .tsta ∧ o.ty = 3) → o.slot < 16 → o.ty < 4 →
      s.unitPrep v = (some (o, ps), w) → ps ≠ [] → (∀ p ∈ ps, p.1.tgt = 0) → memWf s.dram = true → Completes s (.tileKstep v) (fun t =>
        let row := o.rowsAt o.steps
        (t.tile v).acc = u.acc ∧ (t.tile v).carry = u.carry ∧ t.basin = s.basin ∧ t.hostMem = s.hostMem ∧
        ∃ bs exps, RowStored (o.kind == .tcvt) o.ty (u.cell o.slot row) (u.triple row) bs exps ∧
          let parts := if o.kind = .tcvt then [bs, exps] else [bs.take 128, bs.drop 128]
          ∀ a, memGet t.dram a = ((ps.map (fun p => p.1.pa)).zip parts).foldl (fun m p => patched m p.1 p.2) (memGet s.dram) a))

/-! ## Synchronisation -/

/-- R395, R398 to R406: BAR.INIT sets up an object that is not live; ARRIVE counts n arrivals once its release holds, flips the
object when none is awaited, and gives the phase as its token; ARRIVE.D counts later, without a token; a half of a span barrier
flips once its partner is done too, at a message that waits while a die of the span is halted; BWAIT goes on when the phase differs from its token. Breaking their rules raises the barrier
trap (23). -/
def Obligations.BarriersCountTheirArrivals : Prop :=
  ∀ (s : State) (d a b : BitVec 7) (tg : BitVec 2), s.cohortOk → s.memoriesOk →
    let k := s.cur.rill
    let l := s.cur.lanes.headD 0
    let addr := (s.src a.toNat 0 l).toNat
    let v := (s.src b.toNat 0 l).toNat
    let n := v % 65536
    let room := s.curRill.room
    let o := Barrier.ofNat (memNat (s.room room).mem addr 8)
    let placed := addr % 8 = 0 ∧ addr < 2 ^ 18 ∧ addr + 8 ≤ (s.room room).lsize
    let idle := o.init = false ∨ (o.pend = o.expect ∧ o.odone = false ∧ o.pdone = false ∧ s.objectBusy room addr = false)
    let new : Barrier := { init := true, span := bitOf 16 v, expect := n, pend := n }
    let all := [Instr.barInit a b, .arrive d a b, .arriveD tg a b, .bwait a b]
    let quiet := fun (t : State) => (∀ i, t.curRill.kreg i = s.curRill.kreg i) ∧ ∀ j, j ≠ k → t.rill j = s.rill j
    let same := fun (t : State) => ∀ i j, t.vreg k i j = s.vreg k i j
    (addr % 8 ≠ 0 → ∀ i ∈ all, exec i s = .next (s.objTrap 0x0F addr)) ∧
    (placed → n ≠ 0 → idle → Completes s (.barInit a b) (fun t => LocalSet s t room addr (toBytes 8 new.toNat) ∧ quiet t ∧ same t ∧
      ∀ i, t.curRill.thread i = s.movedEnding s.cur.lanes i)) ∧
    (placed → n = 0 ∨ ¬idle → exec (.barInit a b) s = .next (s.objTrap 0x17 addr)) ∧
    (placed → o.init = false ∨ n = 0 ∨ o.pend < n → ∀ i ∈ [Instr.arrive d a b, .arriveD tg a b],
      exec i s = .next (s.objTrap 0x17 addr)) ∧
    (placed → o.init = true → 0 < n → n ≤ o.pend → s.curRill.accs = [] → s.curRill.arrivals = [] →
      (∀ w ∈ s.curRill.waits, w.held = none) → Completes s (.arrive d a b) (fun t => LocalSet s t room addr (toBytes 8 (o.counted n).toNat) ∧ quiet t ∧
        t.curRill.arrivals = [] ∧ (∀ i, t.curRill.thread i = s.movedEnding s.cur.lanes i) ∧
        (∀ i j, j < 64 → t.vreg k i j = if i = s.curRill.vname d.toNat ∧ j ∈ s.cur.lanes then (if o.ph then 1 else 0) else s.vreg k i j) ∧
        (o.span = true → n = o.pend → s.spanMember k = true →
          (t.group (s.group s.curRill.group).partner).doneMsgs =
            (s.group (s.group s.curRill.group).partner).doneMsgs ++ [addr]))) ∧
    (placed → o.init = true → 0 < n → n ≤ o.pend → s.curRill.accs = [] → s.curRill.arrivals = [] →
      (∃ c ∈ s.curRill.copies, c.kind = .acopy ∧ c.tag = tg.toNat ∧ c.seq < s.curRill.seq) →
      Completes s (.arriveD tg a b) (fun t => MemKept s t ∧ quiet t ∧ same t ∧
        (∀ i, t.curRill.thread i = s.movedEnding s.cur.lanes i) ∧
        t.curRill.arrivals.map (fun x => (x.addr, x.n, x.tag)) = [(addr, n, some tg.toNat)])) ∧
    (∀ j i x, (s.rill j).arrivals[i]? = some x → x.ring = none → (s.rill j).arrivals.Nodup →
      let r := (s.rill j).room
      let p := Barrier.ofNat (memNat (s.room r).mem x.addr 8)
      (s.arrivalReady j x = false → exec (.deferredArrivalCount j i) s = .next s) ∧
      (s.arrivalReady j x = true → Completes s (.deferredArrivalCount j i) (fun t =>
        (t.rill j).arrivals = (s.rill j).arrivals.filter (· != x) ∧
        (p.init = true → LocalSet s t r x.addr (toBytes 8 (p.counted x.n).toNat)) ∧ (p.init = false → MemKept s t) ∧
        ((t.rill j).pend = if p.init = false ∨ p.pend < x.n then some 0x17 else (s.rill j).pend)))) ∧
    (∀ gr off, (s.group gr).resident = true → (s.group gr).doneMsgs.find? (fun off => (s.barrier (s.group gr).room off).init) = some off →
      let p := Barrier.ofNat (memNat (s.room (s.group gr).room).mem off 8)
      let halted := (s.die (s.group gr).die).halted || (s.die (s.group (s.group gr).partner).die).halted
      (halted = true → exec (.barrierDoneMessage gr) s = .next s) ∧
      (halted = false → Completes s (.barrierDoneMessage gr) (fun t => (t.group gr).doneMsgs = (s.group gr).doneMsgs.erase off ∧
        LocalSet s t (s.group gr).room off (toBytes 8
          (if p.odone then { p with ph := !p.ph, pend := p.expect, odone := false, pdone := false } else { p with pdone := true }).toNat)))) ∧
    (placed → o.init = false → exec (.bwait a b) s = .next (s.objTrap 0x17 addr)) ∧
    (placed → o.init = true → o.ph.toNat ≠ v % 2 → Completes s (.bwait a b) (fun t => MemKept s t ∧ quiet t ∧ same t ∧
      (∀ i, t.curRill.thread i = s.moved i) ∧ t.curRill.waits = s.curRill.waits)) ∧
    (placed → o.init = true → o.ph.toNat = v % 2 → Completes s (.bwait a b) (fun t => MemKept s t ∧ quiet t ∧ same t ∧
      (∀ i, t.curRill.thread i = s.curRill.thread i) ∧
      ∃ w, t.curRill.waits = s.curRill.waits ++ [w] ∧ w.ins = .bwait a b ∧ w.lanes = s.cur.lanes))

/-- R407 to R416: a post flips the phase bit of the ring's post index and moves it on; a resize clears the ring; RING.WAIT goes
on when the slot's phase is the one it waits for; VFSEND appends its register to the send channel while it has a free slot and
VFRECV pops the oldest entry delivered; an entry or a credit in flight arrives; XACQ takes the extended block unless the partner
slot holds it, XREL releases it; WBASE sets the window bases. -/
def Obligations.RingsFlumeAndExtendedBlocks : Prop :=
  ∀ (s : State) (d a : BitVec 7) (r z w q : BitVec 4), s.cohortOk →
    let k := s.cur.rill
    let me := s.curRill
    let v := (s.src a.toNat 0 (s.cur.lanes.headD 0)).toNat
    let ring := (s.room me.room).rings.get {} r.toNat
    let quiet := fun (t : State) => MemKept s t ∧ (∀ i, t.curRill.kreg i = me.kreg i) ∧ ∀ j, j ≠ k → t.rill j = s.rill j
    let same := fun (t : State) => ∀ i j, t.vreg k i j = s.vreg k i j
    let goes := fun (t : State) => ∀ i, t.curRill.thread i = s.moved i
    let ends := fun (t : State) => ∀ i, t.curRill.thread i = s.movedEnding s.cur.lanes i
    let held := fun (i : Instr) => Completes s i (fun t => quiet t ∧ same t ∧ (∀ j, t.curRill.thread j = me.thread j) ∧
      ∃ x, t.curRill.waits = me.waits ++ [x] ∧ x.ins = i ∧ x.lanes = s.cur.lanes)
    let partner := (s.group me.group).partner
    let resident := ((s.group partner).resident = true ∨ (s.group partner).st = .retired) ∧ (s.die (s.group partner).die).halted = false
    let send := (s.group me.group).chans.get {} me.rid
    let recv := (s.group partner).chans.get {} me.rid
    (me.accs = [] → me.arrivals = [] → (∀ w ∈ me.waits, w.held = none) → Completes s (.ringPost r) (fun t => quiet t ∧ same t ∧ ends t ∧
      (t.room me.room).rings.get {} r.toNat = { ring with
        phases := setNth ring.phases ring.pi (!(ring.phases.getD ring.pi false)), pi := (ring.pi + 1) % ring.size })) ∧
    (∀ j i x n, (s.rill j).arrivals[i]? = some x → x.ring = some n → s.arrivalReady j x = true →
      Completes s (.deferredArrivalCount j i) (fun t => MemKept s t ∧ t.rooms = (s.ringPost (s.rill j).room n).rooms)) ∧
    Completes s (.ringPostSize r z) (fun t => quiet t ∧ same t ∧ ends t ∧
      (t.room me.room).rings.get {} r.toNat = { size := z.toNat + 1, pi := 0, phases := List.replicate 16 false }) ∧
    (ring.size ≤ v % 16 → exec (.ringWait r a) s = .next (s.trap 0x17)) ∧
    (v % 16 < ring.size → (ring.phases.getD (v % 16) false).toNat = v / 16 % 2 → Completes s (.ringWait r a) (fun t =>
      quiet t ∧ same t ∧ goes t ∧ t.rooms = s.rooms)) ∧
    (v % 16 < ring.size → (ring.phases.getD (v % 16) false).toNat ≠ v / 16 % 2 → held (.ringWait r a)) ∧
    (s.spanMember k = false → exec (.vfsend a) s = .next (s.trap 0x18) ∧ exec (.vfrecv d) s = .next (s.trap 0x18)) ∧
    (s.spanMember k = true → resident → send.sfree ≠ 0 → Completes s (.vfsend a) (fun t => quiet t ∧ same t ∧ ends t ∧
      (t.group me.group).chans.get {} me.rid = { send with
        sfree := send.sfree - 1, flight := send.flight ++ [(List.range me.width).map (fun l => s.src a.toNat 0 l)] })) ∧
    (s.spanMember k = true → ¬resident ∨ send.sfree = 0 → held (.vfsend a)) ∧
    (∀ e rest, s.spanMember k = true → recv.ready = e :: rest → Completes s (.vfrecv d) (fun t => quiet t ∧ ends t ∧
      (t.group partner).chans.get {} me.rid = { recv with ready := rest, credits := recv.credits + 1 } ∧
      ∀ i l, l < 64 → t.vreg k i l = if i = me.vname d.toNat ∧ l ∈ s.cur.lanes then e.getD l 0 else s.vreg k i l)) ∧
    (s.spanMember k = true → recv.ready = [] → held (.vfrecv d)) ∧
    (∀ g j, j < 128 → let c := (s.group g).chans.get {} j
      (s.flumeOpen g = false → exec (.flumeEntryDelivery (128 * g + j)) s = .next s ∧ exec (.flumeCredit (128 * g + j)) s = .next s) ∧
      (∀ e rest, s.flumeOpen g = true → c.flight = e :: rest → Completes s (.flumeEntryDelivery (128 * g + j)) (fun t =>
        t.rills = s.rills ∧ (t.group g).chans.get {} j = { c with flight := rest, ready := c.ready ++ [e] })) ∧
      (s.flumeOpen g = true → c.credits ≠ 0 → Completes s (.flumeCredit (128 * g + j)) (fun t =>
        t.rills = s.rills ∧ (t.group g).chans.get {} j = { c with credits := c.credits - 1, sfree := c.sfree + 1 }))) ∧
    (me.xregs = false → exec .xacq s = .next (s.trap 0x04)) ∧
    (me.xregs = true → me.holdsX = true ∨ ((s.rill (pairSlot k)).holdsX = false ∧ k % 2 = 0) → Completes s .xacq (fun t =>
      quiet t ∧ same t ∧ ends t ∧ t.curRill.holdsX = true)) ∧
    (me.xregs = true → me.holdsX = false → (s.rill (pairSlot k)).holdsX = true → held .xacq) ∧
    Completes s .xrel (fun t => quiet t ∧ same t ∧ ends t ∧ t.curRill.holdsX = false) ∧
    Completes s (.wbase w q) (fun t => quiet t ∧ same t ∧ goes t ∧
      t.curRill.wb = (if w.toNat = 15 then me.wb else 64 + 16 * w.toNat) ∧
      t.curRill.kb = if q.toNat = 15 then me.kb else 64 + 32 * q.toNat)

/-! ## Special registers and the privileged instructions -/

/-- R57, R141, R236, R420, R437: MFS writes the special register its index names, in each acting lane for a work rill and in a
uniform register for the firmware agent, a 64-bit one as a pair; MTS writes the register in each lane, or of the rill, and ends the
regions of its threads; an index with no register raises the illegal-instruction trap (1).
The model's choice: reserved bits of a value written to %obsm or %tsel are dropped (log entry 138). -/
def Obligations.SpecialRegistersReadAndWrite : Prop :=
  ∀ (s : State) (d : BitVec 7) (i : BitVec 12) (g : BitVec 2) (n m : Nat), s.cohortOk →
    let k := s.cur.rill
    let me := s.curRill
    let act := s.acting g.toNat
    let c := s.core (keyCore k)
    let sel := s.rill (slotKey (keyCore k) (c.tsel.toNat / 16 % 8) (c.tsel.toNat % 16))
    let die := s.die (keyDie k)
    let reads : List (BitVec 12 × (Nat → Nat)) := [
      (0x001, fun l => (me.thread l).flags.toNat), (0x002, fun _ => me.rmode.toNat), (0x010, fun l => l),
      (0x012, fun l => me.rid * me.width + l), (0x013, fun _ => me.rid), (0x014, fun _ => me.gid),
      (0x020, fun _ => keyDie k * 2 ^ 28 + (keyDie k - 6) / 2 * 2 ^ 26 + (keyDie k - 6) % 2 * 2 ^ 25 + keyCore k % 24 * 2 ^ 20 +
        keyPart k * 2 ^ 17 + keySlot k * 2 ^ 13 + (if (s.group me.group).span then 2 ^ 12 else 0)),
      (0x030, fun _ => me.wb + me.kb * 2 ^ 16), (0x040, fun _ => (me.obsm.getD 0 0).toNat), (0x047, fun _ => (me.obsm.getD 7 0).toNat),
      (0x060, fun _ => c.eqbal), (0x061, fun _ => s.power.chg % 2 ^ 16), (0x080, fun _ => me.rowprog.toNat)]
    let own : List (BitVec 12 × (Nat → Nat)) := [(0x800, fun _ => c.tsel.toNat)] ++ (match sel.trap with
      | none => [(0x801, fun _ => 0), (0x802, fun _ => 0), (0x803, fun _ => 0), (0x804, fun _ => 0), (0x807, fun _ => 0)]
      | some x => [(0x801, fun _ => x.event * 2 ^ 16 + x.fcause * 2 ^ 8 + x.cause),
          (0x802, fun _ => (x.pc.toNat - sel.kcode) % 2 ^ 32), (0x803, fun _ => (x.resume.toNat - sel.kcode) % 2 ^ 32),
          (0x804, fun _ => x.word.toNat), (0x807, fun _ => x.aux.toNat)])
    let v := me.vname d.toNat
    let u := me.kname d.toNat
    let pair := fun (j : BitVec 12) (n : Nat) => (me.agent = false → Completes s (.mfs d j g) (fun t => VecDone s t [v, v + 1] act
        (fun r _ => BitVec.ofNat 32 (if r = v then n else n / 2 ^ 32)) (fun _ => 0))) ∧
      (me.agent = true → Completes s (.mfs d j g) (fun t => UniDone s t [u, u + 1] (fun r => BitVec.ofNat 32 (if r = u then n else n / 2 ^ 32))))
    (me.agent = false → ∀ p ∈ reads, Completes s (.mfs d p.1 g) (fun t => VecDone s t [v] act (fun _ l => BitVec.ofNat 32 (p.2 l)) (fun _ => 0))) ∧
    (me.agent = true → ∀ p ∈ reads ++ own, Completes s (.mfs d p.1 g) (fun t => UniDone s t [u] (fun _ => BitVec.ofNat 32 (p.2 0)))) ∧
    pair 0x070 die.ltime.toNat ∧
    (die.gated = false → (s.die (otherLayer (keyDie k))).gated = false →
      pair 0x021 (die.enm + (die.enm &&& (s.die (otherLayer (keyDie k))).enm) * 2 ^ 24)) ∧
    ((∀ l, n.testBit l = decide (l ∈ s.cur.lanes ∧ (me.thread l).exited = false)) → pair 0x011 n) ∧
    ((∀ b, m.testBit b = (decide (b < 64) && (s.rill (slotKey (keyCore k) (b / 16) (b % 16))).trap.isSome)) → pair 0x808 m) ∧
    (∀ x, sel.trap = some x → pair 0x805 x.addr.toNat ∧ ((∀ l, n.testBit l = decide (l ∈ x.cohort)) → x.cohort.Nodup → pair 0x806 n)) ∧
    (specialInfo i = none → exec (.mfs d i g) s = .next (s.trap 0x01)) ∧
    (specialInfo i = none → me.agent = true ∨ act ≠ [] → exec (.mts d i g) s = .next (s.trap 0x01)) ∧
    (me.agent = false → act = [] → Completes s (.mts d i g) (fun t => ThreadsDone s t s.moved)) ∧
    (∀ l rest, me.agent = false → act = l :: rest →
      Completes s (.mts d 0x001 g) (fun t => ThreadsDone s t (fun x =>
        { s.movedEnding act x with flags := if x ∈ act then (s.src d.toNat 0 x).truncate 5 else (me.thread x).flags })) ∧
      Completes s (.mts d 0x002 g) (fun t => RillSet s t { me with rmode := (s.src d.toNat 0 l).truncate 2 } (s.movedEnding act)) ∧
      (me.obsm.length = 8 → ∀ j, j < 8 → i = BitVec.ofNat 12 (0x040 + j) → Completes s (.mts d i g) (fun t =>
        RillSet s t { me with obsm := t.curRill.obsm } (s.movedEnding act) ∧
        ∀ x, t.curRill.obsm.getD x 0 = if x = j then (s.src d.toNat 0 l).truncate 8 else me.obsm.getD x 0))) ∧
    (me.agent = true → Completes s (.mts d 0x800 g) (fun t => { t with rills := [], cores := [] } = { s with rills := [], cores := [] } ∧
      (∀ j, j ≠ keyCore k → t.core j = s.core j) ∧ t.core (keyCore k) = { c with tsel := s.usrc d.toNat 0 &&& 0x7F } ∧
      (∀ j, j ≠ k → t.rill j = s.rill j) ∧ (∀ r, t.curRill.kreg r = me.kreg r) ∧ ∀ l, t.curRill.thread l = s.moved l))

/-- R421 to R423: the oldest waiting event of a rill whose agent runs gets the next ID and its record, laid out as Table 18-4, at the
head of the event ring, once its core's slice holds the line's tokens, and its queue's vector is raised; while the ring is full
nothing is written. A GO write resolves the event of
its ID: ACT 0 retries a rill, or continues it after TRAP and BRK, and resumes an engine; ACT 1 ends the rill's launch; another ID or
ACT does nothing. R419, R438: ERET acts on the rill %tsel names. RETRY unparks it with the trapping cohort at %tpc and CONT, for a software trap
and a breakpoint alone, at %tresume; its event is resolved and its trap record cleared. KILL writes one black-box entry and ends the
rill's launch with halt code 0x14, and its queue halts. One that names a rill with nothing pending has no effect on it. -/
def Obligations.EventsAreRecordedAndResolved : Prop :=
  (∀ (s : State) (v : DWord) (k : Nat) (tr : TrapRec), memWf s.dram = true → (s.rill k).trap = some tr →
     let x := s.traps
     let r := s.rill k
     let n := x.nextId
     let queue := (s.launch r.launch).queue
     let full := (x.rhead + 65536 - x.rtail) % 65536 = 2 ^ x.rlog2 % 65536
     let id := v.toNat % 65536
     let act := v.toNat / 65536 % 4
     let go := v.toNat.testBit 31
     let record := toBytes 8 tr.addr.toNat ++
       toBytes 8 (n * 2 ^ 48 + tr.cause * 2 ^ 40 + tr.fcause * 2 ^ 36 + 0 * 2 ^ 32 + keyDie k * 2 ^ 28 + keyCore k % 24 * 2 ^ 23 +
         keyPart k * 2 ^ 20 + keySlot k * 2 ^ 16) ++
       toBytes 8 ((tr.pc.toNat - r.kcode) % 2 ^ 32 * 2 ^ 32 + tr.aux.toNat) ++ toBytes 8 (r.ctx * 2 ^ 52 + queue * 2 ^ 46)
     let at_ := x.rbase + 32 * (x.rhead % 2 ^ x.rlog2)
     (full → (∀ e ∈ x.waiting, (s.eventInfo e).isSome = true) → exec .eventRecordWrite s = .next s) ∧
     (∀ rest, ¬full → x.waiting = .rill k :: rest → (∀ e ∈ rest, (s.eventInfo e).isSome = true) → (.rill k) ∉ rest →
       s.runs (slotKey (keyCore k) 0 15) = true → 0 < n → n < 65536 → (∀ p ∈ x.events, p.1 ≠ n) →
       (s.canWrite (at_ / 128) (coreTower (keyCore k)) = false → Completes s .eventRecordWrite (fun t => MemKept s t ∧ t.traps = s.traps)) ∧
       (s.canWrite (at_ / 128) (coreTower (keyCore k)) = true → Completes s .eventRecordWrite (fun t =>
         (∀ a, memGet t.dram a = patched (memGet s.dram) at_ record a) ∧
         t.traps.rhead = (x.rhead + 1) % 65536 ∧ t.traps.waiting = rest ∧ t.traps.events = x.events ++ [(n, .rill k)] ∧
         t.traps.nextId = n % 65535 + 1 ∧ (t.rill k).trap = some { tr with event := n, waiting := false } ∧
         (∀ j, j ≠ k → t.rill j = s.rill j) ∧ t.msix.get 0 queue = s.msix.get 0 queue + 1))) ∧
     ((∀ p ∈ x.events, p.1 ≠ id) ∨ go = false ∨ 2 ≤ act → exec (.eventResolve v) s = .next s) ∧
     (x.events.find? (fun p => p.1 == id) = some (id, .rill k) → go = true →
       let gone := fun (t : State) => ∀ p ∈ t.traps.events, p.1 ≠ id
       let at_ := fun (pc : DWord) => Completes s (.eventResolve v) (fun t => MemKept s t ∧ gone t ∧ (t.rill k).trap = none ∧
         (∀ j, j ≠ k → t.rill j = s.rill j) ∧ (isCompute (keyDie k) = true → (t.core (keyCore k)).agentTask = true) ∧ (∀ i l, t.vreg k i l = s.vreg k i l) ∧
         ∀ l, (t.rill k).thread l = if l ∈ tr.cohort then { r.thread l with pc := pc } else r.thread l)
       (act = 0 → tr.restart = false → tr.cause = 8 ∨ tr.cause = 9 → at_ tr.resume) ∧
       (act = 0 → tr.restart = false → tr.cause ≠ 8 → tr.cause ≠ 9 → at_ tr.pc) ∧
       (act = 1 → (s.launch r.launch).st = .running → Completes s (.eventResolve v) (fun t => gone t ∧ (t.launch r.launch).st = .ending ∧
         (t.launch r.launch).code = 0x14 ∧ (t.queue queue).halt = true))) ∧
     (∀ j c y, x.events.find? (fun p => p.1 == id) = some (id, .copy j c) → go = true → act = 0 → s.copyCmd j c = some y → y.id = c →
       Completes s (.eventResolve v) (fun t => t.copyCmd j c = some { y with held := none, fcause := 0, faddr := 0 } ∧
         ∀ i, i ≠ j → t.rill i = s.rill i)) ∧
     ∀ u c (o : TileOp), x.events.find? (fun p => p.1 == id) = some (id, .tile u c) → go = true → act = 0 → (s.tile u).queue.head? = some o → o.id = c →
       Completes s (.eventResolve v) (fun t => (t.tile u).queue = { o with susp := false, event := 0 } :: (s.tile u).queue.tail ∧
         t.rills = s.rills)) ∧
  (∀ (s : State), s.cohortOk →
     let k := s.cur.rill
     let c := s.core (keyCore k)
     let j := slotKey (keyCore k) (c.tsel.toNat / 16 % 8) (c.tsel.toNat % 16)
     let r := s.rill j
     let goes := fun (t : State) => MemKept s t ∧ (∀ l, t.curRill.thread l = s.moved l) ∧ ∀ n, t.curRill.kreg n = s.curRill.kreg n
     let alone := fun (t : State) => goes t ∧ (∀ i, i ≠ j → i ≠ k → t.rill i = s.rill i) ∧ ∀ i n l, t.vreg i n l = s.vreg i n l
     let resolved := fun (t : State) => (∀ e ∈ t.traps.events, e.2 ≠ .rill j) ∧ (.rill j) ∉ t.traps.waiting
     let back := fun (i : Instr) (x : TrapRec) (pc : DWord) => Completes s i (fun t => alone t ∧ resolved t ∧
       { t.rill j with th := [] } = { r with th := [], trap := none } ∧
       ∀ l, (t.rill j).thread l = if l ∈ x.cohort then { r.thread l with pc := pc } else r.thread l)
     j ≠ k → k < 0x10000 →
     (r.trap = none → ∀ i ∈ [Instr.eretRetry, .eretCont, .eretKill], Completes s i (fun t => ThreadsDone s t s.moved)) ∧
     ∀ x, r.trap = some x →
       (x.restart = false → back .eretRetry x x.pc) ∧
       (x.restart = false → x.cause = 8 ∨ x.cause = 9 → back .eretCont x x.resume) ∧
       (x.cause ≠ 8 → x.cause ≠ 9 → Completes s .eretCont (fun t => ThreadsDone s t s.moved)) ∧
       (s.curRill.agent = true → (∀ g, (s.group g).st = .saved → (s.group g).room ≠ s.curRill.room) → (∀ i, (s.card i).st = .saved → (s.card i).room ≠ s.curRill.room) →
         Completes s .eretKill (fun t => t.dram = s.dram ∧ t.basin = s.basin ∧ t.hostMem = s.hostMem ∧
         (∀ l, t.curRill.thread l = s.moved l) ∧ (∀ n, t.curRill.kreg n = s.curRill.kreg n) ∧ resolved t ∧ (t.rill j).trap = none ∧
         (∃ rest, t.box.queue = s.box.queue ++ { kind := 0x04, die := keyDie j, core := keyCore j % 24, part := keyPart j, slot := keySlot j
                                                 code := x.cause, arg1 := x.event
                                                 arg0 := (x.pc.toNat - r.kcode) % 2 ^ 32 * 2 ^ 32 + x.word.toNat } :: rest) ∧
         ((s.launch r.launch).st = .running → (t.launch r.launch).st = .ending ∧ (t.launch r.launch).code = 0x14 ∧
           (∀ i, i ≠ r.launch → t.launch i = s.launch i) ∧ (t.queue (s.launch r.launch).queue).halt = true ∧
           ((s.queue (s.launch r.launch).queue).halt = false → (t.queue (s.launch r.launch).queue).errc = 0x14 ∧
             (t.queue (s.launch r.launch).queue).erri = (s.launch r.launch).cmd) ∧
           (t.queue (s.launch r.launch).queue).qhead = (s.queue (s.launch r.launch).queue).qhead ∧
           ∀ q, q ≠ (s.launch r.launch).queue → t.queue q = s.queue q))))

/-- R439, R440, R441, R331: CCTL.clean writes the dirty lines of its range to DRAM, with the poison of the data, leaving tokens
in place, and waits while dirty data of the range is on its way between holders; CCTL.evict waits until
every line of it is home; a bad range raises the system-operand trap (26). TLBINV drops the translations it names from every TLB and
holds its cohort until the accesses, remote operations and requests to peers that may use them are performed (what it waits for is the
model's reading: log entry 34). HALT goes on when a trap is pending or a task is posted; that it takes the task is the model's reading: log
entry 93. -/
def Obligations.SystemInstructionsKeepTheCore : Prop :=
  ∀ (s : State) (d : BitVec 7), s.cohortOk →
    let k := s.cur.rill
    let me := s.curRill
    let a := (s.usrc d.toNat 0).toNat + (s.usrc d.toNat 1).toNat % 256 * 2 ^ 32
    let n := (s.usrc d.toNat 2).toNat
    let ctx := (s.usrc d.toNat 0).toNat
    let va := (s.usrcPair d.toNat).toNat
    let inside := fun (l : Nat) => a ≤ 128 * l ∧ 128 * l < a + n ∧ (s.line l).lent = 0
    let goes := fun (t : State) => MemKept s t ∧ (∀ i, i ≠ k → t.rill i = s.rill i) ∧ (∀ r, t.curRill.kreg r = me.kreg r) ∧
      ∀ l, t.curRill.thread l = s.moved l
    let held := fun (t : State) (i : Instr) => MemKept s t ∧ (∀ j, j ≠ k → t.rill j = s.rill j) ∧ (∀ r, t.curRill.kreg r = me.kreg r) ∧
      (∀ l, t.curRill.thread l = me.thread l) ∧ ∃ w, t.curRill.waits = me.waits ++ [w] ∧ w.ins = i ∧ w.lanes = s.cur.lanes
    let drops := fun (t : State) (e : TlbEntry → Bool) => (∀ c, t.core c = { s.core c with tlb := (s.core c).tlb.filter (fun x => !e x) }) ∧
      ∀ w, t.towerTlb.get [] w = (s.towerTlb.get [] w).filter (fun x => !e x)
    let idle := fun (p : Rill → Bool) => s.fab.reqs = [] ∧ ∀ i, p (s.rill i) = true →
      (∀ x ∈ (s.rill i).accs, ∀ q ∈ x.reqs, q.done = true ∨ 4 ≤ q.tgt) ∧ ∀ c ∈ (s.rill i).copies, c.kind = .rop → c.result ≠ []
    (a % 128 ≠ 0 ∨ n % 128 ≠ 0 ∨ 0xC000000000 < a + n → exec (.cctlClean d) s = .next (s.trap 0x1A) ∧ exec (.cctlEvict d) s = .next (s.trap 0x1A)) ∧
    (a % 128 = 0 → n % 128 = 0 → a + n ≤ 0xC000000000 → (s.coh.lines.map (·.1)).Nodup →
      (let coming := ∃ m ∈ s.coh.msgs ++ s.coh.resend, m.kind = .tok ∧ m.dirty = true ∧ a ≤ 128 * m.line ∧ 128 * m.line < a + n
       let lines := fun (t : State) => (∀ l, ¬inside l → t.line l = s.line l) ∧ ∀ l, inside l → t.line l =
         match (s.line l).hs.find? (·.dirty) with
         | none => s.line l
         | some o => { s.line l with
             hs := (setNth (s.line l).hs 4 { (s.line l).holder 4 with psn := o.psn }).map (fun h => { h with dirty := false }) }
       (¬coming → Completes s (.cctlClean d) (fun t => goes t ∧ lines t)) ∧
       (coming → Completes s (.cctlClean d) (fun t => held t (.cctlClean d) ∧ lines t))) ∧
      ((∀ l, inside l → (s.line l).hs = [{}, {}, {}, {}, (s.line l).holder 4] ∧ ((s.line l).holder 4).cnt = 64) →
        (∀ l b, inside l → s.persFor b l = none) → Completes s (.cctlEvict d) (fun t => goes t ∧ t.coh.msgs = s.coh.msgs ∧
          ∀ l, inside l → ((t.line l).holder 4).dirty = false)) ∧
      (∀ l, inside l → ((s.line l).holder 4).cnt ≠ 64 → Completes s (.cctlEvict d) (fun t => held t (.cctlEvict d))) ∧
      ∀ l b w, b < 4 → me.waits.head? = some w → w.vals = [a, n] → w.ins = .cctlEvict d → w.held = none → s.runs k = true → inside l →
        s.persFor b l = none → ((s.line l).holder 4).cnt ≠ 64 → ((s.line l).holder b).cnt ≠ 0 → (s.line l).hs.length = 5 → Completes s (.waitEnd k 0) (fun t =>
          ((t.line l).holder b).cnt = 0 ∧ ∃ x ∈ t.coh.msgs, x.kind = .tok ∧ x.line = l ∧ x.src = b ∧ x.dst = 4 ∧ x.cnt = ((s.line l).holder b).cnt)) ∧
    ((s.rills.map (·.1)).Nodup → idle (fun _ => true) → Completes s .tlbinvAll (fun t => goes t ∧ drops t (fun _ => true))) ∧
    (4095 < ctx → exec (.tlbinvCtx d) s = .next (s.trap 0x1A)) ∧
    ((s.rills.map (·.1)).Nodup → ctx ≤ 4095 → idle (fun r => r.ctx == ctx) → Completes s (.tlbinvCtx d) (fun t => goes t ∧ drops t (fun e => e.ctx == ctx))) ∧
    (2 ^ 57 ≤ va ∨ 4095 < n → exec (.tlbinvPage d) s = .next (s.trap 0x1A)) ∧
    ((s.rills.map (·.1)).Nodup → va < 2 ^ 57 → n ≤ 4095 → idle (fun r => r.ctx == n) → Completes s (.tlbinvPage d) (fun t => goes t ∧
      drops t (fun e => e.ctx == n && decide (e.base ≤ va ∧ va < e.base + e.size)))) ∧
    (∀ i x q, i < 2 ^ 42 → x ∈ (s.rill i).accs → q ∈ x.reqs → q.done = false → q.tgt < 4 →
      Completes s .tlbinvAll (fun t => held t .tlbinvAll ∧ drops t (fun _ => true)) ∧
      ((s.rill i).ctx = ctx → ctx ≤ 4095 → Completes s (.tlbinvCtx d) (fun t => held t (.tlbinvCtx d) ∧ drops t (fun e => e.ctx == ctx)))) ∧
    let wakes := (s.core (keyCore k)).agentTask = true ∨ ∃ p q, p < 8 ∧ q < 16 ∧ (s.rill (slotKey (keyCore k) p q)).trap.isSome = true
    (wakes → Completes s .halt (fun t => goes t ∧ (t.core (keyCore k)).agentTask = false ∧ ∀ c, c ≠ keyCore k → t.core c = s.core c)) ∧
    (¬wakes → Completes s .halt (fun t => held t .halt ∧ t.cores = s.cores))

/-- R26 to R30, R167, R168: SPAWN posts the card its address names to the job queue of its target core, with the rill's group,
launch and room, and holds its cohort while that queue is full; a misaligned address, a bad target or a bad card raises the
invalid-job-card trap (10). R233: PINT announces a coming rise or fall of draw: it replaces the rill's intent, a class of 0 withdraws it, and one with a
reserved field, a class above 6 or a bad page range is ignored and counted. R234: EQRES sets the rill's reserve to the amount asked
for, at most the bucket capacity less 1, answers it, and returns an excess to the bucket. -/
def Obligations.CardsIntentsAndReservesArePosted : Prop :=
  (∀ (s : State) (a b : BitVec 7) (r : BitVec 1) (g : BitVec 2), s.cohortOk →
     let k := s.cur.rill
     let me := s.curRill
     let act := s.acting g.toNat
     let addr := (s.usrcPair a.toNat).toNat
     let tw := (s.usrc b.toNat 0).toNat
     let own := tw = 2 ^ 31
     let there := own ∨ tw < 24 ∧ (s.die (keyDie k)).enm.testBit tw = true ∧ (s.die (keyDie k)).gated = false
     let core := if own then keyCore k else 24 * keyDie k + tw
     let units := (s.room me.room).units.length
     (act = [] → Completes s (.spawn a b r g) (fun t => ThreadsDone s t s.moved)) ∧
     (act ≠ [] → 2 ^ 57 ≤ addr ∨ addr % 64 ≠ 0 ∨ ¬there → exec (.spawn a b r g) s = .next (s.trap 0x0A)) ∧
     ∀ bytes v, act ≠ [] → addr < 2 ^ 57 → addr % 64 = 0 → there → s.vread (viaOf k) k me.ctx addr 64 me.agent = (.ok bytes, v) →
       let card := words64 bytes
       let quiet := fun (t : State) => MemKept s t ∧ (∀ j, j ≠ k → t.rill j = s.rill j) ∧ (∀ n, t.curRill.kreg n = me.kreg n) ∧
         ∀ j n l, t.vreg j n l = s.vreg j n l
       (badCard (s.launch me.launch).lr units (decide own) card = true → exec (.spawn a b r g) s = .next (v.trap 0x0A)) ∧
       (badCard (s.launch me.launch).lr units (decide own) card = false → (s.core core).jobs.length < 64 →
         Completes s (.spawn a b r g) (fun t => quiet t ∧ (∀ l, t.curRill.thread l = s.movedEnding act l) ∧
           (t.core core).jobs = (s.core core).jobs ++
             [{ card := card, va := addr, group := me.group, launch := me.launch, room := me.room, own := decide own }] ∧
           ∀ c, c ≠ core → (t.core c).jobs = (s.core c).jobs)) ∧
       (badCard (s.launch me.launch).lr units (decide own) card = false → 64 ≤ (s.core core).jobs.length →
         Completes s (.spawn a b r g) (fun t => quiet t ∧ (∀ l, t.curRill.thread l = me.thread l) ∧ (∀ c, (t.core c).jobs = (s.core c).jobs) ∧
           ∃ w, t.curRill.waits = me.waits ++ [w] ∧ w.lanes = s.cur.lanes))) ∧
  (∀ (s : State) (d a b : BitVec 7), s.cohortOk →
     let k := s.cur.rill
     let me := s.curRill
     let dom := coreDom (keyCore k)
     let w := s.usrc b.toNat 0
     let p := (s.usrcPair a.toNat).toNat
     let field := fun (lo n : Nat) => w.toNat / 2 ^ lo % 2 ^ n
     let bad := 2 ^ 28 ≤ w.toNat ∨ 6 < field 24 4 ∨ (field 24 4 = 0 ∧ field 20 4 ≠ 0) ∨ (field 24 4 ≠ 0 ∧ field 20 4 = 0) ∨
       (field 0 16 ≠ 0 ∧ (p % 4096 ≠ 0 ∨ 2 ^ 57 ≤ p))
     (bad → Completes s (.pint a b) (fun t => { t with doms := [], rills := [] } = { s with doms := [], rills := [] } ∧
       t.dom dom = { s.dom dom with intrej := min ((s.dom dom).intrej + 1) (2 ^ 64 - 1) } ∧ (∀ n, n ≠ dom → t.dom n = s.dom n) ∧
       (∀ j, j ≠ k → t.rill j = s.rill j) ∧ { t.curRill with th := [] } = { me with th := [] } ∧ ∀ l, t.curRill.thread l = s.moved l)) ∧
     (¬bad → field 24 4 = 0 → Completes s (.pint a b) (fun t => RillSet s t { me with intent := none } s.moved)) ∧
     (¬bad → field 24 4 ≠ 0 → Completes s (.pint a b) (fun t => ∃ x : Intent, RillSet s t { me with intent := some x } s.moved ∧
       x.dur = field 24 4 ∧ x.depth = field 20 4 ∧ x.lead = field 16 4 ∧ x.addr = p % 2 ^ 57 ∧ x.plen = field 0 16 ∧ x.since = s.now 0)) ∧
     let n := min (s.usrc a.toNat 0).toNat ((s.dom dom).ccap - 1)
     Completes s (.eqres d a) (fun t => t.others = s.others ∧ t.curRill.reserve = n ∧
       (t.core (keyCore k)).bal = (s.core (keyCore k)).bal + (me.reserve - n) ∧
       (∀ j, j ≠ keyCore k → (t.core j).others = (s.core j).others) ∧ (∀ j, j ≠ k → t.rill j = s.rill j) ∧
       (∀ r, t.curRill.kreg r = if r = me.kname d.toNat then BitVec.ofNat 32 n else me.kreg r) ∧
       (∀ j r l, t.vreg j r l = s.vreg j r l) ∧ ∀ l, t.curRill.thread l = s.moved l))

/-! ## Power, clocks and heat: what rills ask for -/

/-! ## Issue and energy metering -/

/-- R225, R226, R227, R229, R230, R231: in a clock in which no other rill of the core offers a candidate that may draw and its
engines have no unit, a rill's candidate issues and is paid for, first from its reserve and then from the core bucket, or it is denied where they fall short; a rill with 8 denials joins the
reservation queue. At the first clock of an epoch each core is refilled with what it requests, or with its share of what the domain
has; an excess over a lowered CCAP goes back to the domain. A commit sends the staged bank to every core, which switches to it whole.
The model's reading: the holder of the reservation draws before one that has waited under a limit (log entry 146). -/
def Obligations.BucketsPayForIssuesAndRefill : Prop :=
  ∀ (s : State) (c k dom : Nat) (v : DWord),
    let clock := (s.core c).clk
    let bal := (s.core c).bal
    let noted := s.modCore c (fun y => { y with eqbal := min y.bal 65535 + (if y.rsv.isEmpty then 0 else 65536) })
    let keys := (s.rills.filter (fun p => p.2.live && decide (p.1 < 0x10000) && keyCore p.1 == c)).map (·.1)
    let warmed := keys.foldl State.warm noted
    let quiet := fun (t : State) => MemKept s t ∧ (∀ j n l, t.vreg j n l = s.vreg j n l) ∧
      ∀ j, j ≠ k → { t.rill j with denials := 0 } = { s.rill j with denials := 0 }
    (s.clockRuns c = false ∨ 32 * (s.dom (coreDom c)).epoch ≤ clock → exec (.issueDrawCycle c) s = .next s) ∧
    (∀ x, s.clockRuns c = true → clock < 32 * (s.dom (coreDom c)).epoch → (s.rill k).live = true → k < 0x10000 → keyCore k = c →
      (s.rills.map (·.1)).Nodup → (∀ j y, j ∈ keys → j ≠ k → warmed.cand j = some y → y.eligible = false ∧ y.free = false) →
      (s.tile (2 * c)).queue = [] → (s.tile (2 * c + 1)).queue = [] → s.engineWork c = [] → (s.core c).rsv = [] →
      warmed.cand k = some x → x.eligible = true → x.free = false → (s.dom (coreDom c)).vlim = 0xFFFF →
      let spent := x.price - (s.rill k).reserve + x.more
      (spent ≤ bal → Completes s (.issueDrawCycle c) (fun t => quiet t ∧ t.grants = s.grants ++ [k] ∧ t.agenda = s.agenda ∧
        (t.core c).bal = bal - spent ∧ (t.core c).clk = clock + 1 ∧ (t.core c).eqbal = min bal 65535 ∧
        (t.rill k).reserve = (s.rill k).reserve - x.price ∧ (t.rill k).denials = 0 ∧
        (t.core c).busy.get 0 (5 * keyPart k + x.dp) = clock + x.occ ∧ (t.core c).vdraw = (s.core c).vdraw + x.price + x.more ∧
        (t.dom (coreDom c)).drawn = min ((s.dom (coreDom c)).drawn + (x.price + x.more)) (2 ^ 64 - 1))) ∧
      (bal < spent → Completes s (.issueDrawCycle c) (fun t => quiet t ∧ t.grants = s.grants ∧ (t.core c).bal = bal ∧
        (t.core c).clk = clock + 1 ∧ (t.rill k).reserve = (s.rill k).reserve ∧ (t.rill k).denials = (s.rill k).denials + 1 ∧
        (t.dom (coreDom c)).deny = min ((s.dom (coreDom c)).deny + 1) (2 ^ 64 - 1) ∧
        t.agenda = s.agenda ++ if (s.rill k).denials = 7 then [.reservationJoin c k] else []))) ∧
    ((s.rill k).live = true → keyCore k = c → 8 ≤ (s.rill k).denials → k ∉ (s.core c).rsv → Completes s (.reservationJoin c k) (fun t =>
      { t with cores := s.cores } = s ∧ t.core c = { s.core c with rsv := (s.core c).rsv ++ [k] } ∧ ∀ j, j ≠ c → t.core j = s.core j)) ∧
    (let x := s.dom dom
     let cores := s.domCores dom
     let held := fun i => (s.core i).bal + s.reserves i
     let q := fun i => min x.crefNext (x.ccapNext - held i)
     let sum := (cores.map q).sum
     let g := fun i => if sum ≤ x.dbal then q i else x.dbal * q i / sum
     dom < 8 → cores ≠ [] → (∀ i ∈ cores, 32 * x.epoch ≤ (s.core i).clk) →
      ((∀ i ∈ cores, held i ≤ x.ccapNext) → Completes s (.epochRefill dom) (fun t => MemKept s t ∧
        (∀ i, (t.core i).bal = if i ∈ cores then (s.core i).bal + g i else (s.core i).bal) ∧
        (∀ i ∈ cores, (t.core i).vdraw = 0 ∧ (t.core i).tdraw = 0 ∧ (t.core i).cdraw = 0 ∧ (t.core i).clk = (s.core i).clk) ∧
        (t.dom dom).dbal = x.dbal - (cores.map g).sum ∧ (t.dom dom).cref = x.crefNext ∧ (t.dom dom).ccap = x.ccapNext ∧
        (t.dom dom).epoch = x.epoch + 1 ∧ (∀ n, n ≠ dom → t.dom n = s.dom n) ∧ ∀ j, (t.rill j).reserve = (s.rill j).reserve)) ∧
      (∀ i, cores = [i] → x.ccapNext < held i → held i - x.ccapNext ≤ (s.core i).bal → Completes s (.epochRefill dom) (fun t =>
        (t.core i).bal = (s.core i).bal - (held i - x.ccapNext) ∧ (t.dom dom).dbal = min x.dcap (x.dbal + (held i - x.ccapNext)) ∧
        ∀ j, (t.rill j).reserve = (s.rill j).reserve))) ∧
    (let n := v.toNat % 2 ^ 24
     (dom < 8 → n ≠ 0 → Completes s (.dcapWrite dom v) (fun t => { t with doms := s.doms } = s ∧
       t.dom dom = { s.dom dom with dcap := n, dbal := min (s.dom dom).dbal n } ∧ ∀ j, j ≠ dom → t.dom j = s.dom j)) ∧
     (8 ≤ dom ∨ n = 0 → exec (.dcapWrite dom v) s = .next s)) ∧
    (s.prwait = [] → v.toNat / 2 ^ 31 % 2 = 1 → Completes s (.priceCommit v) (fun t => t.cores = s.cores ∧ t.prbank = v.toNat % 4 ∧
      t.prnew = v.toNat % 4 ∧ (∀ i, i ∈ t.prwait ↔ 144 ≤ i ∧ i < 336) ∧
      ∀ i, i < 4096 → t.prsent.find (4096 * t.prnew + i) = s.stage.find (4096 * t.prnew + i))) ∧
    (s.prwait ≠ [] ∨ v.toNat / 2 ^ 31 % 2 = 0 → exec (.priceCommit v) s = .next { s with prbank := v.toNat % 4 }) ∧
    (c ∈ s.prwait → (∀ p ∈ s.prsent, p.1 / 4096 = s.prnew) → Completes s (.corePriceSwitch c) (fun t =>
      (∀ i, i ∈ t.prwait ↔ i ∈ s.prwait ∧ i ≠ c) ∧ (∀ j, j ≠ c → t.core j = s.core j) ∧
      ∀ b i, i < 4096 → (t.core c).price b i = if b = s.prnew then (s.prsent.find (4096 * b + i)).getD (defaultPrice i) else (s.core c).price b i))

/-! ## Queues and launches -/

/-- R73 to R79, R81, R83, R84, R95: a write of QTAIL rings the queue and reads the entry at its head; an overrun, an entry that
cannot be read or is invalid, and a fence object that is misaligned or cannot be read halt it with the code Table 3-4 gives; a fence
is satisfied once its object reaches its value. A free processor is granted to the eligible queue of the highest level that comes
next after the last one granted; a NOP leaves the head, a SIGNAL stores its value, a launch begins its prologue. QHEAD is
writable only while HALT is 1; clearing HALT checks for an overrun again; ABORT ends the queue's launches with code 16. The model's
readings: the FED reads and stores at the home-tower slice (log entry 19), and poison or a peer out of reach ends a read with the code of a
translation fault of that read (log entry 44).
A next pass of a repeating command is granted like a first one (log entry 140). -/
def Obligations.QueuesRunTheirCommands : Prop :=
  ∀ (s : State) (q cp : Nat) (v : DWord), q < 64 → cp < 4 →
    let x := s.queue q
    let n := v.toNat % 2 ^ 32
    let full := 2 ^ x.log2sz
    let va := x.qbase + 64 * (x.qhead % full)
    let rest := fun (t : State) => MemKept s t ∧ (∀ j, j ≠ q → t.queue j = s.queue j) ∧ ∀ j, j ≠ cpKey cp → t.rill j = s.rill j
    let halts := fun (i : Instr) (code erri : Nat) (addr : Option Nat) => Completes s i (fun t => rest t ∧ (t.queue q).halt = true ∧
      (t.queue q).errc = code ∧ (t.queue q).erri = erri ∧ (t.queue q).qhead = x.qhead ∧ (t.queue q).qfaddr = addr.getD x.qfaddr)
    let rung := s.setQueue q { x with qtail := n }
    let waits := fun (bytes : List Byte) (i : Nat) => (word64 (words64 bytes) 0).testBit (8 + i)
    -- QTAIL
    (let pending := (n + 2 ^ 32 - x.qhead) % 2 ^ 32
     Completes s (.qtailWrite q v) (fun t => (t.queue q).qtail = n ∧ (t.queue q).qhead = x.qhead ∧ rest t) ∧
     (x.halt = false → full < pending → halts (.qtailWrite q v) 0x11 ((x.qhead + full) % 2 ^ 32) none) ∧
     (s.fedUp = true → x.halt = false → x.en = true → x.head = none → x.held = false → pending ≤ full → n ≠ x.qhead →
       (∀ c a u, rung.vread .direct (queueWho q 2) x.ctx va 64 false = (.error (c, a), u) →
         (c ≠ waitCode → halts (.qtailWrite q v) 0x15 x.qhead (some va)) ∧
         (c = waitCode → Completes s (.qtailWrite q v) (fun t => rest t ∧ (t.queue q).head = none ∧ (t.queue q).halt = false))) ∧
       ∀ bytes u, rung.vread .direct (queueWho q 2) x.ctx va 64 false = (.ok bytes, u) →
         (badEntry { words := words64 bytes } = true → halts (.qtailWrite q v) 0x0D x.qhead none) ∧
         (badEntry { words := words64 bytes } = false → waits bytes 0 = false → waits bytes 1 = false →
           Completes s (.qtailWrite q v) (fun t => (t.queue q).head = some { words := words64 bytes } ∧ (t.queue q).halt = false)))) ∧
    -- fences
    (∀ h i, i < 2 → x.head = some h → s.fedUp = true → x.held = false → x.halt = false → h.waits i = true → h.sat i = false →
      let f := h.faddr i
      (f % 8 ≠ 0 → halts (.fenceObjectRead q i) 0x0E x.qhead (some f)) ∧
      (∀ c u, f % 8 = 0 → s.translate .direct x.ctx f .read false = (.error c, u) → c ≠ waitCode →
        halts (.fenceObjectRead q i) 0x0E x.qhead (some f)) ∧
      ∀ p u, f % 8 = 0 → s.translate .direct x.ctx f .read false = (.ok p, u) →
        (∀ c w, u.readAt .direct (queueWho q i) x.ctx f p 8 = (.error c, w) → c ≠ waitCode →
          halts (.fenceObjectRead q i) 0x0E x.qhead (some f)) ∧
        ∀ bytes w, u.readAt .direct (queueWho q i) x.ctx f p 8 = (.ok bytes, w) →
          Completes s (.fenceObjectRead q i) (fun t => rest t ∧ (t.queue q).halt = false ∧
            (h.fval i ≤ ofBytes bytes → (t.queue q).head = some (h.satisfy i)) ∧
            (ofBytes bytes < h.fval i → (t.queue q).waitf = true ∧ ∃ y, (t.queue q).head = some { h with watch := y } ∧
              (p.tgt = 0 → (i, p.pa / 128) ∈ y)))) ∧
    -- QHEAD and HALT
    (x.halt = true → n ≠ x.qhead → Completes s (.qheadWrite q v) (fun t => rest t ∧
      (t.queue q).qhead = n ∧ (t.queue q).head = none ∧ (t.queue q).held = false ∧ (t.queue q).halt = true ∧
      (t.queue q).qtail = x.qtail ∧ (t.queue q).errc = x.errc ∧ (t.queue q).qfaddr = x.qfaddr)) ∧
    (x.halt = false ∨ n = x.qhead → exec (.qheadWrite q v) s = .next s) ∧ (x.halt = false → exec (.haltClear q) s = .next s) ∧
    (x.halt = true → x.pending ≤ full → (x.head = none ∨ x.held = true) → (x.en = false ∨ x.qtail = x.qhead ∨ x.held = true) →
      Completes s (.haltClear q) (fun t => rest t ∧ (t.queue q).halt = false ∧ (t.queue q).errc = 0 ∧ (t.queue q).qhead = x.qhead)) ∧
    (x.halt = true → full < x.pending → halts (.haltClear q) 0x11 ((x.qhead + full) % 2 ^ 32) none) ∧
    -- grants
    (let last := (s.lastGrant.get none x.prio).getD 63 % 64
     let turn := fun j => (j + 63 - last) % 64
     (s.fedUp = false ∨ ((s.cp cp).busy = true ∧ (s.cp cp).stage = .prologue) → exec (.arbiterGrant cp) s = .next s) ∧
     ∀ h, s.fedUp = true → (s.cp cp).busy = false → x.head = some h → x.prio < 4 →
      x.en = true → x.halt = false → x.qtail ≠ x.qhead → (x.held = false ∨ x.again = true) → x.waitw = false →
      (∀ i, i < 2 → h.waits i = true → h.sat i = true) → ((h.serial = true) → ∀ l ∈ s.running, (s.launch l).queue ≠ q) →
      (∀ j, j < 64 → s.eligible j = true → (s.queue j).prio ≤ x.prio ∧ ((s.queue j).prio = x.prio → turn q ≤ turn j)) →
      let granted := fun (st : CpStage) =>
        ({ s with lastGrant := s.lastGrant.set x.prio (some q) }.setQueue q { x with held := true, grant := (if x.again then x.grant else x.grant + 1), again := false, waitf := false, waitr := false }).setCp cp
          { busy := true, stage := st, queue := q, cmd := x.qhead, recAddr := h.arg0 }
      (h.ty = 3 → Completes s (.arbiterGrant cp) (fun t => rest t ∧ (t.queue q).qhead = (x.qhead + 1) % 2 ^ 32 ∧
        t.lastGrant.get none x.prio = some q ∧ t.cps = s.cps)) ∧
      (∀ p u, memWf s.dram = true → h.ty = 2 → h.arg0 % 8 = 0 →
        (granted .signal).translate .direct x.ctx h.arg0 .write false = (.ok p, u) → p.tgt = 0 →
        (u.canWrite (p.pa / 128) (homeBd (p.pa / 128)) = true → Completes s (.arbiterGrant cp) (fun t =>
          (t.queue q).qhead = (x.qhead + 1) % 2 ^ 32 ∧ (t.cp cp).busy = false ∧ (∀ j, j ≠ cp → t.cp j = s.cp j) ∧
          ∀ a, memGet t.dram a = patched (memGet s.dram) p.pa (toBytes 8 h.arg1) a)) ∧
        (u.canWrite (p.pa / 128) (homeBd (p.pa / 128)) = false → Completes s (.arbiterGrant cp) (fun t => rest t ∧
          t.cp cp = (granted .signal).cp cp ∧ t.queue q = (granted .signal).queue q))) ∧
      (h.ty = 2 → h.arg0 % 8 ≠ 0 → halts (.arbiterGrant cp) 0x0E x.qhead (some h.arg0)) ∧
      (∀ c a u, h.ty = 1 → (granted .start).vread .direct (cpKey cp) x.ctx h.arg0 64 false = (.error (c, a), u) → c ≠ waitCode →
        halts (.arbiterGrant cp) 0x01 x.qhead (some a)) ∧
      (∀ bytes u, h.ty = 1 → (granted .start).vread .direct (cpKey cp) x.ctx h.arg0 64 false = (.ok bytes, u) →
        let pro := word64 (words64 bytes) 6
        pro ≠ 0 → pro % 4 = 0 → pro < 2 ^ 57 → Completes s (.arbiterGrant cp) (fun t => MemKept s t ∧
          t.lastGrant.get none x.prio = some q ∧ t.cp cp = (granted .prologue).cp cp ∧
          (t.queue q).held = true ∧ (t.queue q).run = true ∧ (t.queue q).qhead = x.qhead ∧
          let r := t.rill (cpKey cp)
          r.live = true ∧ r.ctx = x.ctx ∧ (r.thread 0).pc = BitVec.ofNat 64 pro ∧
          r.kreg 1 ++ r.kreg 0 = BitVec.ofNat 64 h.arg0 ∧ r.kreg 2 = BitVec.ofNat 32 x.rep ∧ r.kreg 3 = BitVec.ofNat 32 q ∧
          r.kreg 5 ++ r.kreg 4 = BitVec.ofNat 64 va ∧ ∀ i, 6 ≤ i → r.kreg i = 0))) ∧
    -- prologue limit and ABORT
    ((s.rill (cpKey cp)).live = true → 4096 ≤ (s.cp cp).count → (s.rill (cpKey cp)).accs = [] → (s.queue (s.cp cp).queue).halt = false →
      Completes s (.prologueLimit cp) (fun t => MemKept s t ∧ (t.cp cp).busy = false ∧ (t.rill (cpKey cp)).live = false ∧
        (t.queue (s.cp cp).queue).halt = true ∧ (t.queue (s.cp cp).queue).errc = 0x0B ∧
        (t.queue (s.cp cp).queue).qhead = (s.queue (s.cp cp).queue).qhead)) ∧
    (x.halt = false → (s.launches.map (·.1)).Nodup → Completes s (.abort q) (fun t => t.dram = s.dram ∧ (∀ j, j ≠ q → t.queue j = s.queue j) ∧
      (t.queue q).halt = true ∧ (t.queue q).errc = 0x10 ∧ (t.queue q).qhead = x.qhead ∧ (t.queue q).head = none ∧
      (∀ l, (s.launch l).queue = q → (s.launch l).st = .running → s.launchOver l = false →
        (t.launch l).st = .ending ∧ (t.launch l).code = 0x10) ∧
      (∀ l, (s.launch l).queue = q → (s.launch l).st = .windows → (t.launch l).st = .done) ∧
      (∀ l, (s.launch l).queue ≠ q → t.launch l = s.launch l)))

/-- R38 to R40, R81, R92, R445 to R448: a launch that waits for format windows runs once they are free of conflict and fit, and
its windows are then installed, or shared with one more reference; a conflict halts its queue with code 8. A launch whose groups have
all been counted writes out its windows one by one, and an area that cannot be stored is skipped; then it dereferences them all, of
which those without a reference left go, and stores DONEF, unless it ends with a halt code or repeats. A die's completion count joins
the launch's. Stores are performed at the home's slice (the model's choice: log entry 19); R445's order is the model's reading in that
dereference, DONEF store and completion are one step (log entries 47 and 125), and a command repeats only while the holding it was
granted in lasts (log entry 140); REFS is what is left after the write-out (log entry 157). -/
def Obligations.LaunchesStartAndRetire : Prop :=
  ∀ (s : State) (lid die : Nat), s.fedUp = true →
    let l := s.launch lid
    let wins := l.lr.wins
    let inst := s.windows.map (·.desc)
    let fresh := wins.filter (fun w => !inst.any w.shares)
    let mine := fun (x : Window) => wins.any (fun w => w.tid == x.desc.tid)
    let given := fun (x : Window) => if mine x then { x with refs := x.refs - 1 } else x
    -- the launch is over, and the windows that it named last are gone
    let ended := fun (t : State) => (t.launch lid).st = .done ∧ lid ∉ t.running ∧ (s.windowWaiters = [] → ∀ w, w ∈ t.windows ↔
      ∃ y ∈ s.windows, w = given y ∧ (mine y = true → w.refs ≠ 0))
    let retires := fun (P : State → Prop) => ∃ t, exec (.launchRetire lid) s = .next t ∧ P t
    (s.windowWaiters = [] → exec .windowInstall s = .next s) ∧
    (s.windowWaiters = [lid] →
      (winConflict inst wins = true → (s.queue l.queue).halt = false → ∃ t, exec .windowInstall s = .next t ∧ MemKept s t ∧
        (t.launch lid).st = .done ∧ (t.queue l.queue).halt = true ∧ (t.queue l.queue).errc = 8 ∧ t.windows = s.windows) ∧
      (winConflict inst wins = false → 256 < s.windows.length + fresh.length → ∃ t, exec .windowInstall s = .next t ∧ MemKept s t ∧
        t.launches = s.launches ∧ (s.atHead l.queue l.cmd = true → (t.queue l.queue).waitw = true) ∧ t.windows = s.windows) ∧
      (winConflict inst wins = false → s.windows.length + fresh.length ≤ 256 → ∃ t, exec .windowInstall s = .next t ∧ MemKept s t ∧
        (t.launch lid).st = .running ∧ lid ∈ t.running ∧ (∀ w ∈ fresh, ({ desc := w, refs := 1 } : Window) ∈ t.windows) ∧
        ∀ (i : Nat) (y : Window), s.windows[i]? = some y → t.windows[i]? = some (if wins.any (fun w => w.shares y.desc) then { y with refs := y.refs + 1 } else y))) ∧
    (s.launchOver lid = false → exec (.launchRetire lid) s = .next s) ∧
    (s.launchOver lid = true → (s.launches.map (·.1)).Nodup →
      -- step 1: the write-out of one window
      (∀ d j w, wins[l.wrote]? = some d → s.windows.findIdx? (fun w => w.desc.tid == d.tid) = some j → s.windows[j]? = some w →
        let on := fun (t : State) => (t.launch lid).wrote = l.wrote + 1 ∧ (t.launch lid).st = l.st
        let area := statBytes w (w.refs - 1 - s.pendingRefs lid d.tid) l (s.now 0)
        let skipped := fun (code : Nat) => retires (fun t => MemKept s t ∧ on t ∧ t.windows = s.windows ∧
          t.box.queue = s.box.queue ++ [{ kind := 0x0A, code := code, arg0 := d.statva, arg1 := d.tid }])
        (∀ p u, s.translate .direct l.ctx d.statva .write false = (.ok p, u) →
          (p.tgt = 0 → memWf s.dram = true → u.canWrite (p.pa / 128) (homeBd (p.pa / 128)) = true → retires (fun t => on t ∧
            t.windows = setNth s.windows j { w with wseq := w.wseq + 1 } ∧ ∀ a, memGet t.dram a = patched (memGet s.dram) p.pa area a)) ∧
          (p.tgt = 1 → memWf s.basin = true → u.basinBusy p.pa = false → retires (fun t => on t ∧
            t.windows = setNth s.windows j { w with wseq := w.wseq + 1 } ∧ ∀ a, memGet t.basin a = patched (memGet s.basin) p.pa area a)) ∧
          (p.tgt = 0 → u.canWrite (p.pa / 128) (homeBd (p.pa / 128)) = false → retires (fun t => MemKept s t ∧ t.launches = s.launches ∧ t.windows = s.windows)) ∧
          (2 ≤ p.tgt → skipped 6)) ∧
        ∀ c u, s.translate .direct l.ctx d.statva .write false = (.error c, u) → c ≠ waitCode → skipped c) ∧
      -- steps 2 to 4
      (wins.length ≤ l.wrote →
        (l.code ≠ 0 → retires (fun t => MemKept s t ∧ ended t ∧ (l.code = 0x0F ∨ l.code = 0x13 → (t.queue l.queue).halt = true))) ∧
        (l.code = 0 → l.again = true → retires (fun t => MemKept s t ∧ ended t ∧
          (s.windowWaiters = [] → s.atHead l.queue l.cmd = true → (s.queue l.queue).grant = l.grant → (t.queue l.queue).again = true ∧
            (t.queue l.queue).rep = (l.rep + 1) % 2 ^ 32 ∧ (t.queue l.queue).qhead = (s.queue l.queue).qhead))) ∧
        (l.code = 0 → l.again = false →
          (l.lr.donef = 0 → retires (fun t => MemKept s t ∧ ended t)) ∧
          (l.lr.donef ≠ 0 →
            (∀ p u, s.translate .direct l.ctx l.lr.donef .write false = (.ok p, u) → p.tgt = 0 →
              (memWf s.dram = true → u.canWrite (p.pa / 128) (homeBd (p.pa / 128)) = true → retires (fun t => ended t ∧
                ∀ a, memGet t.dram a = patched (memGet s.dram) p.pa (toBytes 8 l.lr.donev) a)) ∧
              (u.canWrite (p.pa / 128) (homeBd (p.pa / 128)) = false → retires (fun t => MemKept s t ∧ t.launches = s.launches ∧
                t.running = s.running ∧ t.windows = s.windows))) ∧
            ∀ c u, s.translate .direct l.ctx l.lr.donef .write false = (.error c, u) → c ≠ waitCode → retires (fun t => MemKept s t ∧
              ended t ∧ (t.queue l.queue).halt = true))))) ∧
    let u := s.sweep
    let p := (u.launch lid).ranges.get {} die
    (u.launch lid).st = .running → (u.die 0).st = .active → p.reported < p.retired →
      Completes s (.completionCountReport die lid) (fun t => { t with launches := u.launches } = u ∧
        (t.launch lid).count = (u.launch lid).count + (p.retired - p.reported) ∧ ((t.launch lid).ranges.get {} die).reported = p.retired)

/-! ## Placement and retirement -/

/-- R16, R21, R111, R117, R119 to R121, R123, R126: a die's evaluation places its candidate at the first core position after the
last one it used, and the first start partition, at which its rills fit; a new rill stands at its entry with its index, role, group
index and arguments; one that has waited 100 µs blocks lower ones. A span's upper die grants or refuses a request, and the answer
places the lower group or moves on to the next choice; a request of a queue that PGO holds off is over (R431). Placed groups and cards
start once their fill has ended, a restored group with local store and registers from its frame (R430), and dies report their masks
and whole units. That a wait of R117 begins when the dispatcher first considers the candidate, and that the homes of a frame's lines
have to hold their tokens, is the model's choice (log entries 132 and 137).
What a restored group takes from its frame is log entry 40. -/
def Obligations.GroupsArePlacedAndStarted : Prop :=
  ∀ (s : State) (d lid room tower : Nat),
    let l := s.launch lid
    let r := l.lr
    let p := l.ranges.get {} d
    let u := (s.modDie d (fun x => { x with evaluate := false })).noteCands d
    let core := fun pos => 24 * d + pos
    let at_ := fun n => ((s.die d).lastPlaced + 1 + n / 8) % 24
    let from_ := fun n => (u.startPart (core (at_ n)) + n) % 8
    let fit := fun n => if (s.die d).enm.testBit (at_ n) = true then Space.fitsAll (from_ n) none [(r.need, 0)] (u.spaceOf (core (at_ n))) else none
    let key := fun (pos : Nat) (e : Seat) => 128 * core pos + 16 * e.part + e.slot
    let placed := fun (t : State) (i g die pos start index : Nat) (seats : List Seat) =>
      (t.group g).launch = i ∧ (t.group g).index = index ∧ (t.group g).die = die ∧ (t.group g).pos = pos ∧ (t.group g).start = start ∧
      (t.group g).st = .placed ∧ (t.group g).liveRills = seats.map (fun e => 128 * (24 * die + pos) + 16 * e.part + e.slot) ∧ g ∈ t.active ∧
      (t.room g).live = true ∧ (t.room g).mem = [] ∧ (t.room g).lsize = 1024 * (s.launch i).lr.lsize
    let quiet := fun (t : State) => t.dram = s.dram ∧ t.basin = s.basin ∧ t.hostMem = s.hostMem ∧ ∀ i, i ≠ s.fresh → t.room i = s.room i
    (∀ n seats z, s.sweep = s → isCompute d = true → (s.die d).evaluate = true → s.mayPlace d = true → s.spanBusy d = false →
      u.tryCards d = none → u.cands d = [⟨lid, p.first + p.placed * p.stride, none⟩] → r.has 3 = false → r.has 4 = false → r.has 5 = false →
      n < 192 → fit n = some ([seats], z) → (∀ m, m < n → fit m = none) → (seats.map (key (at_ n))).Nodup →
      Completes s (.placementEvaluation d) (fun t => quiet t ∧ t.fresh = s.fresh + 1 ∧
        placed t lid s.fresh d (at_ n) (from_ n) (p.first + p.placed * p.stride) seats ∧ (t.die d).lastPlaced = at_ n ∧
        ∀ e ∈ seats, let x := t.rill (key (at_ n) e)
          x.live = true ∧ x.started = false ∧ x.rid = e.rid ∧ x.gid = p.first + p.placed * p.stride ∧ x.launch = lid ∧ x.ctx = l.ctx ∧
          x.role = BitVec.ofNat 2 (r.role e.rid) ∧ x.width = r.rillWidth ∧ x.kcode = r.kcode ∧ x.rmode = r.rmode ∧
          (∀ i, i < r.rillWidth → (x.thread i).pc = BitVec.ofNat 64 (r.kcode + r.ents.getD r.maine 0) ∧ (x.thread i).exited = false) ∧
          (∀ i, i < r.args.length → x.kreg i = r.args.getD i 0) ∧ ∀ i, r.args.length ≤ i → x.kreg i = 0)) ∧
    (s.sweep = s → (s.die d).evaluate = false ∨ isCompute d = false ∨ s.mayPlace d = false → exec (.placementEvaluation d) s = .next s) ∧
    (∀ c, s.candOf d lid = some c →
      (c.group ≠ none ∨ (p.blocks = false ∧ ∀ t, p.since = some t → s.now d < t + 100000) → exec (.candidateWaitLimit d lid) s = .next s) ∧
      (∀ t, c.group = none → p.since = some t → t + 100000 ≤ s.now d → Completes s (.candidateWaitLimit d lid) (fun t => { t with launches := s.launches } = s ∧
        (t.launch lid).ranges.get {} d = { p with blocks := true } ∧ ∀ i, i ≠ lid → t.launch i = s.launch i))) ∧
    -- spans
    (∀ q, tower < 4 → s.spanReqs.get none tower = some q → q.choice < 192 →
      let up := 7 + 2 * tower
      let lo := 6 + 2 * tower
      let may := s.mayPlace up = true ∧ (s.pairmOf up).testBit q.pos = true ∧ s.unitMay q.launch (q.index + 1) up = true
      let held := (s.queue (s.launch q.launch).queue).pheld
      (q.answer = none → held = true → Completes s (.spanReservationRequest tower) (fun t =>
        { t with spanReqs := s.spanReqs } = s ∧ t.spanReqs.get none tower = none)) ∧
      (q.answer = none → held = false → ¬may ∨ s.upperSeats up q = none → Completes s (.spanReservationRequest tower) (fun t =>
        { t with spanReqs := s.spanReqs } = s ∧ t.spanReqs.get none tower = some { q with answer := some false })) ∧
      (∀ seats, q.answer = none → held = false → may → s.upperSeats up q = some [seats] → s.savedGroup q.launch (q.index + 1) = none →
        Completes s (.spanReservationRequest tower) (fun t => quiet t ∧ t.spanReqs.get none tower = some { q with answer := some true } ∧
          placed t q.launch s.fresh up q.pos q.start (q.index + 1) seats)) ∧
      (q.answer = some true → q.upperOnly = true → Completes s (.spanReservationReply tower) (fun t =>
        { t with spanReqs := s.spanReqs } = s ∧ t.spanReqs.get none tower = none)) ∧
      (∀ h, q.answer = some true → q.upperOnly = false → s.savedGroup q.launch q.index = none → h ≠ s.fresh → h ∈ s.active → (s.group h).launch = q.launch →
        (s.group h).index = q.index + 1 → (∀ j ∈ s.active, (s.group j).launch = q.launch → (s.group j).index = q.index + 1 → j = h) →
        s.fresh ∉ s.active → Completes s (.spanReservationReply tower) (fun t => quiet t ∧ t.spanReqs.get none tower = none ∧
          placed t q.launch s.fresh lo q.pos q.start q.index (q.slots.map decodeSeat) ∧ (t.group s.fresh).partner = h ∧ (t.group h).partner = s.fresh)) ∧
      (let cand : Cand := ⟨q.launch, q.index, if q.upperOnly then s.savedGroup q.launch (q.index + 1) else s.savedGroup q.launch q.index⟩
       q.answer = some false → (∀ v, s.requestSpan lo cand (q.choice + 1) = some v →
        exec (.spanReservationReply tower) s = .next v ∧ ∃ w, v.spanReqs.get none tower = some w ∧ q.choice < w.choice ∧ w.answer = none) ∧
        (s.requestSpan lo cand (q.choice + 1) = none →
          Completes s (.spanReservationReply tower) (fun t => (t.die lo).evaluate = true ∧
            ∃ w, t.spanReqs.get none tower = some w ∧ w.choice = 192 ∧ w.answer = none ∧ q.launch ∈ w.tried)))) ∧
    -- starts and reports
    (l.st = .running → r.has 5 = true → p.placed = p.count → Completes s (.unitPlacedReport d lid) (fun t => { t with launches := s.launches } = s ∧
      (t.launch lid).ranges.get {} d = { p with unitRep := true } ∧ ∀ i, i ≠ lid → t.launch i = s.launch i)) ∧
    (isCompute d = true → Completes s (.maskReport d) (fun t => { t with dies := s.dies } = s ∧
      t.die d = { s.die d with rmask := if (s.die d).st = .active ∧ (s.die d).gated = false then (s.die d).enm else 0 } ∧
      ∀ j, j ≠ d → t.die j = s.die j)) ∧
    (let x := s.group room
     x.room = room → x.st = .placed →
      (s.mayStart room = false → exec (.groupStart room) s = .next s) ∧
      (s.mayStart room = true → (∀ k ∈ x.liveRills, (s.rill k).trap = none) → (∀ j ∈ (s.room room).unitKeys, (s.tile j).queue = []) →
        let base := s.traps.cxpbase + 0x400000 * x.frame.getD 0
        let alone := x.span = false ∨ (s.group x.partner).st ≠ .placed
        (x.frame = none → (s.group x.partner).frame = none ∨ alone →
          Completes s (.groupStart room) (fun t => MemKept s t ∧ t.group room = { x with st := .running, filled := true, layout := [] } ∧
            (t.core (24 * x.die + x.pos)).l1 = [] ∧
            (∀ k, t.rill k = if k ∈ x.liveRills then { s.rill k with started := true } else s.rill k) ∧
            ∀ g, g ≠ room → g ≠ x.partner ∨ alone → t.group g = s.group g)) ∧
        (x.frame ≠ none → x.layout ≠ [] → s.homeOpen base frameBytes false = false → Completes s (.groupStart room) (fun t => MemKept s t ∧
          t.groups = s.groups ∧ t.rills = s.rills)) ∧
        (∀ f, x.frame = some f → x.layout ≠ [] → alone → s.homeOpen base frameBytes false = true → Completes s (.groupStart room) (fun t =>
          t.dram = s.dram ∧ t.group room = { x with st := .running, filled := true, layout := [], frame := none } ∧ f ∉ t.traps.frames ∧
          (∀ i, i < (s.room room).lsize → memGet (t.room room).mem i = memGet s.dram (base + 0x160000 + i)) ∧
          ∀ (y : FrameItem) (k : Nat), x.layout = [y] → x.liveRills.getD y.at_ noRill = k → k ∈ x.liveRills → (s.rill k).width ≤ 64 →
            (t.rill k).started = true ∧
            (∀ n, n < (s.rill k).nuni → (t.rill k).kreg n = BitVec.ofNat 32 (memNat s.dram (base + y.uni + 4 * n) 4)) ∧
            (∀ n l, n < (s.rill k).nvec → l < (s.rill k).width →
              (t.rill k).v.get 0 (64 * n + l) = BitVec.ofNat 32 (memNat s.dram (base + y.vec + 4 * ((s.rill k).width * n + l)) 4)) ∧
            ∀ l, l < (s.rill k).width → let z := base + 0x40000 + 160 * (64 * y.index + l)
              ((t.rill k).thread l).pc = BitVec.ofNat 64 ((s.rill k).kcode + memNat s.dram z 4) ∧
              ((t.rill k).thread l).flags = BitVec.ofNat 5 (memNat s.dram (z + 8) 4))))) ∧
    (let k := s.card room
     (s.group room).room ≠ room → k.live = true → k.st = .placed → k.frame = none →
      (s.core (s.room k.room).core).clk < k.fillAt ∨ (s.group k.group).resident = false → exec (.groupStart room) s = .next s) ∧
    (let k := s.card room
     (s.group room).room ≠ room → k.live = true → k.st = .placed → k.frame = none → k.fillAt ≤ (s.core (s.room k.room).core).clk →
      (s.group k.group).resident = true → (∀ i ∈ k.liveRills, (s.rill i).trap = none) → (∀ j ∈ (s.room k.room).unitKeys, (s.tile j).queue = []) →
        Completes s (.groupStart room) (fun t => MemKept s t ∧ (t.card room).st = .running ∧ (t.core (s.room k.room).core).l1 = [] ∧
          ∀ i, t.rill i = if i ∈ k.liveRills then { s.rill i with started := true } else s.rill i))

/-- R29, R31, R92, R443, R444: a rill all of whose threads have exited, with nothing outstanding and no trap pending, retires: its
slot is free and its reserve returns to the core bucket; where it was the last of its group, nothing of which is left, the group retires
with it, and it goes on otherwise. A card without rills counts at its DONEC, or leaves a record where that cannot be translated, and
frees what it held once no other card shares it; a group without rills, cards and adds on their way retires, and its die's completion
count reports it. -/
def Obligations.RillsCardsAndGroupsRetire : Prop :=
  ∀ (s : State) (k i g die : Nat), memWf s.dram = true →
    let r := s.rill k
    let retires := r.live = true ∧ r.started = true ∧ r.dropped = false ∧ r.agent = false ∧ k < 0x10000 ∧ (∀ l, l < r.width → (r.thread l).exited = true) ∧
      r.nld = 0 ∧ r.nst = 0 ∧ r.ntl = 0 ∧ (∀ t, t < 4 → r.ncp.get 0 t = 0) ∧ r.copies = [] ∧ r.accs = [] ∧ r.arrivals = [] ∧ r.vtoks = [] ∧
      r.trap = none ∧ r.pend = none
    let outer := fun (t : State) => t.dram = s.dram ∧ t.basin = s.basin ∧ t.hostMem = s.hostMem
    (¬retires → exec (.rillRetire k) s = .next s) ∧
    (retires → Completes s (.rillRetire k) (fun t => t.rill k = {} ∧ (∀ j, j ≠ k → t.rill j = s.rill j) ∧
      ((∀ j, (s.card j).live = true → word64 (s.card j).words 7 = 0) → outer t) ∧
      (t.core (keyCore k)).bal = (s.core (keyCore k)).bal + r.reserve ∧ (t.die (keyDie k)).evaluate = true ∧
      (∀ x, x ∈ (t.group r.group).liveRills ↔ x ∈ (s.group r.group).liveRills ∧ x ≠ k) ∧
      let x := s.group r.group
      ((∃ j ∈ x.liveRills, j ≠ k) → (t.group r.group).st = x.st ∧ (r.group ∈ s.active → r.group ∈ t.active)) ∧
      (r.group ∈ s.active → x.st = .running → (∀ j ∈ x.liveRills, j = k) → x.cards = [] → (∀ j, (s.card j).live = true → (s.card j).group ≠ r.group) →
        (∀ q ∈ s.cores, ∀ j ∈ q.2.jobs, j.group ≠ r.group) → (∀ q ∈ s.fab.reqs, q.arg = 1 → q.queue ≠ r.group) →
        (∀ u ∈ (s.room x.room).unitKeys, (s.tile u).queue = []) →
        (t.group r.group).st = .retired ∧ r.group ∉ t.active ∧ (t.room x.room).live = false ∧
        (s.active = [r.group] → ∀ p, (s.launch x.launch).ranges.find x.die = some p →
          ((t.launch x.launch).ranges.get {} x.die).retired = p.retired + 1)))) ∧
    (let c := s.card i
     let core := (s.room c.room).core
     let va := word64 c.words 7
     let frees := fun (t : State) => (t.card i).live = false ∧ i ∉ (t.group c.group).cards ∧ (c.own = false → (t.room c.room).live = false)
     let shared := c.own = false ∧ ((∃ p ∈ s.cards, p.2.live = true ∧ p.2.own = true ∧ p.2.room = c.room) ∨
       ∃ q ∈ s.cores, ∃ j ∈ q.2.jobs, j.own = true ∧ j.room = c.room)
     (s.cards.map (·.1)).Nodup → (∀ j, j ≠ i → (s.card j).live = true → (s.card j).st ≠ .running ∨ (s.card j).liveRills ≠ []) →
      c.live = true → c.st = .running → c.liveRills = [] → isCompute die = false →
      (va = 0 ∨ c.counted = true →
        (¬shared → Completes s (.placementEvaluation die) (fun t => outer t ∧ frees t)) ∧
        (shared → Completes s (.placementEvaluation die) (fun t => outer t ∧ t.card i = { c with counted := true }))) ∧
      (∀ e u, va ≠ 0 → c.counted = false → s.translate (.engine core) (s.launch c.launch).ctx va .atomic false = (.error e, u) →
        (e = waitCode → Completes s (.placementEvaluation die) (fun t => outer t ∧ t.card i = c)) ∧
        (e ≠ waitCode → ¬shared → Completes s (.placementEvaluation die) (fun t => outer t ∧ frees t ∧ t.box.queue = s.box.queue ++
          [{ kind := 0x0C, die := coreDie core, core := corePos core, code := e, arg0 := va, arg1 := 1 }]))) ∧
      ∀ p u, va ≠ 0 → c.counted = false → s.translate (.engine core) (s.launch c.launch).ctx va .atomic false = (.ok p, u) → p.tgt = 0 →
        (u.canWrite (p.pa / 128) (coreTower core) = true → u.poisoned (coreTower core) 0 p.pa 4 = false →
          let added := fun (t : State) => ∀ a, memGet t.dram a = patched (memGet s.dram) p.pa
            (toBytes 4 ((ofBytes (memRead s.dram p.pa 4) + 1) % 2 ^ 32)) a
          (¬shared → Completes s (.placementEvaluation die) (fun t => added t ∧ frees t)) ∧
          (shared → Completes s (.placementEvaluation die) (fun t => added t ∧ t.card i = { c with counted := true }))) ∧
        (u.canWrite (p.pa / 128) (coreTower core) = false → Completes s (.placementEvaluation die) (fun t => t.dram = s.dram ∧ t.card i = c))) ∧
    (let x := s.group g
     let l := s.launch x.launch
     s.active = [g] → s.cards = [] → x.st = .running → x.liveRills = [] → x.cards = [] → (∀ q ∈ s.cores, ∀ j ∈ q.2.jobs, j.group ≠ g) →
      (∀ u ∈ (s.room x.room).units, (s.tile (2 * (s.room x.room).core + u)).queue = []) → (s.cores.map (·.1)).Nodup →
      (∀ q ∈ s.fab.reqs, q.arg = 1 → q.queue ≠ g) → l.st = .running → (s.die 0).st = .active →
      ∀ p, l.ranges.find x.die = some p → p.reported ≤ p.retired → Completes s (.completionCountReport x.die x.launch) (fun t => (t.group g).st = .retired ∧
        g ∉ t.active ∧ (t.room x.room).live = false ∧ (t.launch x.launch).count = l.count + (p.retired + 1 - p.reported) ∧
        ((t.launch x.launch).ranges.get {} x.die).retired = p.retired + 1))

/-! ## Events, pre-emption, gating and debug -/

/-- R426 to R431, R460: PGO holds a queue's groups off their cores and ends its requests for spans; each group begins to leave its core
once it has a free context frame, or has one still, or is deferred until a frame frees; its rills are dropped, and keep their reserves
until their slots are free (log entry 131: the model's reading). Once they have drained, the group is saved with each thread at its
region start and local store at its place in the frame, when the homes have the frame's lines (the model's choice: log entry 132). PREST
lets it be placed again. R432 to R434: a GREQ write gates or restores an upper layer, after an operation in progress; with its groups
gone and its agents idle the layer's balances, its agents' reserves among them, return to its domain and it is off; a restored layer's
agents start afresh and it reports its mask. HREQ stops a running die, which reads HALTED once its accesses and its requests to peers
are performed, and RUN ends the halt.
That an issue in its passes is undone lane by lane is the model's reading (log entry 154). -/
def Obligations.PreemptionGatingAndDebugHalt : Prop :=
  (∀ (s : State) (v : DWord) (g f : Nat),
     let q := v.toNat % 64
     let x := s.group g
     let keys := s.roomKeys x.room
     let first := x.frame = none ∧ f < s.traps.cxpn ∧ f ∉ s.traps.frames ∧ ∀ j, j < f → j ∈ s.traps.frames
     let outer := fun (t : State) => t.dram = s.dram ∧ t.basin = s.basin ∧ t.hostMem = s.hostMem
     let noSpan := ∀ w r, s.spanReqs.get none w = some r → (s.launch r.launch).queue ≠ q
     let sane := (s.rills.map (·.1)).Nodup ∧ ∀ k ∈ keys, (s.rill k).dropped = false
     let leaves := fun (t : State) (frames : List Nat) => t.group g = { x with st := .saving, frame := some f } ∧ t.traps.frames = frames ∧
       (∀ k ∈ keys, (s.rill k).agent = false → (t.rill k).dropped = true ∧ (t.rill k).waits = [] ∧ (t.rill k).reserve = (s.rill k).reserve ∧
         ∀ a ∈ (t.rill k).accs, a.isLoad = false) ∧ ∀ k, k ∉ keys → t.rill k = s.rill k
     (v.toNat.testBit 31 = false → exec (.preemptQueue v) s = .next { s with traps := { s.traps with pq := q } }) ∧
     (v.toNat.testBit 31 = true → Completes s (.preemptQueue v) (fun t => outer t ∧ t.traps.pq = q ∧ (t.queue q).pheld = true ∧
       (∀ w r, w < 4 → s.spanReqs.get none w = some r → (s.launch r.launch).queue = q → t.spanReqs.get none w = none) ∧ (noSpan → MemKept s t) ∧
       (noSpan → s.queueGroups q = [g] → x.onCore = true → x.cards = [] → sane → first → leaves t (f :: s.traps.frames)) ∧
       (noSpan → s.queueGroups q = [g] → x.onCore = true → x.cards = [] → sane → x.frame = some f → leaves t s.traps.frames) ∧
       (noSpan → s.queueGroups q = [g] → x.onCore = true → x.cards = [] → x.frame = none → (∀ j, j < s.traps.cxpn → j ∈ s.traps.frames) → 2 * g ∉ s.traps.deferred →
         t.rills = s.rills ∧ t.group g = x ∧ t.traps.deferred = s.traps.deferred ++ [2 * g]))) ∧
     (v.toNat.testBit 30 = true → Completes s (.preemptRestore v) (fun t => MemKept s t ∧ t.traps.pq = q ∧ (t.queue q).pheld = false ∧
       ∀ d, 6 ≤ d → d < 14 → (t.die d).evaluate = true)) ∧
     (v.toNat.testBit 30 = false → exec (.preemptRestore v) s = .next { s with traps := { s.traps with pq := q } }) ∧
     (∀ rest, s.traps.deferred = 2 * g :: rest → x.onCore = true → sane → first → s.traps.frames.length < s.traps.cxpn →
       Completes s .deferredPreemption (fun t => MemKept s t ∧ leaves t (f :: s.traps.frames) ∧ t.traps.deferred = rest)) ∧
     (s.traps.deferred = [] ∨ s.traps.cxpn ≤ s.traps.frames.length → exec .deferredPreemption s = .next s) ∧
     (x.room = g → x.st = .saving →
       (s.roomDrained g = false → exec (.contextSaveComplete g) s = .next s) ∧
       (s.roomDrained g = true → (s.launch x.launch).st = .ending → Completes s (.contextSaveComplete g) (fun t => (t.group g).st = .retired ∧
         t.dram = s.dram ∧ g ∉ t.active)) ∧
       (s.roomDrained g = true → (s.launch x.launch).st ≠ .ending → x.frame = some f → x.layout = [] →
         s.homeOpen (s.traps.cxpbase + 0x400000 * f) frameBytes true = false → Completes s (.contextSaveComplete g) (fun t => MemKept s t ∧
           t.groups = s.groups ∧ t.rills = s.rills)) ∧
       (s.roomDrained g = true → (s.launch x.launch).st ≠ .ending → x.frame = some f → x.layout = [] →
         s.homeOpen (s.traps.cxpbase + 0x400000 * f) frameBytes true = true → x.span = false → memWf s.dram = true → keys.Nodup →
         (∀ k ∈ keys, (s.rill k).copies = []) → (s.room g).units.length ≤ 2 → Completes s (.contextSaveComplete g) (fun t => (t.group g).st = .saved ∧
           (t.group g).slots = keys ∧ (t.group g).frame = some f ∧ (t.group g).saved.length = keys.length ∧ (t.room g).live = false ∧
           (∀ k ∈ keys, (t.rill k).live = false) ∧ (∀ (i k : Nat), keys[i]? = some k → ∃ y : Rill, (t.group g).saved[i]? = some y ∧
             (∀ n, y.kreg n = (s.rill k).kreg n) ∧ y.v = (s.rill k).v ∧ y.rid = (s.rill k).rid ∧ y.accs = [] ∧ y.reserve = 0 ∧
             ∀ l, (y.thread l).pc = ((s.rill k).thread l).region ∧
               (y.thread l).stack = ((s.rill k).thread l).stack ∧ (y.thread l).exited = ((s.rill k).thread l).exited) ∧
           ∀ i, i < 0x40000 → memGet t.dram (s.traps.cxpbase + 0x400000 * f + 0x160000 + i) = memGet (s.room g).mem i)))) ∧
  (∀ (s : State) (w d : Nat), w < 4 →
     let up := 7 + 2 * w
     let busy := s.gbusy.get 0 w
     let dom := 2 * w + 1
     let cores := (List.range 24).map (fun i => 24 * up + i)
     let rest := fun (t : State) => MemKept s t ∧ (∀ k n l, t.vreg k n l = s.vreg k n l) ∧ ∀ j, j ≠ w → t.gbusy.get 0 j = s.gbusy.get 0 j
     (busy ≠ 0 ∨ (s.die up).st ≠ .active → exec (.gateLayer w) s = .next { s with greq := s.greq.set w true } ∧
       exec (.restoreLayer w) s = .next { s with greq := s.greq.set w false }) ∧
     (busy = 0 → (s.die up).st = .active → (s.die up).gated = false → s.dieCards up = [] →
       (s.dieGroups up = [] → Completes s (.gateLayer w) (fun t => rest t ∧ t.gbusy.get 0 w = 1 ∧ t.greq.get false w = true ∧ t.rills = s.rills)) ∧
       ∀ g f, s.dieGroups up = [g] → (s.group g).onCore = true → (s.group g).frame = none →
         (∀ k ∈ s.roomKeys (s.group g).room, (s.rill k).undo = []) → f < s.traps.cxpn → f ∉ s.traps.frames → (∀ j, j < f → j ∈ s.traps.frames) →
         Completes s (.gateLayer w) (fun t => rest t ∧ t.gbusy.get 0 w = 1 ∧ (t.group g).st = .saving ∧ (t.group g).gated = true ∧
           (t.group g).frame = some f)) ∧
     (busy = 0 → (s.die up).st = .active → (s.die up).gated = true → Completes s (.restoreLayer w) (fun t => rest t ∧ t.gbusy.get 0 w = 2 ∧
       t.greq.get false w = false ∧ { t with gbusy := [], greq := [] } = { s with gbusy := [], greq := [] })) ∧
     (busy = 1 → (∀ g ∈ s.dieGroups up, (s.group g).st ≠ .placed ∧ (s.group g).st ≠ .running ∧ (s.group g).st ≠ .saving) →
       (∀ c ∈ s.dieCards up, (s.card c).st ≠ .placed ∧ (s.card c).st ≠ .running ∧ (s.card c).st ≠ .saving) → s.dieOrphans up = false →
       (∀ c ∈ cores, s.agentIdle c = true) → s.greq.get false w = true → Completes s (.gatePowerOff w) (fun t => rest t ∧ t.gbusy.get 0 w = 0 ∧
         (t.die up).gated = true ∧ (t.die up).rmask = 0 ∧ (t.die up).st = (s.die up).st ∧
         (t.dom dom).dbal = min (s.dom dom).dcap ((s.dom dom).dbal + (cores.map (fun c => (s.core c).bal + (s.rill (agentKey c)).reserve)).sum) ∧
         (∀ c ∈ cores, (t.core c).bal = 0 ∧ (t.core c).l1 = [] ∧ (t.core c).icache = [] ∧ (t.core c).tlb = [] ∧ (t.rill (agentKey c)).reserve = 0) ∧ ∀ c, c ∉ cores → t.core c = s.core c)) ∧
     (busy ≠ 1 → exec (.gatePowerOff w) s = .next s) ∧
     (busy = 2 → s.greq.get false w = false → Completes s (.restoreComplete w) (fun t => MemKept s t ∧ (∀ j, t.gbusy.get 0 j = if j = w then 0 else s.gbusy.get 0 j) ∧
       (∀ i, i < 24 → (s.die up).enm.testBit i = true → t.rill (agentKey (24 * up + i)) = agentRill) ∧
       (∀ k, (∀ i, i < 24 → k ≠ agentKey (24 * up + i)) → t.rill k = s.rill k) ∧ (t.die up).gated = false ∧
       (t.die up).rmask = (s.die up).enm ∧ (t.die up).evaluate = true)) ∧
     (busy ≠ 2 → exec (.restoreComplete w) s = .next s) ∧
     let die := s.die d
     let only := fun (i : Instr) (y : Die) => Completes s i (fun t => { t with dies := s.dies } = s ∧ t.die d = y ∧ ∀ j, j ≠ d → t.die j = s.die j)
     (6 ≤ d → d < 14 → die.st = .active → die.halted = false → only (.debugHaltRequest d) { die with hreq := true }) ∧
     (die.halted = true → exec (.debugHaltRequest d) s = .next s ∧ only (.debugRun d) { die with halted := false }) ∧
     (die.halted = false → exec (.debugRun d) s = .next s) ∧
     (die.hreq = true → (∀ p ∈ s.rills, p.1 < 0x10000 → keyDie p.1 = d → (∀ a ∈ p.2.accs, ∀ q ∈ a.reqs, q.done = true) ∧ ∀ w ∈ p.2.waits, w.held = none) →
       (∀ r ∈ s.fab.reqs, r.rill = noRill ∨ coreDie (s.coreOf r.rill) ≠ d) → only (.debugHalted d) { die with hreq := false, halted := true }) ∧
     (die.hreq = false ∨ (∃ p ∈ s.rills, p.1 < 0x10000 ∧ keyDie p.1 = d ∧
         ((∃ a ∈ p.2.accs, ∃ q ∈ a.reqs, q.done = false ∧ q.tgt ≠ 5) ∨ ∃ w ∈ p.2.waits, w.held ≠ none)) ∨
         (∃ r ∈ s.fab.reqs, r.rill ≠ noRill ∧ coreDie (s.coreOf r.rill) = d) →
       exec (.debugHalted d) s = .next s))

/-! ## Dies, links and boot -/

/-- R97, R98, R100 to R106: an attempt goes on exchange by exchange; the seventh makes a die KEYED. One that shows a failure, or that has
lasted 200 ms, counts, and after the third the die is held. The ends of its links install keys, and it is ACTIVE when all are keyed. A
link that leads away from the FED to a compute die that cannot come up is not waited for (the model's reading: log entry 135). A
rollover goes from the receiver's key to the sender's flip, between ends in service, and the old key is erased at its end. DOE objects
are answered; the SPDM session comes before IDE; a peer that attests has a session and path keys. R94, R99, R100, R107, R108, R110, R254, R436, Table 4-6: a single-die reset drains an ACTIVE die and then resets it: its keys
are gone, and what ran on it is lost with halt code 15 for its launches; the FED's commands in hand end with code 18; the IOD drops
the host link. A reset die goes through OFF to its fuse check, whose result a free value gives. A link failure resets the die R99 names, one of a peer's
set the IOD (R368); the response watchdog resets a die when a request it has seen wait is still without a response 10 ms later, which
does not advance while a die of the link is halted. A package reset, and the end of
power, leave nothing but fuses, host memory and what an image keeps.
The model's readings: DOE requests and attestation go on whatever the FED's state (log entries 141 and 142), the key phase outlasts a reset (143), a peer set resets the
IOD (135), what the watchdog looks at (156), and which stores have left a die (111 and 163). -/
def Obligations.DiesAttestResetAndKeyTheirLinks : Prop :=
  (∀ (s : State) (d code dir peer : Nat) (end_ : Bool),
     let x := s.die d
     let l := dir / 2
     let y := s.link dir
     let open_ := fun (i : Nat) => (s.link i).senderKey = true ∧ (s.link i).receiverKey = true
     let sess := fun (e : Nat) => (s.die e).st = .keyed ∨ (s.die e).st = .active
     let path := 34 ≤ dir ∧ dir < 162 ∧ (s.peer (l - 17)).sess = true
     let both := (dir < 34 ∧ sess (linkEnds l).1 ∧ sess (linkEnds l).2) ∨ path
     let serves := fun (i : Nat) => open_ i ∧ (s.die (linkEnds (i / 2)).1).st = .active ∧ (s.die (linkEnds (i / 2)).2).st = .active
     let rolls := (dir < 34 ∧ serves dir) ∨ (path ∧ open_ dir)
     -- a key that comes into use brings a salt, which the spec leaves open
     let linkTo := fun (i : Instr) (z : LinkDir) => Completes s i (fun t => { t with links := s.links, free := s.free } = s ∧
       (∃ salt, t.link dir = { z with salt := salt } ∧ (z.gen = y.gen → salt = y.salt)) ∧ ∀ j, j ≠ dir → t.link j = s.link j)
     let others := fun (t : State) => (10 < s.boot.step → MemKept s t) ∧ ∀ j, j ≠ d → (t.die j).st = (s.die j).st
     let fails := fun (i : Instr) (c : Nat) => Completes s i (fun t => others t ∧ (t.die d).st = .quarantine ∧ (t.die d).failc = c ∧
       (t.die d).attempts = x.attempts + 1 ∧ (t.die d).exch = 0 ∧ (t.die d).held = decide (2 ≤ x.attempts) ∧
       (10 < s.boot.step → t.msix.get 0 64 = s.msix.get 0 64 + 1))
     let late := x.exch ≠ 0 ∧ x.tryAt + 200000000 ≤ s.now 0
     let found := s.measureCode d
     (s.mayAttest d = false → exec (.attestationAttempt d code) s = .next s ∧ exec (.attestationTimeout d) s = .next s) ∧
     (s.mayAttest d = true →
       (late → fails (.attestationAttempt d code) 3 ∧ fails (.attestationTimeout d) 3) ∧
       (¬late → exec (.attestationTimeout d) s = .next s ∧
         (code ≠ 0 → code ∈ attestCodes (x.exch + 1) → fails (.attestationAttempt d code) code) ∧
         (code ≠ 0 → code ∉ attestCodes (x.exch + 1) → exec (.attestationAttempt d code) s = .next s) ∧
         (x.exch = 3 → found ≠ 0 → fails (.attestationAttempt d 0) found) ∧
         (x.exch < 6 → ¬(x.exch = 3 ∧ found ≠ 0) → Completes s (.attestationAttempt d 0) (fun t => { t with dies := s.dies } = s ∧
           t.die d = { x with exch := x.exch + 1, tryAt := if x.exch = 0 then s.now 0 else x.tryAt } ∧ ∀ j, j ≠ d → t.die j = s.die j)) ∧
         (6 ≤ x.exch → Completes s (.attestationAttempt d 0) (fun t => others t ∧ (t.die d).st = .keyed ∧ (t.die d).since = x.ltime ∧
           (t.die d).exch = 0)))) ∧
     -- keys
     (both → ¬open_ dir → linkTo (.linkkey dir true) (if y.senderKey then { y with receiverKey := true, gen := y.gen + 1, roll := 0, again := false } else { y with receiverKey := true }) ∧
       linkTo (.linkkey dir false) (if y.receiverKey then { y with senderKey := true, gen := y.gen + 1, roll := 0, again := false } else { y with senderKey := true })) ∧
     (both → open_ dir → (y.roll = 1 → linkTo (.linkkey dir true) { y with roll := 2 }) ∧
       (y.roll = 2 → linkTo (.linkkey dir false) { y with roll := 3, phase := !y.phase, gen := y.gen + 1 }) ∧
       (y.roll ≠ 1 → exec (.linkkey dir true) s = .next s) ∧ (y.roll ≠ 2 → exec (.linkkey dir false) s = .next s)) ∧
     (¬both → exec (.linkkey dir end_) s = .next s) ∧
     (rolls → y.roll = 0 → linkTo (.keyRolloverCount dir) { y with roll := 1 }) ∧
     (¬rolls ∨ y.roll ≠ 0 → exec (.keyRolloverCount dir) s = .next s) ∧
     (y.roll = 3 → Completes s (.oldKeyErase dir) (fun t => { t with links := s.links, free := s.free, agenda := s.agenda } = s ∧
       t.link dir = { y with roll := if y.again then 1 else 0, again := false } ∧ (∀ j, j ≠ dir → t.link j = s.link j) ∧
       (t.agenda = s.agenda ∨ dir < 34 ∧ t.agenda = s.agenda ++ [.linkTagFail dir false]))) ∧
     (y.roll ≠ 3 → exec (.oldKeyErase dir) s = .next s) ∧
     (x.st = .active → Completes s (.rollRequest d) (fun t => { t with links := s.links } = s ∧
       ∀ j, t.link j = if j < 34 ∧ ((linkEnds (j / 2)).1 = d ∨ (linkEnds (j / 2)).2 = d) ∧ serves j then
         (if (s.link j).roll = 0 then { s.link j with roll := 1 } else { s.link j with again := true }) else s.link j)) ∧
     (x.st ≠ .active → exec (.rollRequest d) s = .next s) ∧
     -- opening
     let settled := fun (i : Nat) => (open_ (2 * i) ∧ open_ (2 * i + 1)) ∨
       ((linkEnds i).1 = d ∧ isCompute (farEnd i d) = true ∧ ((s.die (farEnd i d)).st = .off ∨ (s.die (farEnd i d)).held = true))
     (d < 14 → x.st = .keyed → (∀ i ∈ dieLinks d, settled i) →
       Completes s (.dieOpen d) (fun t => (t.die d).st = .active ∧ (10 < s.boot.step → t.dram = s.dram) ∧
         (6 ≤ d → (t.die d).rmask = x.enm ∧ (t.die d).lastPlaced = 23 ∧ (t.die d).evaluate = true ∧ (10 < s.boot.step →
           ∀ i, i < 24 → x.enm.testBit i = true → t.rill (slotKey (24 * d + i) 0 15) = agentRill)))) ∧
     (14 ≤ d ∨ x.st ≠ .keyed ∨ (∃ i ∈ dieLinks d, ¬settled i) → exec (.dieOpen d) s = .next s) ∧
     -- sessions
     ((s.die 1).st = .off → exec (.doeRequest code) s = .next s) ∧
     (let answers := fun (b : Boot) => Completes s (.doeRequest code) (fun t => t.boot = b ∧ t.dram = s.dram ∧ t.rills = s.rills ∧
        (s.fab.ferwait = [] → t = { s with boot := b }))
      (s.die 1).st ≠ .off → (code = 0 → answers { s.boot with doe := [0], spdm := true }) ∧
       (code = 1 → answers { s.boot with doe := [1, s.boot.spdm.toNat], ide := s.boot.spdm }) ∧
       (code = 2 → answers { s.boot with doe := [2, 0, 0xC000000000] }) ∧
       (3 ≤ code → code < 17 → answers { s.boot with doe := code :: s.measurements (code - 3) }) ∧
       (code = 17 → answers { s.boot with doe := if s.boot.spdm then [17] else [] }) ∧
       (17 < code → answers { s.boot with doe := [] })) ∧
     (peer < 64 → peer ≠ s.fab.devno → s.fab.en = true → (s.die 0).st = .active → (s.die 1).st = .active → (s.nextHop peer 3).isSome = true →
       Completes s (.peerAttestation peer true) (fun t => MemKept s t ∧ (t.peer peer).sess = true ∧ t.rills = s.rills ∧
         ∀ i, i = 34 + 2 * peer ∨ i = 35 + 2 * peer → (t.link i).open = true ∧ (t.link i).gen = (s.link i).gen + 1) ∧
       Completes s (.peerAttestation peer false) (fun t => MemKept s t ∧ t.rills = s.rills ∧ t.links = s.links ∧
         ∀ i, (t.peer i).sess = (s.peer i).sess)) ∧
     (64 ≤ peer ∨ peer = s.fab.devno ∨ s.fab.en = false ∨ (s.die 0).st ≠ .active ∨ (s.die 1).st ≠ .active ∨ s.nextHop peer 3 = none →
       exec (.peerAttestation peer end_) s = .next s)) ∧
  (∀ (s : State) (d dir lid : Nat),
     let x := s.die d
     let l := dir / 2
     let now := s.now (if dir < 34 then (linkEnds l).1 else 1)
     let victim := if dir < 34 then linkVictim l else 1
     let recent := fun (i : Nat) => ((s.link i).fails.filter (fun t => decide (now < t + 1000000))).length
     let total := recent dir + recent (if dir % 2 = 0 then dir + 1 else dir - 1) + 1
     let drains := fun (i : Instr) (j code : Nat) => Completes s i (fun t => MemKept s t ∧ t.rills = s.rills ∧ (t.die j).st = .draining ∧
       (t.die j).failc = code ∧ (t.die j).since = (s.die j).ltime ∧ (t.die j).halted = false ∧ t.msix.get 0 64 = s.msix.get 0 64 + 1)
     let resets := fun (i : Instr) (code : Nat) => Completes s i (fun t => (t.die d).st = .resetting ∧ (t.die d).failc = code ∧
       (t.die d).rstcnt = min (x.rstcnt + 1) 255 ∧ (∀ i ∈ dieLinks d, t.linkOpen i = false) ∧
       (6 ≤ d → (t.die d).rmask = 0 ∧ (∀ k, k < 0x10000 → keyDie k = d → t.rill k = {}) ∧
         (lid ∈ s.running → (s.launch lid).st = .running → ((s.launch lid).ranges.get {} d).retired < ((s.launch lid).ranges.get {} d).count →
           (t.launch lid).code = 0x0F)) ∧
       (d = 0 → ∀ n, n < 4 → (s.cp n).busy = true → (s.queue (s.cp n).queue).halt = false → (t.cp n).busy = false ∧
         (t.queue (s.cp n).queue).halt = true ∧ (t.queue (s.cp n).queue).errc = 0x12) ∧
       (d = 1 → t.boot.ide = false ∧ (∀ p, (t.peer p).sess = false ∧ (t.peer p).live = 0) ∧ ∀ n, (t.line n).lent = 0))
     -- a link from the FED to a base die: the package is reset, and the base die keeps the code
     let packaged := fun (i : Instr) (code : Nat) => Completes s i (fun t => t.rills = [] ∧ t.queues = [] ∧ (t.die (l + 1)).failc = code)
     (d < 14 → ¬(2 ≤ d ∧ d < 6) → x.st = .active → drains (.dieResetRequest d) d 0x0A) ∧
     (2 ≤ d → d < 6 → exec (.dieResetRequest d) s = exec .packageReset s) ∧
     (d < 14 → ¬(2 ≤ d ∧ d < 6) → x.st = .quarantine → x.held = true → resets (.dieResetRequest d) 0x0A) ∧
     (¬(2 ≤ d ∧ d < 6) → x.st ≠ .active → (x.st ≠ .quarantine ∨ x.held = false) → exec (.dieResetRequest d) s = .next s) ∧
     (d < 14 → ¬(2 ≤ d ∧ d < 6) → x.st = .draining →
       let limit := if 6 ≤ d then 100000 else 2000000
       (x.since.toNat + limit ≤ x.ltime.toNat → resets (.drainLimit d) 0x09 ∧ resets (.drainComplete d) 0x09) ∧
       (x.ltime.toNat < x.since.toNat + limit → exec (.drainLimit d) s = .next s ∧
         (s.dieDrained d = true → resets (.drainComplete d) x.failc) ∧ (s.dieDrained d = false → exec (.drainComplete d) s = .next s))) ∧
     (d < 14 → x.st = .resetting → Completes s (.drainComplete d) (fun t => MemKept s t ∧ (t.die d).ltime = 0 ∧ (t.die d).st = .fuseCheck ∧
       t.rills = s.rills ∧ ∀ j, j ≠ d → t.die j = s.die j)) ∧
     (d < 14 → x.st = .fuseCheck → Completes s (.drainComplete d) (fun t => (10 < s.boot.step → t.dram = s.dram) ∧
       ((t.die d).st = .quarantine ∧ (t.die d).held = false ∧ (t.die d).attempts = 0 ∧ (6 ≤ d → (t.die d).enm = x.harvest) ∨
        (t.die d).st = .off ∧ (t.die d).failc = 1))) ∧
     (x.st ≠ .draining → exec (.drainLimit d) s = .next s ∧ (x.st ≠ .resetting → x.st ≠ .fuseCheck → exec (.drainComplete d) s = .next s)) ∧
     -- links
     (dir < 162 → (s.link dir).open = true →
       (total < 16 → Completes s (.linkTagFail dir false) (fun t => { t with links := s.links } = s ∧ now ∈ (t.link dir).fails ∧
         (t.link dir).gen = (s.link dir).gen ∧ ∀ j, j ≠ dir → t.link j = s.link j)) ∧
       (l = 0 ∨ 5 ≤ l → (s.die victim).st = .active → drains (.linkTagFail dir true) victim 0x08 ∧ (16 ≤ total → drains (.linkTagFail dir false) victim 0x08)) ∧
       (1 ≤ l → l < 5 → packaged (.linkTagFail dir true) 0x08 ∧ (16 ≤ total → packaged (.linkTagFail dir false) 0x08))) ∧
     (162 ≤ dir ∨ (s.link dir).open = false → exec (.linkTagFail dir true) s = .next s) ∧
     -- the watchdog
     (let y := s.link (2 * l)
      let waits := s.linkWaits l
      let held := (s.die (linkEnds l).1).halted || (s.die (linkEnds l).2).halted
      let asks := fun (w : Option (Nat × Nat)) => Completes s (.linkResponseWatchdog l) (fun t => { t with links := s.links } = s ∧
        t.link (2 * l) = { y with asked := w.map (fun w => (w.1, w.2, now)) } ∧ ∀ j, j ≠ 2 * l → t.link j = s.link j)
      (17 ≤ l ∨ s.linkOpen l = false → exec (.linkResponseWatchdog l) s = .next s) ∧
      (l < 17 → s.linkOpen l = true → (∀ i j since, y.asked = some (i, j, since) → (i, j) ∉ waits) → asks waits.head?) ∧
      (∀ i j since, l < 17 → s.linkOpen l = true → y.asked = some (i, j, since) → (i, j) ∈ waits →
        (held = true → asks (some (i, j))) ∧ (held = false → now < since + 10000000 → exec (.linkResponseWatchdog l) s = .next s) ∧
        (held = false → since + 10000000 ≤ now → (l = 0 ∨ 5 ≤ l → (s.die victim).st = .active → drains (.linkResponseWatchdog l) victim 0x0B) ∧
          (1 ≤ l → l < 5 → packaged (.linkResponseWatchdog l) 0x0B)))) ∧
     -- the package
     (let bare := fun (t : State) => t.rills = [] ∧ t.queues = [] ∧ t.launches = [] ∧ t.running = [] ∧ t.groups = [] ∧ t.windows = [] ∧
        (∀ n, t.dom n = {}) ∧ (∀ n, t.link n = { gen := (s.link n).gen }) ∧ t.roots = [] ∧ t.basin = [] ∧ { t.coh with lines := [] } = {} ∧
        t.traps = {} ∧ t.fab = {} ∧ t.hostMem = s.hostMem ∧ t.power = { phase := s.power.phase } ∧ (t.dram = s.dram ∨ t.dram = []) ∧
        ∀ j, j < 14 → (t.die j).dieid = (s.die j).dieid ∧ (t.die j).harvest = (s.die j).harvest ∧ (t.die j).ltime = 0
      Completes s .packageReset (fun t => bare t ∧ (markerOk s.dram = true → t.dram = s.dram) ∧
        ∀ j, j < 14 → (t.die j).st = .off ∨ (t.die j).st = .fuseCheck) ∧
      Completes s .powerRemoved (fun t => bare t ∧ ∀ j, (t.die j).st = .off)) ∧
     Completes s .bootRecordClear (fun t => { t with boot := s.boot } = s ∧ t.boot.record = [] ∧ t.boot.stuck = false))

/-! ## Package power and heat -/

/-- R238, R241, R244 to R252: pin edges, GO and PCAP writes are acted on after the stagger; a clock code moves its domain, which
relocks; a droop injects while the window allows it and halves the clock otherwise; peers' intents are kept until their class bound;
the charge and the thermal state follow their samples, a thermal change being deferred by dwell and count but for SAVE.
The model's reading: a new step command ends the older ramp at once (log entry 149). -/
def Obligations.PowerCommandsAndSamples : Prop :=
  ∀ (s : State) (v : DWord) (dom dev cls fall lead mj sensor : Nat) (reading : Int), (s.die 0).st = .active →
    let p := s.power
    let now := s.now 0
    let phi := now + 1000 * p.phase
    let sets := fun (i : Instr) (q : Power) => Completes s i (fun t => t = { s with power := q })
    let field := fun (lo n : Nat) => v.toNat / 2 ^ lo % 2 ^ n
    let keep := fun (lo hi n old : Nat) => if lo ≤ n ∧ n ≤ hi then n else old
    let d := s.dom dom
    let only := fun (i : Instr) (y : Dom) => Completes s i (fun t => { t with doms := s.doms } = s ∧ t.dom dom = y ∧ ∀ j, j ≠ dom → t.dom j = s.dom j)
    let code := fun (f : Nat) => if f = 5 ∧ p.booston = false then 4 else f
    -- steps and caps
    (p.pin = false → sets .pstepAssert { p with pin := true, pinDue := p.pinDue ++ [(phi, true)], stepact := true, stepDue := some (phi, p.pcap),
                                                stepPin := true, inBand := 0 }) ∧
    (p.pin = true → sets .pstepAssert p ∧ sets .pstepRelease { p with pin := false, pinDue := p.pinDue ++ [(phi, false)] }) ∧
    (p.pin = false → sets .pstepRelease p) ∧
    (let stepcap := keep 900 2800 (field 0 12) p.stepcap
     let pincap := keep 900 2800 (field 12 12) p.pincap
     (v.toNat.testBit 31 = false → sets (.powerStepGo v) { p with pincap := pincap, stepcap := stepcap }) ∧
     (v.toNat.testBit 31 = true → 900 ≤ stepcap → stepcap ≤ 2800 → Completes s (.powerStepGo v) (fun t => { t with power := p } = s ∧
       t.power.pcap = stepcap ∧ t.power.stepact = true ∧ t.power.stepDue = some (phi, stepcap) ∧ t.power.stepPin = false ∧
       t.power.pincap = pincap ∧ t.power.stepcap = stepcap ∧ t.power.floor = (if stepcap = p.pcap then p.floor else min p.floor stepcap) ∧
       t.power.pdraw = p.pdraw ∧ t.power.rate = p.rate))) ∧
    Completes s (.pcapWrite v) (fun t => { t with power := p } = s ∧ t.power.pcap = keep 900 2800 (field 24 12) p.pcap ∧
      t.power.bcap = keep 2800 3400 (field 36 12) p.bcap ∧ t.power.slew = keep 10 400 (field 0 9) p.slew ∧
      (field 12 12 ≤ t.power.pcap → t.power.floor = field 12 12) ∧ (t.power.pcap = p.pcap ∨ t.power.capDue = p.capDue ++ [(phi, t.power.pcap)])) ∧
    -- clocks
    (dom < 8 → v.toNat % 16 < 6 → d.busy = false → only (.fselWrite dom v)
      (if d.cur = code (v.toNat % 16) then { d with fsel := v.toNat % 16 } else { d with fsel := v.toNat % 16, cur := code (v.toNat % 16), busy := true })) ∧
    (dom < 8 → v.toNat % 16 < 6 → d.busy = true → only (.fselWrite dom v) { d with fsel := v.toNat % 16 }) ∧
    (8 ≤ dom ∨ 6 ≤ v.toNat % 16 → sets (.fselWrite dom v) p) ∧
    (dom < 8 → d.busy = true → only (.relockDone dom) (if d.cur = code d.fsel then { d with busy := false } else { d with cur := code d.fsel })) ∧
    (8 ≤ dom ∨ d.busy = false → exec (.relockDone dom) s = .next s) ∧
    (let clk := s.domClock dom
     let recent := d.inj.filter (fun t => decide (clk < t + 1024))
     dom < 8 → d.busy = false → s.domCores dom ≠ [] →
      (recent.length < 64 → Completes s (.droopTrip dom) (fun t => t.power = { p with injn := min (p.injn + 1) (2 ^ 32 - 1) } ∧
        t.dom dom = { d with inj := clk :: recent } ∧ t.msix = s.msix ∧ t.rills = s.rills)) ∧
      (64 ≤ recent.length → (∀ t, d.stretched = some t → t + 1024 ≤ clk) → Completes s (.droopTrip dom) (fun t =>
        t.power.stretch = min (p.stretch + 1) (2 ^ 32 - 1) ∧ t.power.events.getLsbD 2 = true ∧ (t.dom dom).stretched = some clk ∧ t.power.injn = p.injn)) ∧
      (∀ t, 64 ≤ recent.length → d.stretched = some t → clk < t + 1024 → exec (.droopTrip dom) s = .next s)) ∧
    -- peers
    (let others := p.peers.filter (fun y => y.dev != dev)
     -- the age of a message is a free value: one that has come after its class bound is discarded
     let late := 1 ≤ cls ∧ cls ≤ 5 ∧ 1000 * lead + 1000 * 10 ^ cls ≤ 1000 * s.freeVal
     (dev < 64 → dev ≠ s.fab.devno → (s.peer dev).sess = true → (late → exec (.peerIntentMessage dev cls fall lead) s = .next { s with free := s.free + 1 }) ∧
      (¬late → Completes s (.peerIntentMessage dev cls fall lead) (fun t =>
       { t with power := p, free := s.free } = s ∧ t.power.peers = others ++ (if fall % 65536 ≠ 0 ∧ 1 ≤ cls ∧ cls ≤ 6 then
         [{ dev := dev, cls := cls, fall := fall % 65536, lead := lead, since := now }] else []) ∧ t.power.npeer = t.power.peers.length ∧
       t.power.falls = min 65535 (((t.power.peers.filter (fun y => decide (1 ≤ y.cls ∧ y.cls ≤ 3))).map (·.fall)).sum) ∧
       t.power.falll = min 65535 (((t.power.peers.filter (fun y => decide (4 ≤ y.cls ∧ y.cls ≤ 6))).map (·.fall)).sum) ∧ t.power.rate = p.rate))) ∧
     (64 ≤ dev ∨ dev = s.fab.devno ∨ (s.peer dev).sess = false → exec (.peerIntentMessage dev cls fall lead) s = .next s) ∧
     Completes s (.peerIntentLapse dev) (fun t => { t with power := p } = s ∧ t.power.npeer = t.power.peers.length ∧
       ∀ y, y ∈ t.power.peers ↔ y ∈ p.peers ∧ ¬(y.dev = dev ∧ 1 ≤ y.cls ∧ y.cls ≤ 5 ∧ y.since + 1000 * y.lead + 1000 * 10 ^ y.cls ≤ now))) ∧
    -- charge
    (now < p.chargeDue → exec (.chargeUpdate mj) s = .next s) ∧
    (p.chargeDue ≤ now → Completes s (.chargeUpdate mj) (fun t => t.power.chg = min mj 65535 ∧ t.power.chargeDue = p.chargeDue + 10000 ∧
      t.power.events = (if mj < 160 then p.events ||| 0x200 else p.events) ∧ t.rills = s.rills ∧ t.dram = s.dram)) ∧
    -- heat
    (now < p.thermDue → exec (.thermalSample reading sensor) s = .next s) ∧
    (let high := if 880 ≤ reading then 3 else if 816 ≤ reading then 2 else if 760 ≤ reading then 1 else 0
     let under := p.tstate = 2 ∧ reading ≤ 816 - 8 * (p.hyst : Int) ∨ p.tstate = 1 ∧ reading ≤ 760 - 8 * (p.hyst : Int)
     let want := if p.tstate < high ∨ under then high else p.tstate
     let may := (∀ t ∈ p.changes, t + 250000 ≤ now) ∧ (p.changes.filter (fun t => decide (now < t + 1000000))).length < 2
     p.thermDue ≤ now → p.tstate < 3 → Completes s (.thermalSample reading sensor) (fun t => t.power.tmax = reading ∧ t.power.sensor = sensor % 256 ∧
      t.power.thermDue = p.thermDue + 10000 ∧ (920 ≤ reading → t.power.thermTrip = true) ∧
      (t.power.tstate = if want = 3 ∨ (want ≠ p.tstate ∧ may) then want else p.tstate) ∧
      (want = 3 → s.save.active = false → s.save.saved = false → t.save.active = true ∧ t.save.thermal = true) ∧
      (memWf s.dram = true → ∀ a, a < 0xBFE4000000 ∨ 0xBFE4001000 ≤ a → memGet t.dram a = memGet s.dram a) ∧ (want ≠ 3 → MemKept s t ∧ t.save = s.save)))

/-- R239 to R243, R247: in each Weir period R moves towards Tmax by at most the ramp, and RATE shows it from the period's end; PDRAW stays within that of the period that ends and
20 W of its last value, at F or above where ballast runs and is not short, and in a step falls to the cap; the thermal bucket gains what
2,800 W leaves, and each domain bucket is filled by its share of the energy that R leaves to the cores. Demand above Tmax engages stages in
order, whose limits are those of Table 11-2; demand below F runs ballast in the domains whose draw has fallen. While the FED is reset each
domain goes on at its last rate.
The model's readings: the pre-ramp sums class 1 too (log entry 148), and the grid ramp holds between a step command and its φ (log entry 149). -/
def Obligations.WeirPeriodFollowsItsRule : Prop :=
  ∀ (s : State) (draw demand : Nat) (full : Bool),
    let p := s.power
    let tmax := 1000 * (if p.pinNow then p.pincap else p.capNow)
    let top := tmax + tmax / 50
    let off := fun (x : Nat) => (x - tmax) + (tmax - x)
    let short := s.ballastShort draw
    (s.save.saved = true ∨ s.boot.step ≤ 10 → exec (.weirPeriod draw demand full) s = .next s) ∧
    (s.save.saved = false → 10 < s.boot.step → (s.die 0).st ≠ .active → Completes s (.weirPeriod draw demand full) (fun t =>
      t.power = p ∧ MemKept s t ∧ ∀ n, n < 8 → t.dom n = if s.now (6 + n) < (s.dom n).fillDue then s.dom n
        else { s.dom n with dbal := min (s.dom n).dcap ((s.dom n).dbal + (s.dom n).fill), fillDue := (s.dom n).fillDue + 1000 })) ∧
    (s.save.saved = false → 10 < s.boot.step → (s.die 0).st = .active →
      (s.now 0 < p.weirDue → exec (.weirPeriod draw demand full) s = .next s) ∧
      (p.weirDue ≤ s.now 0 → p.pinDue = [] → p.stepDue = none → p.capDue = [] → p.grampDue = [] → p.tstate < 2 → p.booston = false →
        p.boosten = false → (∀ r ∈ s.rills, r.2.intent = none) → Completes s (.weirPeriod draw demand full) (fun t =>
          let q := t.power
          let up := if q.stepact then 1000 * p.slew else min (1000 * p.slew) p.grampNow
          let drawn := ((List.range 8).map (fun n => (s.dom n).m)).sum
          let weight := ((List.range 8).map (fun n => (s.dom n).m + (s.dom n).u + 1)).sum
          let energy := 125 * q.rate + 2 * drawn - 125 * q.pdraw
          MemKept s t ∧ (∀ k n l, t.vreg k n l = s.vreg k n l) ∧ q.weirDue = p.weirDue + 1000 ∧
          q.dupK = up ∧ q.ddnK = up ∧ q.floorK = max (1000 * p.floor) (q.pdraw - up) ∧
          q.rate = min (p.rate + up) (max (p.rate - up) tmax) ∧ q.rateShown = p.rate ∧
          ((p.stepact = false ∨ 50 * off q.pdraw > tmax) → q.stepact = p.stepact) ∧
          (p.stepact = true → 50 * off q.pdraw ≤ tmax → 4 ≤ p.inBand → q.stepact = false ∧ q.events.getLsbD 1 = true) ∧
          (short = true → q.pdraw = draw ∧ q.events.getLsbD 8 = true) ∧
          (short = false → s.save.active = false → q.pdraw ≤ p.pdraw + p.dupK + 20000 ∧ p.pdraw ≤ q.pdraw + p.ddnK + 20000 ∧
            (p.stepact = true → q.pdraw ≤ max top (p.pdraw - p.ddnK)) ∧
            (p.stepact = false → s.ballastKinds ≠ 0 → min (p.pdraw + p.dupK + 20000) p.floorK ≤ q.pdraw)) ∧
          q.tb = min (p.tbcap * 10 ^ 9) (p.tb + 2800000 - q.pdraw) ∧
          (∀ n, n < 8 → (t.dom n).dbal = min (s.dom n).dcap ((s.dom n).dbal + energy * ((s.dom n).m + (s.dom n).u + 1) / (2 * weight)) ∧
            (t.dom n).m = 0 ∧ (t.dom n).u = 0) ∧
          (p.stage = 0 → demand ≤ tmax → q.stage = 0) ∧ (p.stage = 0 → tmax < demand → 1 ≤ q.stage ∧ q.stage ≤ 7) ∧
          (∀ n, n < 8 → (t.dom n).fell = decide ((s.dom n).m < (s.dom n).lastM) ∧
            (demand < q.floorK → q.stage = 0 → (t.dom n).fell = true → 1 ≤ (t.dom n).ballast ∧ (full = true → (t.dom n).ballast = 3)) ∧
            (q.floorK ≤ demand ∨ q.stage ≠ 0 ∨ (t.dom n).fell = false → (t.dom n).ballast = 0)) ∧
          ∀ n, n < 8 → (q.stage < 3 → (t.dom n).clim = 0xFFFF) ∧ (3 < q.stage → (t.dom n).clim = 16) ∧
            (q.stage < 5 → (t.dom n).tlim = 0xFFFF) ∧ (5 < q.stage → (t.dom n).tlim = 96) ∧
            (q.stage < 6 → (t.dom n).vlim = 0xFFFF) ∧ (6 < q.stage → (t.dom n).vlim = 64) ∧
            (q.stage = 6 → 64 ≤ (t.dom n).vlim ∧ (t.dom n).vlim ≤ 0xFFFF))))

/-- R253 to R256, R467: a power failure records PFAIL, stops issue, drops every rill of a launch and clears the marker of an earlier save; one
during a save from SAVE lets it go on. Items are saved in their order, a group once its rills have drained, with their bits in the bitmap
of the region; then the marker with its CRC; then at the port, each with its directory record, where a Flush makes them durable and
sets the bits of the save set. Charge that runs short cuts off what is left after control state (a free value says where: the model's choice).
A save from SAVE ends in SAVED. RESUME brings back queues, launches, windows and saved groups; DISCARD drops the image. -/
def Obligations.SavesKeepTheirOrder : Prop :=
  ∀ (s : State) (it : SaveItem) (bit room : Nat), memWf s.dram = true →
    let v := s.save
    let base := 0xBFE4000000
    let keptBut := fun (t : State) (lo hi : Nat) => (∀ a, a < lo ∨ hi ≤ a → memGet t.dram a = memGet s.dram a) ∧
      (∀ a, memGet t.basin a = memGet s.basin a) ∧ (∀ a, memGet t.hostMem a = memGet s.hostMem a) ∧
      ∀ r a, memGet (t.room r).mem a = memGet (s.room r).mem a
    let ends := fun (t : State) => v.thermal = true → v.pfail = false → t.save.saved = true ∧ t.save.active = false ∧ t.power.tstate = 4 ∧
      t.power.events.getLsbD 7 = true
    let short := v.pfail = true ∧ s.power.chg < 160 ∧ 2 ≤ v.region.length ∧ s.freeVal % 2 = 1
    (s.boot.step = 0 ∨ v.saved = true → exec .powerFail s = .next s) ∧
    (s.boot.step ≠ 0 → v.saved = false → v.active = true → Completes s .powerFail (fun t => MemKept s t ∧ t.rills = s.rills ∧
      t.save = { v with pfail := true, noPort := v.noPort || decide ((s.die 0).st ≠ .active) } ∧ t.power.events.getLsbD 5 = true)) ∧
    (s.boot.step ≠ 0 → v.saved = false → v.active = false → Completes s .powerFail (fun t => keptBut t base (base + 4096) ∧ markerOk t.dram = false ∧
      t.save.active = true ∧ t.save.pfail = true ∧ t.save.thermal = false ∧ t.save.items.take 2 = [(.blackBox, 0), (.control, 1)] ∧
      t.save.sets = (List.range s.power.ssn).map (fun i => (.saveSet i, setBit i)) ∧ t.save.region = [] ∧ t.save.marker = false ∧
      t.power.events.getLsbD 5 = true ∧ t.power.stepact = false ∧ (∀ k, t.runs k = false) ∧
      ∀ k ∈ s.roomKeys room, room ∈ s.saveRooms → (s.rills.map (·.1)).Nodup → (s.rill k).agent = false → (t.rill k).dropped = true)) ∧
    (v.active = false → ∀ b, exec (.saveItemComplete b) s = .next s) ∧
    -- the region
    (v.active = true → v.marker = true → exec (.saveItemComplete false) s = .next s) ∧
    (v.active = true → v.marker = false → ¬short → v.items[v.region.length]? = some (it, bit) →
      ((∀ r, it ≠ .group r) → Completes s (.saveItemComplete false) (fun t => { t with save := v, dram := s.dram, free := s.free } = s ∧
        (∀ a, a ≠ base + 64 + bit / 8 → memGet t.dram a = memGet s.dram a) ∧ regionBit t.dram bit = true ∧
        t.save = { v with region := v.region ++ [it], box := if it = .blackBox then memRead t.dram (base + 0x1000) 0x20000 else v.box })) ∧
      (it = .group room → s.roomSaved room = false → (∃ k ∈ s.roomKeys room, s.saveDrained k = false) → exec (.saveItemComplete false) s = .next s) ∧
      (it = .group room → (s.group room).room = room → (s.group room).st = .saving → (s.group room).span = false →
        (∀ k ∈ s.roomKeys room, s.saveDrained k = true) → Completes s (.saveItemComplete false) (fun t => (t.group room).st = .saved ∧
          (t.group room).saved.length = (s.roomKeys room).length ∧ regionBit t.dram bit = true ∧ t.save.region = v.region ++ [it]))) ∧
    (v.active = true → v.marker = false → short ∨ v.items[v.region.length]? = none → Completes s (.saveItemComplete false) (fun t =>
      keptBut t base (base + 64) ∧ markerOk t.dram = true ∧ t.save.marker = true ∧ (s.portOpen = true → t.save = { v with marker := true }) ∧
      (s.portOpen = false → ends t))) ∧
    -- the port
    (v.active = true → v.marker = false ∨ s.portOpen = false → exec (.saveItemComplete true) s = .next s) ∧
    (v.active = true → v.marker = true → s.portOpen = true →
      (v.portItems[v.wrote.length]? = some (it, bit) → v.wrote.length ≤ v.flushed ∨ s.freeVal % 2 = 1 → Completes s (.saveItemComplete true) (fun t =>
        { t with save := v, free := s.free } = s ∧ ∃ y : PortItem, t.save = { v with wrote := v.wrote ++ [y] } ∧ y.item = it ∧
          (v.wrote = [] → y.first = 1) ∧ (∀ z, v.wrote.getLast? = some z → y.first = z.first + (z.len + 4095) / 4096) ∧
          (it = .blackBox → y.data = v.box ∧ y.len = v.box.length ∧ y.crc = crc32 v.box) ∧
          ∀ i, it = .saveSet i → y.base = (s.setEntry i).1 ∧ y.data = memRead s.dram (s.setEntry i).1 (s.setEntry i).2 ∧
            y.len = (s.setEntry i).2 ∧ y.crc = crc32 y.data)) ∧
      (v.flushed < v.wrote.length → v.portItems[v.wrote.length]? = none ∨ s.freeVal % 2 = 0 → Completes s (.saveItemComplete true) (fun t =>
        (∀ a, (∀ x ∈ v.sets, a ≠ base + 64 + x.2 / 8) → memGet t.dram a = memGet s.dram a) ∧ t.save.flushed = v.wrote.length ∧ t.save.wrote = v.wrote ∧
        (∀ x ∈ v.sets, (∃ y ∈ v.wrote, y.item = x.1) → regionBit t.dram x.2 = true) ∧ (v.wrote.length = v.portItems.length → ends t))) ∧
      (v.wrote.length ≤ v.flushed → v.portItems[v.wrote.length]? = none → exec (.saveItemComplete true) s = .next s)) ∧
    -- the image
    (s.power.src = 0 ∨ (s.die 0).st ≠ .active → exec .saveResume s = .next s ∧ exec .saveDiscard s = .next s) ∧
    (s.power.src ≠ 0 → (s.die 0).st = .active →
      Completes s .saveDiscard (fun t => keptBut t base (base + 64) ∧ markerOk t.dram = false ∧ t.power.src = 0 ∧ t.save = { seq := v.seq } ∧ t.launches = s.launches) ∧
      (let im := v.image
       v.found = 1 → v.lost s.dram = [] → (∀ l ∈ im.running, (im.launches.get {} l).st = .running ∧ (im.launches.get {} l).wrote = 0) →
        Completes s .saveResume (fun t => (∀ a, a < base ∨ base + 64 ≤ a → memGet t.dram a = memGet s.dram a) ∧
          (∀ r a, memGet (t.room r).mem a = memGet (im.rooms.get {} r).mem a) ∧ markerOk t.dram = false ∧ t.power.src = 0 ∧ t.save = { seq := v.seq } ∧
          t.running = im.running ∧ t.active = im.active ∧ t.windows = im.windows ∧ t.fab.seqs = im.seqs ∧ t.fab.wins = im.wins ∧ t.power.pcap = im.power.pcap ∧
          (∀ l, (t.launch l).lr = (im.launches.get {} l).lr ∧ (t.launch l).count = (im.launches.get {} l).count) ∧
          (∀ g x, im.groups.find g = some x → x.st ≠ .retired → (t.group g).st = .saved ∧ (t.group g).index = x.index) ∧
          ∀ q, (t.queue q).qhead = (im.queues.get {} q).qhead ∧ (t.queue q).qtail = (im.queues.get {} q).qtail ∧ (t.queue q).prio = (im.queues.get {} q).prio)))

/-! ## Coherence and the host -/

/-- R325 to R331, R333: a message that a relay delivers twice is taken once; a relay that is not ACTIVE delivers none. TOK adds its tokens, and
the poison of its data, to its receiver's; at a full slice it displaces another line, or goes home; a holder answers a
shared request with one token of the owner's and an exclusive one with all it has, unless a persistent request is active; the third
failure of a request makes it persistent; activations and deactivations of the tables are acknowledged, and a requester that was served
before its activation is done at once; an evicted line's tokens go home; an unacknowledged message goes again through the other relay, or
through the one that is ACTIVE. A request for a lent line waits at the home. -/
def Obligations.CoherenceMessagesMoveTokens : Prop :=
  ∀ (s : State) (i : Nat),
    let c := s.coh
    let all := [(CohKind.treqs, Instr.treqs i), (.treqx, .treqx i), (.tok, .tok i), (.preq, .preq i), (.pact, .pact i), (.pack, .pack i),
      (.pdone, .pdone i), (.pdeact, .pdeact i)]
    let rest := dropNth c.msgs i
    let only := fun (t : State) => { t with coh := c } = s
    (∀ e ∈ all, (∀ m, c.msgs[i]? = some m → m.kind ≠ e.1) → exec e.2 s = .next s) ∧
    (∀ m, c.msgs[i]? = some m →
      let key := 4 * m.ends.1 + m.ends.2
      let seen := c.numIn.get [] key
      let carried := ∀ q, m.relay = some q → (s.die q).st = .active
      let fresh := carried ∧ (m.relay = none ∨ m.num ∉ seen)
      let x := s.holder m.line m.dst
      let othersHold := fun (t : State) => (∀ h, h ≠ m.dst → t.holder m.line h = s.holder m.line h) ∧ ∀ l, l ≠ m.line → t.line l = s.line l
      let quietTable := s.persFor (holderBd m.line m.dst) m.line = none
      (¬carried → ∀ e ∈ all, exec e.2 s = .next s) ∧
      (carried → m.relay ≠ none → m.num ∈ seen → ∀ e ∈ all, e.1 = m.kind → exec e.2 s = .next { s with coh := { c with msgs := rest } }) ∧
      (let taken : Holder :=
        { cnt := x.cnt + m.cnt, own := x.own || m.own, val := x.val || m.data, dirty := x.dirty || m.dirty
          psn := if m.data = false then x.psn else if m.dst = 4 ∧ m.dirty = true then m.psn else x.psn ||| m.psn }
       let sl := sliceOf m.dst m.line
       let room := m.dst = 4 ∨ x.cnt ≠ 0 ∨ (s.sliceLines sl).length < s.sliceRoom sl
       let wanted := ∃ q ∈ c.trans, q.line = m.line ∧ q.holder = m.dst
       fresh → m.kind = .tok → m.dst < (s.line m.line).hs.length → quietTable →
        (room → Completes s (.tok i) (fun t => only t ∧ t.coh.msgs = rest ∧ othersHold t ∧ t.holder m.line m.dst = taken ∧
          (m.relay ≠ none → m.num ∈ t.coh.numIn.get [] key))) ∧
        (m.dst < 4 → ¬room → ¬wanted → m.cnt ≠ 0 → Completes s (.tok i) (fun t => only t ∧ othersHold t ∧ (t.holder m.line m.dst).cnt = 0 ∧
          ∃ y, t.coh.msgs = rest ++ [y] ∧ y.kind = .tok ∧ y.line = m.line ∧ y.dst = 4 ∧ y.cnt = m.cnt ∧ y.own = (x.own || m.own))) ∧
        (m.dst < 4 → ¬room → wanted → 0 < s.sliceRoom sl → (c.lines.map (·.1)).Nodup → Completes s (.tok i) (fun t => t.holder m.line m.dst = taken ∧
          ∃ l ∈ s.sliceLines sl, l ≠ m.line ∧ ((t.holder l m.dst).cnt = 0 ∨ ∃ q, s.persFor m.dst l = some q ∧ q.req = m.dst)))) ∧
      (m.kind = .treqs ∨ m.kind = .treqx → fresh → m.dst = 4 → (s.line m.line).lent ≠ 0 → ∀ e ∈ all, e.1 = m.kind → Completes s e.2 (fun t =>
        only t ∧ m.line ∈ t.coh.snoops ∧ t.coh.asked = c.asked ++ [m] ∧ t.coh.msgs = rest ∧ t.coh.lines = c.lines)) ∧
      (m.kind = .treqs ∨ m.kind = .treqx → fresh → (m.dst ≠ 4 ∨ (s.line m.line).lent = 0) → ¬quietTable → ∀ e ∈ all, e.1 = m.kind →
        Completes s e.2 (fun t => only t ∧ t.coh.msgs = rest ∧ t.coh.lines = c.lines)) ∧
      (fresh → (m.dst ≠ 4 ∨ (s.line m.line).lent = 0) → quietTable → m.dst < (s.line m.line).hs.length →
        let gives := fun (t : State) (n : Nat) (own data : Bool) => othersHold t ∧ (t.holder m.line m.dst).cnt = x.cnt - n ∧
          ((t.holder m.line m.dst).own = (x.own && !own)) ∧ ∃ y, t.coh.msgs = rest ++ [y] ∧ y.kind = .tok ∧ y.line = m.line ∧ y.src = m.dst ∧
            y.dst = m.req ∧ y.cnt = n ∧ y.own = own ∧ y.data = data ∧ y.dirty = (x.dirty && own) ∧ y.psn = (if data then x.psn else 0) ∧
            (y.relay = none ↔ holderBd m.line m.dst = holderBd m.line m.req)
        (m.kind = .treqx → x.cnt ≠ 0 → m.dst ≠ m.req → Completes s (.treqx i) (fun t => only t ∧ gives t x.cnt x.own x.own ∧
          (t.holder m.line m.dst).val = false)) ∧
        (m.kind = .treqx → x.cnt = 0 → Completes s (.treqx i) (fun t => only t ∧ t.coh.msgs = rest ∧ t.coh.lines = c.lines)) ∧
        (m.kind = .treqs → x.own = true → 2 ≤ x.cnt → Completes s (.treqs i) (fun t => only t ∧ gives t 1 false true)) ∧
        (m.kind = .treqs → x.own = true → x.cnt < 2 → Completes s (.treqs i) (fun t => only t ∧ gives t 1 true true)) ∧
        (m.kind = .treqs → x.own = false → Completes s (.treqs i) (fun t => only t ∧ t.coh.msgs = rest ∧ t.coh.lines = c.lines))) ∧
      -- persistent requests
      (let home := homeCtl m.line
       let queue := c.pers.get [] home
       let mine := fun (p : PersReq) => p.entry = some m.entry
       let packs := fun (t : State) (before : List CohMsg) (act : Bool) => ∃ y, t.coh.msgs = before ++ [y] ∧ y.kind = .pack ∧ y.line = m.line ∧
         y.src = m.dst ∧ y.entry = m.entry ∧ y.act = act
       (fresh → m.kind = .preq → Completes s (.preq i) (fun t => only t ∧ t.coh.lines = c.lines ∧
         (t.coh.pers.get [] home).map (fun p => (p.line, p.req, p.write)) = queue.map (fun p => (p.line, p.req, p.write)) ++ [(m.line, m.req, m.write)] ∧
         (queue = [] → (t.coh.pers.get [] home).map (·.entry) = [some (5 * home)] ∧
           (t.coh.msgs.drop rest.length).map (fun y => (y.kind, y.line, y.dst, y.req, y.write, y.entry)) =
             [0, 1, 2, 3].map (fun b => (CohKind.pact, m.line, b, m.req, m.write, 5 * home))))) ∧
       (let unserved := ∃ q ∈ c.trans, q.line = m.line ∧ q.holder = m.req ∧ q.pers = true ∧ q.served = false
        let entry : PersReq := { line := m.line, req := m.req, write := m.write, entry := some m.entry }
        fresh → m.kind = .pact → m.dst < 4 → m.entry < 60 → s.persFor m.dst m.line = none → homeBd m.line ≠ m.dst → m.dst < (s.line m.line).hs.length →
        (m.req = m.dst → ¬unserved → Completes s (.pact i) (fun t => only t ∧ othersHold t ∧ t.holder m.line m.dst = x ∧
          t.coh.ptab.get none (64 * m.dst + m.entry) = some { entry with closing := true } ∧
          ∃ y z, t.coh.msgs = rest ++ [y, z] ∧ y.kind = .pack ∧ z.kind = .pdone ∧ z.line = m.line ∧ z.dst = 4 ∧ z.entry = m.entry)) ∧
        (holderBd m.line m.req ≠ m.dst ∨ unserved → Completes s (.pact i) (fun t => only t ∧ t.coh.ptab.get none (64 * m.dst + m.entry) = some entry ∧ othersHold t ∧
           (t.holder m.line m.dst).cnt = (if m.req = m.dst then x.cnt else 0) ∧
           (m.req = m.dst ∨ x.cnt = 0 → packs t rest true) ∧
           (m.req ≠ m.dst → x.cnt ≠ 0 → ∃ y z, t.coh.msgs = rest ++ [y, z] ∧ y.kind = .pack ∧ z.kind = .tok ∧ z.dst = m.req ∧ z.cnt = x.cnt ∧ z.own = x.own)))) ∧
       (∀ p, fresh → m.kind = .pack → queue = [p] → p.entry = some m.entry →
         (p.acks + 1 < 8 → (p.acks ≠ 3 ∨ p.closing = false) → Completes s (.pack i) (fun t => only t ∧ t.coh.pers.get [] home = [{ p with acks := p.acks + 1 }] ∧
           t.coh.msgs = rest)) ∧
         (p.acks = 3 → p.closing = true → Completes s (.pack i) (fun t => only t ∧ t.coh.pers.get [] home = [{ p with acks := 4 }] ∧
           (t.coh.msgs.drop rest.length).map (fun y => (y.kind, y.line, y.dst, y.entry)) = [0, 1, 2, 3].map (fun b => (CohKind.pdeact, m.line, b, m.entry)))) ∧
         (p.acks = 7 → Completes s (.pack i) (fun t => only t ∧ t.coh.pers.get [] home = [] ∧ t.coh.msgs = rest))) ∧
       (fresh → m.kind = .pdone → Completes s (.pdone i) (fun t => only t ∧ t.coh.lines = c.lines ∧
         (∀ p ∈ t.coh.pers.get [] home, mine p → p.closing = true) ∧ ((∀ p ∈ queue, mine p → p.acks < 4) → t.coh.msgs = rest) ∧
         ((∃ p ∈ queue, mine p ∧ 4 ≤ p.acks) → (t.coh.msgs.drop rest.length).map (fun y => (y.kind, y.line, y.dst, y.entry)) =
           [0, 1, 2, 3].map (fun b => (CohKind.pdeact, m.line, b, m.entry))))) ∧
       (fresh → m.kind = .pdeact → Completes s (.pdeact i) (fun t => only t ∧ t.coh.lines = c.lines ∧
         t.coh.ptab.get none (64 * m.dst + m.entry) = none ∧ packs t rest false ∧
         ∀ p, c.ptab.get none (64 * m.dst + m.entry) = some p → holderBd p.line p.req = m.dst →
           ∀ r ∈ t.coh.trans, ¬(r.line = p.line ∧ r.holder = p.req ∧ r.pers = true))))) ∧
    -- what holders start themselves
    (∀ (line h : Nat) (r : TransReq), c.trans.find? (fun y => y.line == line && y.holder == h) = some r →
      let now := s.now (bdDie (holderBd line h))
      (now < r.since + 1000 → exec (.transientRequestTimeout line h) s = .next s) ∧
      (r.since + 1000 ≤ now → r.pers = true → (∀ q, s.persFor (holderBd line h) line = some q → q.req = h → s.satisfied r = true → q.closing = false →
        Completes s (.transientRequestTimeout line h) (fun t => only t ∧ t.coh.lines = c.lines ∧ ∃ y, t.coh.msgs = c.msgs ++ [y] ∧ y.kind = .pdone ∧
          y.line = line ∧ y.dst = 4 ∧ y.entry = q.entry.getD 0)) ∧
        (s.satisfied r = false ∨ s.persFor (holderBd line h) line = none → exec (.transientRequestTimeout line h) s = .next s)) ∧
      (r.since + 1000 ≤ now → r.pers = false → s.satisfied r = true → Completes s (.transientRequestTimeout line h) (fun t => only t ∧ t.coh.lines = c.lines ∧
        t.coh.msgs = c.msgs ∧ r ∉ t.coh.trans)) ∧
      (r.since + 1000 ≤ now → r.pers = false → s.satisfied r = false → r.fails < 2 → h < 5 → Completes s (.transientRequestTimeout line h) (fun t => only t ∧
        t.coh.lines = c.lines ∧ { r with fails := r.fails + 1, pers := false, since := now } ∈ t.coh.trans ∧
        (t.coh.msgs.drop c.msgs.length).map (fun y => (y.kind, y.line, y.dst, y.req)) =
          ([0, 1, 2, 3, 4].filter (· != h)).map (fun d => (if r.write then CohKind.treqx else .treqs, line, d, h)))) ∧
      (r.since + 1000 ≤ now → r.pers = false → s.satisfied r = false → r.fails = 2 → Completes s (.transientRequestTimeout line h) (fun t => only t ∧
        t.coh.lines = c.lines ∧ { r with fails := 3, pers := true, since := now } ∈ t.coh.trans ∧
        ∃ y, t.coh.msgs = c.msgs ++ [y] ∧ y.kind = .preq ∧ y.line = line ∧ y.req = h ∧ y.dst = 4 ∧ y.write = r.write))) ∧
    (∀ (line w : Nat), w < 4 → s.persFor w line = none → w < (s.line line).hs.length → (s.holder line w).cnt ≠ 0 →
      Completes s (.lineEvict line w) (fun t => only t ∧ (t.holder line w).cnt = 0 ∧ (∀ h, h ≠ w → t.holder line h = s.holder line h) ∧
        ∃ y, t.coh.msgs = c.msgs ++ [y] ∧ y.kind = .tok ∧ y.line = line ∧ y.dst = 4 ∧ y.cnt = (s.holder line w).cnt ∧
          y.own = (s.holder line w).own ∧ y.dirty = ((s.holder line w).dirty && (s.holder line w).own))) ∧
    (∀ (line w : Nat), 4 ≤ w → (s.line line).hs.length = 5 → (s.holder line 4).own = true → Completes s (.lineEvict line w) (fun t => only t ∧
      t.holder line 4 = { s.holder line 4 with dirty := false })) ∧
    (∀ m, c.resend[i]? = some m →
      let via := m.relay.map (fun q => if (s.die (1 - q)).st = .active ∨ (s.die q).st ≠ .active then 1 - q else q)
      ((∀ q, via = some q → (s.die q).st = .active) → Completes s (.coherenceRetransmit i) (fun t => only t ∧
        t.coh.msgs = c.msgs ++ [{ m with relay := via }] ∧ t.coh.lines = c.lines)) ∧
      (∀ q, via = some q → (s.die q).st ≠ .active → exec (.coherenceRetransmit i) s = .next s)) ∧
    (c.resend[i]? = none → exec (.coherenceRetransmit i) s = .next s)

/-- R4, R72, R97, R98, R107, R223, R226, R238, R260, R264, R265, R269, R332 to R335, R366, R421, R433: a host read and a host write act on
the line they have tokens for and are answered with its data, with poison while the port is closed: its link untrained, or its streams
without a key; a walk waits while the IOD's links carry nothing of it (log entry 13); a cached read lends the line, a line held shared
is lent with write permission at once, and its write-back brings the data home; a walk fills the TLBs with the leaf it finds; a slice's new size takes effect with what it adds zero; a register write changes the fields its table lets it change.
The model's choices: what nonzero reserved bits of a register do (log entries 107 and 109), reserved price entries (139) and SSADDR
(147); misses share a walk by the leaf that the tables give as they stand (162). -/
def Obligations.HostAccessesWalksAndRegisters : Prop :=
  ∀ (s : State) (addr kind slice : Nat) (data : List Byte) (bad shared : Bool) (psn : BitVec 2) (core ctx off : Nat) (v : DWord), memWf s.dram = true → memWf s.basin = true →
    let line := addr / 128
    let me := s.line line
    let up := (s.die 1).st = .active ∧ s.boot.rate ≠ 0 ∧ s.boot.width ≠ 0 ∧ s.boot.ide = true
    let home := homeBd line
    let same := fun (t : State) => ∀ a, memGet t.dram a = memGet s.dram a
    -- host reads and writes
    (let refused := Host.Outcome.next { s with reply := { addr := addr, psn := 3 } }
     ¬up → (addr < 0xC000000000 → (kind < 3 → exec (.hostMemRead addr kind) s = refused) ∧
       (addr % 128 + data.length ≤ 128 → exec (.hostMemWrite addr data bad) s = refused)) ∧
      exec (.hostWriteback line data shared psn) s = .next s ∧ exec (.birspi line) s = .next s) ∧
    (0xC000000000 ≤ addr ∨ 3 ≤ kind → exec (.hostMemRead addr kind) s = .next s) ∧
    (let told := fun (t : State) (h : Nat) => t.reply = { addr := 128 * line, data := memRead s.dram (128 * line) 128, psn := (s.holder line h).psn }
     up → addr < 0xC000000000 → me.hs.length = 5 →
      (s.canRead line home = true → Completes s (.hostMemRead addr 0) (fun t => same t ∧ told t home ∧ (line, 0) ∉ t.coh.hostReqs ∧ (t.line line).lent = 0)) ∧
      (s.canRead line home = false → Completes s (.hostMemRead addr 0) (fun t => same t ∧ t.reply = s.reply ∧ (line, 0) ∈ t.coh.hostReqs)) ∧
      ((kind = 1 ∨ kind = 2) → me.lent ≠ 0 → line ∉ s.coh.snoops → Completes s (.hostMemRead addr kind) (fun t => same t ∧ told t 4 ∧
        (t.line line).lent = max kind me.lent ∧ (line, kind) ∉ t.coh.hostReqs ∧ (t.line line).hs = me.hs)) ∧
      ((kind = 1 ∨ kind = 2) → me.lent ≠ 0 → line ∈ s.coh.snoops → Completes s (.hostMemRead addr kind) (fun t => same t ∧ t.reply = s.reply ∧
        t.line line = me ∧ (line, kind) ∈ t.coh.hostReqs)) ∧
      ((kind = 1 ∨ kind = 2) → s.canWrite line 4 = true → Completes s (.hostMemRead addr kind) (fun t => same t ∧ told t 4 ∧ (t.line line).lent = kind ∧
        (line, kind) ∉ t.coh.hostReqs ∧ (t.line line).hs = me.hs)) ∧
      ((kind = 1 ∨ kind = 2) → me.lent = 0 → s.canWrite line 4 = false → Completes s (.hostMemRead addr kind) (fun t => same t ∧ t.reply = s.reply ∧
        (t.line line).lent = 0 ∧ (line, kind) ∈ t.coh.hostReqs)) ∧
      (addr % 128 + data.length ≤ 128 → s.canWrite line home = true → Completes s (.hostMemWrite addr data bad) (fun t =>
        (∀ a, memGet t.dram a = patched (memGet s.dram) addr data a) ∧ (t.holder line home).dirty = true ∧
        (bad = true → data ≠ [] → (t.holder line home).psn &&& halfBits addr data.length = halfBits addr data.length) ∧
        (bad = false → data.length = 128 → (t.holder line home).psn = 0))) ∧
      (addr % 128 + data.length ≤ 128 → s.canWrite line home = false → Completes s (.hostMemWrite addr data bad) (fun t => same t))) ∧
    (let brought := fun (t : State) => (∀ a, memGet t.dram a = patched (memGet s.dram) (128 * line) data a) ∧ (t.holder line 4).psn = psn
     up → me.lent ≠ 0 → me.hs.length = 5 → data.length = 128 → (∀ b, s.persFor b line = none) →
      (line ∈ s.coh.snoops → Completes s (.hostWriteback line data shared psn) (fun t => brought t ∧ (t.line line).lent = 0 ∧ line ∉ t.coh.snoops ∧
        line ∈ t.coh.absorb ∧ ∀ m ∈ t.coh.asked, m.line ≠ line)) ∧
      (line ∉ s.coh.snoops → Completes s (.hostWriteback line data shared psn) (fun t => brought t ∧ (t.line line).lent = if shared then 1 else 0))) ∧
    (me.lent = 0 → exec (.hostWriteback line data shared psn) s = .next s) ∧
    (up → line ∈ s.coh.absorb → exec (.birspi line) s = .next { s with coh := { s.coh with absorb := s.coh.absorb.erase line } }) ∧
    (up → line ∉ s.coh.absorb → line ∈ s.coh.snoops → (∀ b, s.persFor b line = none) →
      (∀ m ∈ s.coh.asked, m.line ≠ line) → Completes s (.birspi line) (fun t => same t ∧
      line ∉ t.coh.snoops ∧ (t.line line).lent = 0 ∧ (t.line line).hs = me.hs)) ∧
    -- walks
    (∀ e u, core < 1000 → s.walk ctx v.toNat = (.ok e, u) → Completes s (.pageWalk core ctx v) (fun t => MemKept s t ∧ t.rills = s.rills ∧
      e ∈ (t.core core).tlb ∧ e ∈ t.towerTlb.get [] (coreTower core) ∧ (t.core core).tlb.length ≤ max 64 (s.core core).tlb.length)) ∧
    (∀ c u, s.walk ctx v.toNat = (.error c, u) → Completes s (.pageWalk core ctx v) (fun t => MemKept s t ∧ t.rills = s.rills ∧ t.cores = s.cores ∧
      t.towerTlb = s.towerTlb)) ∧
    (2 ^ 57 ≤ v.toNat → s.walk ctx v.toNat = (.error 3, s)) ∧
    (let carried := (s.die 1).st = .active ∨ (s.die 1).st = .draining
     v.toNat < 2 ^ 57 → (¬carried → s.walk ctx v.toNat = (.error waitCode, s)) ∧
      (carried → (s.roots.get (0, false) ctx).2 = false → s.walk ctx v.toNat = (.error 0, s))) ∧
    -- the size of basin store
    (let n := v.toNat % 8
     let old := s.bsizeOf slice
     let lo := slice * 2 ^ 21
     (slice < 64 → n < 5 → (n ≠ 0 ∨ slice ≠ 0) → s.bnext.get none slice = none → n ≠ old → Completes s (.bsizeWrite slice v) (fun t =>
       { t with bnext := s.bnext } = s ∧ t.bnext.get none slice = some n ∧ ∀ j, j ≠ slice → t.bnext.get none j = s.bnext.get none j)) ∧
     (64 ≤ slice ∨ 5 ≤ n ∨ (n = 0 ∧ slice = 0) ∨ s.bnext.get none slice ≠ none → exec (.bsizeWrite slice v) s = .next s) ∧
     ∀ m, s.bnext.get none slice = some m → Completes s (.bsizeChangeDone slice) (fun t => t.dram = s.dram ∧ t.hostMem = s.hostMem ∧ t.rooms = s.rooms ∧
       t.bsizeOf slice = m ∧ t.bnext.get none slice = none ∧
       ∀ a, memGet t.basin a = if lo + min m old * 0x80000 ≤ a ∧ a < lo + 2 ^ 21 then 0 else memGet s.basin a)) ∧
    -- registers
    (let w := v.toNat
     let queue := (off - 0x100000) / 0x40
     let x := s.queue queue
     let field := fun (l n : Nat) => w / 2 ^ l % 2 ^ n
     let t := s.traps
     (0x140000 ≤ off → off < 0x150000 → Completes s (.registerWrite off v) (fun t => { t with stage := s.stage } = s ∧
       t.stage.find ((off - 0x140000) / 4) = some (if (off - 0x140000) / 4 % 4096 = 0x8F0 then w % 2 ^ 16 else w % 2 ^ 24 + field 31 1 * 2 ^ 31))) ∧
     (off % 8 ≠ 0 → off < 0x140000 ∨ 0x150000 ≤ off → exec (.registerWrite off v) s = .next s) ∧
     (0x100000 ≤ off → off < 0x101000 → off % 0x40 = 8 → Completes s (.registerWrite off v) (fun t => MemKept s t ∧
       (t.queue queue).en = w.testBit 31 ∧ (t.queue queue).pempt = w.testBit 29 ∧ (t.queue queue).prio = field 16 2 ∧
       (t.queue queue).ctx = (if x.en then x.ctx else w % 2 ^ 12) ∧
       (t.queue queue).log2sz = (if x.en = false ∧ 4 ≤ field 24 4 ∧ field 24 4 ≤ 15 then field 24 4 else x.log2sz) ∧
       (t.queue queue).qhead = x.qhead ∧ (t.queue queue).qtail = x.qtail)) ∧
     (0x100000 ≤ off → off < 0x101000 → off % 0x40 = 0 → Completes s (.registerWrite off v) (fun t => MemKept s t ∧
       (t.queue queue).qbase = if x.en then x.qbase else w % 2 ^ 57 / 4096 * 4096)) ∧
     (0x150000 ≤ off → off < 0x160000 → off % 16 = 0 → Completes s (.registerWrite off v) (fun t => { t with roots := s.roots } = s ∧
       t.roots.get (0, false) ((off - 0x150000) / 16) = (w % 2 ^ 40 / 4096 * 4096, w.testBit 0))) ∧
     ((s.die 0).st = .active → Completes s (.registerWrite 0x120040 v) (fun u => { u with power := s.power } = s ∧
       u.power = { s.power with events := s.power.events &&& ~~~(BitVec.ofNat 10 w) })) ∧
     ((s.die 0).st ≠ .active → Completes s (.registerWrite 0x120040 v) (fun u => { u with power := s.power } = s ∧
       u.power = { s.power with late := s.power.late ++ [.registerWrite 0x120040 v] })) ∧
     Completes s (.registerWrite 0x180008 v) (fun u => u = { s with traps := { t with rtail := field 16 16 } }) ∧
     Completes s (.registerWrite 0x180000 v) (fun u => { u with traps := t } = s ∧
       (t.rhead ≠ t.rtail → u.traps = t) ∧ (t.rhead = t.rtail → u.traps = { t with rbase := w % 2 ^ 40 / 64 * 64, rlog2 := if 4 ≤ w % 16 ∧ w % 16 ≤ 12 then w % 16 else t.rlog2 })) ∧
     Completes s (.registerWrite 0x190000 v) (fun u => u = { s with box := { s.box with freeze := w.testBit 31 } }) ∧
     Completes s (.registerWrite 0x170008 v) (fun u => u = { s with fab := { s.fab with wgt := w % 2 ^ 32 } }))

/-! ## Fabric paths and the recorder -/

/-- R98, R106, R364 to R373, R376, R380, R393: paths die with their module, with failed CRCs and with failed training or loss of light
at the far end, and come back 10 ms after they were trained; a set with its own device has none. A flit that arrives in order is
acknowledged and goes into its packet, one that arrives early is held, one that came before is counted. A whole packet for another
device goes on as it is; of one for this device the tag, a free value, is checked, and a packet whose tag fails waits for its replay.
An acknowledgement empties the pool and a replay sends its flits again, under the present key; each change is recorded, and written to
the host while its port is open. That NAKs and acknowledgements are noted as the set's state, and that what a packet asks for comes as
an event of its own, is the model's choice (log entry 135); that kind 4 changes nothing is log entry 136.
That shedding looks at the live paths alone is log entry 150; that a record waits for the port is log entry 164. -/
def Obligations.PathsAndFlitsFollowTheirRules : Prop :=
  ∀ (s : State) (k peer path ssn arg : Nat) (v : DWord) (bs : List Byte), memWf s.hostMem = true → s.fab.ferlog2 ≤ 12 →
    let f := s.fab
    let p := s.peer peer
    let now := s.now 1
    let only := fun (t : State) => { t with fab := f } = s
    let most := fun (t : State) => { t with fab := f, hostMem := s.hostMem, box := s.box } = s
    let noted := fun (kind peer path elm count live : Nat) => 
      BoxEvent.mk 0x05 1 0 0 0 kind (count * 2 ^ 32 + elm * 2 ^ 20 + path * 2 ^ 16 + peer * 2 ^ 8 + kind) live
    let logged := fun (t : State) (e : BoxEvent) => t.box.queue.getLast? = some e ∧ ∃ n, n < 2 ^ 16 ∧ t.fab.ferhead = (n + 1) % 2 ^ 16 ∧
      let at_ := f.ferbase + 32 * (n % 2 ^ f.ferlog2)
      let bytes := toBytes 8 now ++ toBytes 8 e.arg0 ++ toBytes 8 e.arg1 ++ toBytes 8 0
      (s.hostOpen = true → t.fab.ferwait = [] ∧ ∀ i, i < 32 → memGet t.hostMem (at_ + i) = bytes.getD i 0) ∧
      (s.hostOpen = false → t.hostMem = s.hostMem ∧ t.fab.ferwait.getLast? = some (at_, bytes))
    let lives := fun (t : State) (dead : Nat → Bool) => ∀ q i, i < 16 → bitOf i (t.peer q).live = (bitOf i (s.peer q).live && !dead i)
    let retrained := fun (t : State) (m dark : Nat → Bool) => ∀ q x, f.peers.find q = some x → ∀ i, i < 16 →
      (t.peer q).trained.find i = if m (i % 8 / 2) then some now else if dark (i % 8 / 2) then none else x.trained.find i
    let shed := fun (x : Peer) => x.shed1 = decide (popcount x.live < 4) ∧ x.shed4 = decide (popcount x.live < 3)
    let others := fun (t : State) => ∀ q, q ≠ peer → t.peer q = s.peer q
    -- of the other sets, only what is decided afresh may change
    let others' := fun (t : State) => ∀ q, q ≠ peer →
      { t.peer q with relay := (s.peer q).relay, relayed := (s.peer q).relayed } = s.peer q
    -- nothing waits at the source, which a route or room that has come would let go, and nothing would be sent again by relay
    let idle := (∀ r ∈ f.reqs, r.sent = true) ∧ f.packets = [] ∧ f.outs = []
    let set := peer < 64 ∧ (peer + 64 - f.devno % 64) % 64 ≠ 0
    let quiet := idle ∧ ∀ q, (s.peer q).pool = []
    let toReplay := fun (i : Nat) => if bitOf i p.live then (p.pool.filter (fun x => x.path == i)).length else 0
    let restarted := if bitOf path p.live = false ∧ p.trained.find path ≠ none then p.trained.set path now else p.trained
    -- the modules
    (4 ≤ k → exec (.elmLossOfLight k) s = .next s ∧ exec (.elmLightReturn k) s = .next s) ∧
    (k < 4 → Completes s (.elmLossOfLight k) (fun t => most t ∧ t.fab.elmlos = f.elmlos ||| 2 ^ k ∧ lives t (fun i => i % 8 / 2 == k) ∧
      logged t (noted 0x01 0 0 k (f.peers.filter (fun q => (List.range 16).any (fun i => i % 8 / 2 == k && bitOf i q.2.live))).length 0))) ∧
    (k < 4 → bitOf k f.elmlos = false → exec (.elmLightReturn k) s = .next s) ∧
    (k < 4 → bitOf k f.elmlos = true → Completes s (.elmLightReturn k) (fun t => most t ∧ t.fab.elmlos = f.elmlos - 2 ^ k ∧ lives t (fun _ => false) ∧
      retrained t (fun m => m == k && bitOf k f.elmen) (fun _ => false) ∧ logged t (noted 0x02 0 0 k 0 0))) ∧
    (let n := v.toNat / 2 ^ 20 % 16
     Completes s (.elmenWrite v) (fun t => most t ∧ t.fab.en = v.getLsbD 31 ∧ t.fab.elmen = n ∧ t.fab.elmlos = f.elmlos ∧
      t.fab.devno = (if f.en then f.devno else v.toNat % 64) ∧
      lives t (fun i => bitOf (i % 8 / 2) f.elmen && !bitOf (i % 8 / 2) n) ∧
      retrained t (fun m => !bitOf m f.elmen && bitOf m n && !bitOf m f.elmlos) (fun m => bitOf m f.elmen && !bitOf m n))) ∧
    -- paths
    (let mayRejoin := fun (a : Nat) => set ∧ path < 16 ∧ f.en = true ∧ bitOf (path % 8 / 2) f.elmen = true ∧ bitOf (path % 8 / 2) f.elmlos = false ∧
       bitOf path p.live = false ∧ a + 10000000 ≤ now
     ((∀ a, p.trained.find path = some a → ¬mayRejoin a) → exec (.pathRejoin peer path) s = .next s) ∧
     ∀ a, p.trained.find path = some a → mayRejoin a → Completes s (.pathRejoin peer path) (fun t => most t ∧ (quiet → others' t) ∧
       (t.peer peer).live = p.live + 2 ^ path ∧ shed (t.peer peer) ∧
       p.pool.map (fun x => (x.ssn, x.vc)) <+: (t.peer peer).pool.map (fun x => (x.ssn, x.vc)) ∧
       (∀ x ∈ (t.peer peer).pool, x.replay = false) ∧
       ∃ rest, t.box.queue = s.box.queue ++ noted 0x04 peer path 0 0 (p.live + 2 ^ path) :: rest)) ∧
    -- control flits
    (f.en = false ∨ ¬set → ∀ n, exec (.pathControlFlit peer n arg) s = .next s) ∧ (∀ n, 4 ≤ n → exec (.pathControlFlit peer n arg) s = .next s) ∧
    (f.en = true → set →
      Completes s (.pathControlFlit peer 0 arg) (fun t => only t ∧ others t ∧ t.peer peer = { p with trained := p.trained.set (arg % 16) now }) ∧
      (bitOf (arg % 16) p.live = true → Completes s (.pathControlFlit peer 1 arg) (fun t => most t ∧ (quiet → others' t) ∧
        (∀ i, i < 16 → bitOf i (t.peer peer).live = (bitOf i p.live && i != arg % 16)) ∧ (t.peer peer).trained.find (arg % 16) = none ∧ shed (t.peer peer) ∧
        logged t (noted 0x03 peer (arg % 16) 0 (toReplay (arg % 16)) (t.peer peer).live))) ∧
      (bitOf (arg % 16) p.live = false → Completes s (.pathControlFlit peer 1 arg) (fun t => only t ∧ others t ∧
        { t.peer peer with trained := p.trained } = p ∧ (t.peer peer).trained.find (arg % 16) = none)) ∧
      Completes s (.pathControlFlit peer 2 arg) (fun t => most t ∧
        t.fab.announced = f.announced.set (64 * peer + arg % 64) (arg / 2 ^ 6 % 32, bitOf 11 arg, bitOf 12 arg) ∧
        ∀ q, (t.peer q).live = (s.peer q).live ∧ (quiet → (t.peer q).pool = (s.peer q).pool)) ∧
      Completes s (.pathControlFlit peer 3 arg) (fun t => only t ∧ others t ∧ t.peer peer = { p with hold := some now } ∧
        t.fab.reqs = f.reqs.map (fun r => if r.peer = peer then
          { r with since := r.since.map (· + (match p.hold with | some h => min 50000 (now - h) | none => 50000)) } else r))) ∧
    -- flits
    (let w := ofBytes (bs.take 4)
     let intact := bs.length = 72 ∧ ofBytes (bs.drop 68) = crc32 (bs.take 68)
     let n := w % 2 ^ 16
     let vc := w / 2 ^ 27 % 8
     let sop := bitOf 25 w
     let eop := bitOf 24 w
     let takes := w / 2 ^ 30 = 0 ∧ vc < 5 ∧ (vc = 3 ∨ p.sess = true)
     let redo := fun (b : BadPacket) => n ∈ b.ssns ∧ b.got.find n = none
     let seen := (0 < (p.want + 65536 - n) % 65536 ∧ (p.want + 65536 - n) % 65536 < 32768) ∨ p.stash.find n ≠ none
     let fails := now :: (p.crcFails.get [] path).filter (fun a => decide (now < a + 1000000))
     (f.en = false ∨ 16 ≤ path → exec (.dataFlit peer path bs) s = .next s) ∧
     (f.en = true → path < 16 →
      (¬intact → fails.length < 8 → Completes s (.dataFlit peer path bs) (fun t => only t ∧ others t ∧
        t.peer peer = { p with crcFails := p.crcFails.set path fails, trained := restarted, nak := some n })) ∧
      (¬intact → 8 ≤ fails.length → bitOf path p.live = true → Completes s (.dataFlit peer path bs) (fun t => most t ∧ (quiet → others' t) ∧
        (∀ i, i < 16 → bitOf i (t.peer peer).live = (bitOf i p.live && i != path)) ∧ (t.peer peer).inbox = p.inbox ∧ (t.peer peer).want = p.want ∧
        logged t (noted 0x03 peer path 0 (toReplay path) (t.peer peer).live))) ∧
      (¬intact → 8 ≤ fails.length → bitOf path p.live = false → Completes s (.dataFlit peer path bs) (fun t => only t ∧ others t ∧
        { t.peer peer with trained := p.trained } = { p with crcFails := p.crcFails.set path fails, nak := some n } ∧ (t.peer peer).trained.find path = none)) ∧
      (intact → ¬takes → exec (.dataFlit peer path bs) s = .next s) ∧
      (intact → takes → (∀ b ∈ p.bad, ¬redo b) → seen → Completes s (.dataFlit peer path bs) (fun t => only t ∧ others t ∧
        t.peer peer = { p with ack := p.want } ∧ t.fab.dups = min (f.dups + 1) (2 ^ 64 - 1))) ∧
      (intact → takes → (∀ b ∈ p.bad, ¬redo b) → ¬seen → p.stash.find p.want = none → n ≠ p.want → Completes s (.dataFlit peer path bs) (fun t =>
        only t ∧ others t ∧ t.peer peer = { p with stash := p.stash.set n bs, ack := p.want })) ∧
      (intact → takes → (∀ b ∈ p.bad, ¬redo b) → ¬seen → n = p.want → p.stash.find ((n + 1) % 65536) = none →
        let begun := p.inbox.filter (fun x => flitVc x == vc)
        let rest := p.inbox.filter (fun x => flitVc x != vc)
        let cur := if sop then [bs] else if begun.isEmpty then [] else begun ++ [bs]
        let whole := eop = true ∧ cur ≠ [] ∧ cur.length ≤ 16
        let dst := flitDst (cur.headD [])
        let took := fun (t : State) (q : Peer) => others t ∧ { t.peer peer with stash := p.stash } = { q with want := (n + 1) % 65536, ack := (n + 1) % 65536 } ∧
          ∀ m, (t.peer peer).stash.find m = if m = n then none else p.stash.find m
        (¬whole → Completes s (.dataFlit peer path bs) (fun t => only t ∧
          took t { p with inbox := if eop = true ∨ 16 < cur.length then rest else rest ++ cur })) ∧
        (whole → dst = f.devno → Config.packetTag peer cur = true → Completes s (.dataFlit peer path bs) (fun t => only t ∧ took t { p with inbox := rest })) ∧
        (whole → dst = f.devno → Config.packetTag peer cur = false → Completes s (.dataFlit peer path bs) (fun t =>
          { t with fab := f, agenda := s.agenda } = s ∧ t.agenda = s.agenda ++ [.linkTagFail (35 + 2 * peer) false] ∧
          took t { p with inbox := rest, bad := p.bad ++ [{ ssns := cur.map flitSsn }], nak := cur.head?.map flitSsn })) ∧
        (whole → dst ≠ f.devno → dst ≠ peer → cur = [bs] → idle →
          ((s.peer dst).carries vc = true → s.poolRoom dst vc 1 0 true = true → Completes s (.dataFlit peer path bs) (fun t => only t ∧
            (t.peer peer).want = (n + 1) % 65536 ∧ (t.peer peer).inbox = rest ∧ (t.peer dst).nextSsn = ((s.peer dst).nextSsn + 1) % 65536 ∧ t.fab.outs = [] ∧
            ∃ x, (t.peer dst).pool = (s.peer dst).pool ++ [x] ∧ x.ssn = (s.peer dst).nextSsn ∧ x.vc = vc ∧ x.sent = now ∧ x.fwd = true ∧
              (x.bytes.drop 4).take 64 = (bs.drop 4).take 64 ∧
              ((∃ i, i < 16 ∧ bitOf i (s.peer dst).live = true) → s.power.pathsIdle = false → bitOf x.path (s.peer dst).live = true))) ∧
          ((s.peer dst).carries vc = false → Completes s (.dataFlit peer path bs) (fun t => only t ∧ others t ∧ (t.peer peer).pool = p.pool ∧
            ∃ o : Outgoing, t.fab.outs = [o] ∧ o.dst = dst ∧ o.vc = vc ∧ o.flits = [bs])))) ∧
      -- the replay of a packet that failed its tag
      (∀ b, intact → takes → p.bad = [b] → redo b →
        ((∃ m ∈ b.ssns, m ≠ n ∧ b.got.find m = none) → Completes s (.dataFlit peer path bs) (fun t => only t ∧ others t ∧
          t.peer peer = { p with bad := [{ b with got := b.got.set n bs }], ack := p.want })) ∧
        (b.ssns = [n] → flitDst bs = f.devno → Completes s (.dataFlit peer path bs) (fun t => others t ∧ t.peer peer = { p with bad := [], ack := p.want } ∧
          { t with fab := f, agenda := s.agenda } = s ∧
          t.agenda = if Config.packetTag peer [bs] then s.agenda else s.agenda ++ [.linkTagFail (35 + 2 * peer) true]))))) ∧
    (let again := fun (t : State) (which : PoolFlit → Bool) => only t ∧ others t ∧ (t.peer peer).pool.length = p.pool.length ∧
       t.fab.replays = min (f.replays + if p.live = 0 then 0 else (p.pool.filter which).length) (2 ^ 64 - 1) ∧
       ∀ (j : Nat) (x : PoolFlit), p.pool[j]? = some x → (which x = false → (t.peer peer).pool[j]? = some x) ∧
         (which x = true → p.live = 0 → (t.peer peer).pool[j]? = some { x with replay := true }) ∧
         (which x = true → p.live ≠ 0 → ∃ a y, (t.peer peer).pool[j]? = some { x with path := a, sent := now, replay := false, bytes := y } ∧
           (x.fwd = true → y = x.bytes) ∧ (x.fwd = false → x.ssn < 2 ^ 16 → y.length = 72 ∧ flitSsn y = x.ssn ∧ flitOk y = true))
     let acked := fun (x : PoolFlit) => 0 < (ssn + 65536 - x.ssn) % 65536 ∧ (ssn + 65536 - x.ssn) % 65536 < 32768
     Completes s (.ackFlit peer ssn false) (fun t => only t ∧ (∀ x ∈ p.pool, ¬acked x → x ∈ (t.peer peer).pool) ∧
       (idle → others t ∧ t.peer peer = { p with pool := (t.peer peer).pool } ∧ (t.peer peer).pool.Sublist p.pool ∧
         ∀ x, x ∈ (t.peer peer).pool ↔ x ∈ p.pool ∧ ¬acked x)) ∧
     Completes s (.ackFlit peer ssn true) (fun t => again t (fun x => x.ssn == ssn)) ∧
     Completes s (.replayTimeout peer ssn) (fun t => again t (fun x => x.ssn == ssn && decide (x.sent + 20000 ≤ now)))) ∧
    -- messages at fixed intervals
    (f.en = true → f.annDue = true ∨ f.lastAnn + 100000 ≤ now → exec .setAnnouncement s = .next { s with fab := { f with lastAnn := now, annDue := false } }) ∧
    (f.en = false ∨ (f.annDue = false ∧ now < f.lastAnn + 100000) → exec .setAnnouncement s = .next s) ∧
    (let due := (∃ d, d < 14 ∧ (s.die d).halted = true) ∧ p.sess = true ∧ (∃ x ∈ f.wins, x.1 % 128 / 2 = peer ∧ x.2.held ≠ []) ∧ p.lastHold + 10000 ≤ now
     (due → Completes s (.holdMessage peer) (fun t => only t ∧ others t ∧ t.peer peer = { p with lastHold := now })) ∧
     (¬due → exec (.holdMessage peer) s = .next s))

/-- R449 to R451, R467: the recorder, once it has found its place, writes the event it received first as the 32-byte entry of Table 19-2,
with its CRC, at its number's place in the ring, or counts it while it is frozen; clearing zeroes the ring and the numbers; a read over
MCTP gives one entry. It reads and writes the ring at the homes of its lines, and waits while those lack tokens: the model's choice (log
entry 132). -/
def Obligations.TheRecorderWritesItsRing : Prop :=
  ∀ (s : State) (e : BoxEvent) (rest : List BoxEvent) (idx : Nat), memWf s.dram = true →
    let b := s.box
    let ring := 0xBFE4001000
    let place := ring + 32 * (b.nseq % 4096)
    let asked := ring + 32 * (idx % 4096)
    -- of memory, only device memory changes, as `f` says
    let wrote := fun (t : State) (f : Nat → Byte) => (∀ a, memGet t.dram a = f a) ∧ t.basin = s.basin ∧ t.hostMem = s.hostMem ∧ t.rills = s.rills ∧
      t.rooms = s.rooms
    let waits := fun (i : Instr) (y : BlackBox) => Completes s i (fun t => wrote t (memGet s.dram) ∧ t.box = y)
    let zeroed := fun (i : Instr) => Completes s i (fun t => t.box = { b with nseq := 0, clearing := false, ready := true } ∧
      wrote t (fun a => if ring ≤ a ∧ a < ring + 0x20000 then 0 else memGet s.dram a))
    let told := fun (i : Instr) => Completes s i (fun t => { t with box := b } = s ∧ t.box = { b with asked := none, mctp := t.box.mctp } ∧
      t.box.mctp.length = 32 ∧ ∀ j, j < 32 → t.box.mctp[j]? = some (memGet s.dram (asked + j)))
    let clears := fun (i : Instr) => (s.homeOpen ring 0x20000 true = true → zeroed i) ∧
      (s.homeOpen ring 0x20000 true = false → waits i { b with clearing := true })
    let answers := fun (i : Instr) => (s.homeOpen asked 32 false = true → told i) ∧ (s.homeOpen asked 32 false = false → waits i { b with asked := some idx })
    clears .blackboxClear ∧ answers (.blackboxMctpRead idx) ∧
    ((s.die 0).st ≠ .active ∨ (b.clearing = false ∧ b.asked = none ∧ (b.queue = [] ∨ b.ready = false)) → exec .blackboxRecord s = .next s) ∧
    ((s.die 0).st = .active → b.clearing = true → clears .blackboxRecord) ∧
    ((s.die 0).st = .active → b.clearing = false → b.asked = some idx → answers .blackboxRecord) ∧
    ((s.die 0).st = .active → b.clearing = false → b.asked = none → b.ready = true → b.queue = e :: rest →
      (b.freeze = true → exec .blackboxRecord s = .next { s with box := { b with queue := rest, drops := min (b.drops + 1) (2 ^ 16 - 1) } }) ∧
      (b.freeze = false → s.homeOpen place 32 true = false → waits .blackboxRecord b) ∧
      (b.freeze = false → s.homeOpen place 32 true = true → Completes s .blackboxRecord (fun t => t.box = { b with queue := rest, nseq := (b.nseq + 1) % 2 ^ 32 } ∧
        ∃ bs : List Byte, bs.length = 32 ∧ wrote t (patched (memGet s.dram) place bs) ∧
          ofBytes (bs.take 8) = s.now 0 % 2 ^ 64 ∧ ofBytes ((bs.drop 16).take 8) = e.arg0 % 2 ^ 64 ∧ ofBytes (bs.drop 28) = e.arg1 % 2 ^ 32 ∧
          ofBytes ((bs.drop 24).take 4) = crc32 (bs.take 24 ++ bs.drop 28) ∧
          (e.code < 256 → e.slot < 16 → e.part < 8 → e.core < 32 → e.die < 16 → e.kind < 256 →
            let w := ofBytes ((bs.drop 8).take 8)
            w % 2 ^ 8 = e.code ∧ w / 2 ^ 8 % 2 ^ 4 = e.slot ∧ w / 2 ^ 12 % 2 ^ 3 = e.part ∧ w / 2 ^ 15 % 2 ^ 5 = e.core ∧ w / 2 ^ 20 % 2 ^ 4 = e.die ∧
              w / 2 ^ 24 % 2 ^ 8 = e.kind ∧ w / 2 ^ 32 = b.nseq % 2 ^ 32))))

/-! ## The step, the machine after reset, and what every step keeps -/

/-- R151, R153, R138, R145, R221, R263, R264, R267, R281: an event that is due runs first. Then a rill that was granted its issue runs the
instruction that it was granted, with the cohort of that grant; a rill for which none is kept (a command processor, a placed word) runs that
of the four bytes at the PC its picker chooses now. The instruction runs where the word decodes and passes the checks, after the issue has
been noted in the counts of its threads and in the reuse latch; a word that decodes to nothing, or that is not well formed, takes the trap of
check 1. A word comes from the core's instruction cache, or from its tower's slice, which fills it. The model's choices: what a firmware
agent runs (log entry 9); an issue that an address, a block or the order of memory still keeps from taking effect is held, and a command
processor comes again (log entries 115 and 165). -/
def Obligations.StepRunsTheDecodedInstruction : Prop :=
  ∀ s : State,
    (∀ e rest, s.agenda = e :: rest → step s = exec e { s with agenda := rest }) ∧
    (s.agenda = [] → s.grants = [] → step s = s.streamStep) ∧
    ∀ k rest, s.agenda = [] → s.grants = k :: rest →
      let a := { s with grants := rest }
      let r := a.rill k
      let clear := fun (t : State) => { t with dear := s.dear.filter (· != k), granted := Tbl.del s.granted k }
      (∀ g, s.granted.find k = some g → a.chosen k = if a.runs k then some (g, a) else none) ∧
      (s.granted.find k = none → a.pick k = none → a.chosen k = none) ∧
      (∀ pc cohort ready, s.granted.find k = none → a.pick k = some (pc, cohort, ready) →
        let g : Grant := { pc := pc, lanes := cohort, ready := ready }
        (∀ l, l ∈ cohort ↔ l ∈ ready ∧ (r.thread l).pc = pc) ∧
        (∀ w t, a.fetchWord k pc = (.ok w, t) → a.chosen k = some ({ g with word := w }, t)) ∧
        (∀ c t, a.fetchWord k pc = (.error c, t) → a.chosen k = some ({ g with fail := some c }, t)) ∧
        (r.agent = true → a.fetchWord k pc = (.ok ((s.fw.find (pc.toNat / 4)).getD (a.firmwareWord k)), a)) ∧
        (∀ c t, r.agent = false → a.translate (viaOf k) r.ctx pc.toNat .fetch false = (.error c, t) → a.fetchWord k pc = (.error c, t)) ∧
        ∀ p t, r.agent = false → a.translate (viaOf k) r.ctx pc.toNat .fetch false = (.ok p, t) →
          let line := p.pa / 128
          let slice := sliceTower k line
          let cached := if isCp k then none else (t.core (keyCore k)).icache.find line
          (∀ x, cached = some x → a.fetchWord k pc =
            (if x.psn &&& halfBits p.pa 4 ≠ 0 then .error poisonCode else .ok (BitVec.ofNat 32 (ofBytes ((x.bytes.drop (p.pa % 128)).take 4))), t)) ∧
          (cached = none → isCp k = false → t.reaches (keyCore k) = false → a.fetchWord k pc = (.error waitCode, t)) ∧
          (cached = none → isCp k = true ∨ t.reaches (keyCore k) = true →
            (t.canRead line slice = true → a.fetchWord k pc =
              (if t.poisoned slice 0 p.pa 4 then .error poisonCode else .ok (BitVec.ofNat 32 (memNat t.dram p.pa 4)),
               (if isCp k then t else t.icacheFill (keyCore k) line).lineDone line slice false)) ∧
            (t.canRead line slice = false → a.fetchWord k pc = (.error waitCode, t.wantLine line slice false)))) ∧
      (a.chosen k = none → step s = .next (clear a)) ∧
      ∀ g t, a.chosen k = some (g, t) →
        let now := { clear t with cur := { rill := k, pc := g.pc, lanes := g.lanes, word := g.word } }
        let noted := now.noteIssue k g.lanes g.ready
        (∀ c, r.pend = some c → step s = .next (noted.takePend k c)) ∧
        (r.pend = none → ∀ c, g.fail = some c →
          step s = .next (if c = waitCode then clear t else if c = poisonCode then noted.trap 0x12 else noted.trapWith 0x11 c g.pc 0 g.pc)) ∧
        (r.pend = none → g.fail = none →
          (decode g.word.toNat = none → step s = .next (noted.trap 0x01)) ∧
          ∀ i, decode g.word.toNat = some i →
            (i.wf r.agent = false → step s = .next (noted.trap 0x01)) ∧
            (i.wf r.agent = true →
              (isCp k = true → inPrologue i = true → r.inBounds i = true → k ∉ s.dear →
                (∀ v, now.memWait i = some v → step s = .next v) ∧ (now.memWait i = none → step s = exec i noted)) ∧
              (isCp k = true → inPrologue i = false ∨ r.inBounds i = false → step s = .next (noted.trap 0x01)) ∧
              (isCp k = false →
                (isPrivileged i = true → r.agent = false → step s = .next (noted.trap 0x02)) ∧
                (isPrivileged i = false ∨ r.agent = true →
                  (∀ b, roleBit i = some b → r.role.getLsbD b = false → step s = .next (noted.trap 0x03)) ∧
                  ((∀ b, roleBit i = some b → r.role.getLsbD b = true) →
                    (r.inBounds i = false → step s = .next (noted.trap 0x04)) ∧
                    (r.inBounds i = true →
                      (k ∈ s.dear → step s = .next (noted.trap 0x0C)) ∧
                      (k ∉ s.dear →
                        let u := noted.noteReuse k i g.word
                        (∀ v, u.notYet u.curRill.seq none i = some v → step s = .next (v.hold i)) ∧
                        (u.notYet u.curRill.seq none i = none →
                          (∀ v, exec i u = .next v → step s = .next (u.noteUndo i v)) ∧
                          (∀ f, exec i u = .fault f → step s = .fault f) ∧ ∀ f, exec i u = .refused f → step s = .refused f))))))))

/-- R128, R142, R143 and the encodings of 06 to 18: words written out from the spec's encoding of their instruction decode to it. -/
def Obligations.SpecWordsDecode : Prop :=
  decode 0x6E244640 = some (.ffma 9 8 100 0 0 0) ∧ decode 0xFC000120 = some (.mfs 0 0x012 0) ∧ decode 0x64080002 = some (.li 2 2) ∧
  decode 0x20142840 = some (.kadd 5 5 4 0) ∧ decode 0x069FFFFE = some (.kbra 0 4 0x1FFFFE) ∧ decode 0x1A23FC3C = some (.waitc 1 15 15 0 15) ∧
  decode 0x7E181030 = some (.fadd2Bf16 6 2 3 0 0 0) ∧ decode 0x980C15C0 = some (.cvt 3 2 11 8 0) ∧ decode 0x00000000 = none ∧
  decode 0xC4104224 = some (.ld32 4 8 2 2 1 0) ∧ decode 0xD6181110 = some (.ldl 6 2 1 1 0) ∧ decode 0xDA10437C = some (.atom64 4 8 3 7 3 0) ∧
  decode 0xE00C2065 = some (.acopy 0 3 4 6 0 1 1) ∧ decode 0xE6000088 = some (.fence 0 0x88) ∧ decode 0xEAFC4020 = some (.tsta 3 15 8 0 0 0) ∧
  decode 0xF0101601 = some (.arrive 4 2 96) ∧ decode 0xF6001022 = some (.wbase 2 2) ∧ decode 0xF8004010 = some (.rop 8 0 0) ∧
  decode 0xFA002060 = some (.pint 4 6) ∧ decode 0xFC110120 = some (.tlbinvCtx 4) ∧ decode 0xFC010200 = some .eretKill

/-- R8, R73, R99, R110, R226, R236, R238, R248, R260, R269, R322, R366, R421, R422, R433, R450: what the registers of the package read
after package reset, every die OFF, the basin zero, every line's tokens at its home, and every tile cell zero. -/
def Obligations.ResetLeavesTheTablesValues : Prop :=
  let s := State.reset
  let r := s.readRegister
  (∀ q, q < 64 → (∀ o ∈ [0, 0x10, 0x18, 0x20, 0x28], r (0x100000 + 0x40 * q + o) = 0) ∧ r (0x100000 + 0x40 * q + 8) = 4 * 2 ^ 24) ∧
  (∀ d, d < 14 → (s.die d).st = .off ∧ (s.die d).ltime = 0 ∧ r (0x110000 + 0x20 * d) = 0) ∧
  r 0x120000 = 3400 * 2 ^ 36 + 2800 * 2 ^ 24 + 400 ∧ r 0x120008 = 400000 ∧ r 0x120010 = 3 * 2 ^ 27 + 1800 * 2 ^ 15 + 1500 ∧
  r 0x120018 = 1400 * 2 ^ 12 + 2800 ∧ r 0x120020 = 1500 * 2 ^ 13 ∧ (∀ o ∈ [0x28, 0x38, 0x40, 0x48, 0x50, 0x58], r (0x120000 + o) = 0) ∧
  (∀ n, n < 8 → r (0x120100 + 8 * n) = 4 * 2 ^ 12 + 4 ∧ r (0x131000 + 0x40 * n) = 0 ∧ r (0x131000 + 0x40 * n + 0x08) = 0xFFFFFF ∧
    r (0x131000 + 0x40 * n + 0x10) = 16384 * 2 ^ 16 + 65535 ∧ r (0x131000 + 0x40 * n + 0x18) = 0xFFFFFFFFFFFF ∧
    ∀ o ∈ [0x20, 0x28, 0x30], r (0x131000 + 0x40 * n + o) = 0) ∧
  r 0x130000 = 0 ∧ (∀ c, c < 4096 → r (0x150000 + 0x10 * c) = 0) ∧
  (∀ i, i < 64 → r (0x160000 + 8 * i) = if i = 0 then 1 else 0) ∧
  r 0x170000 = 0xF * 2 ^ 20 ∧ r 0x170008 = 0x11111111 ∧ r 0x170010 = 8 ∧ (∀ o ∈ [0x18, 0x20, 0x28], r (0x170000 + o) = 0) ∧
  (∀ p, p < 64 → r (0x170100 + 8 * p) = 0) ∧
  r 0x180000 = 8 ∧ (∀ o ∈ [0x08, 0x18, 0x20, 0x28, 0x30], r (0x180000 + o) = 0) ∧ (∀ d, d < 8 → r (0x180100 + 8 * d) = 0) ∧ r 0x190000 = 0 ∧
  (∀ a, memGet s.basin a = 0) ∧
  (∀ line h, (s.line line).lent = 0 ∧ s.holder line h = if h = 4 then { cnt := 64, own := true, val := true } else {}) ∧
  ∀ u z i j, (s.tile u).cell z i j = 0

/-- After reset the memories are in their canonical form, and the fused cores (24 on every die: the model's choice, log entry 4) are a
harvest that R2 allows: 22 to 24 on a compute die, and at least 184 on the eight. -/
def Obligations.ResetIsCanonical : Prop :=
  State.reset.canonical ∧ State.reset.harvestOk

/-- Whatever a step does, the memories stay in their canonical form: addresses strictly rising, and no entry for a byte that reads 0. -/
def Obligations.EveryStepKeepsMemoriesCanonical : Prop :=
  ∀ s t : State, s.canonical → step s = .next t → t.canonical

/-- R102, R105, R225, R260, R269, R421, R433: no instruction of a program, prologue or firmware agent changes what only the host and the
boot set: the root registers, the sizes of basin store, the staged prices, the gating requests, the states and debug enables of dies, the
link keys and the boot record. -/
def Obligations.InstructionsLeaveThePackageSettings : Prop :=
  ∀ (i : Instr) (s t : State), i.isWord = true → exec i s = .next t →
    t.roots = s.roots ∧ t.bsize = s.bsize ∧ t.bnext = s.bnext ∧ t.stage = s.stage ∧ t.prbank = s.prbank ∧ t.prsent = s.prsent ∧ t.greq = s.greq ∧
    t.links = s.links ∧ t.boot = s.boot ∧ ∀ d, (t.die d).st = (s.die d).st ∧ (t.die d).dbgen = (s.die d).dbgen
end

