-- ==== Sys2Proof/Laws/Tables.lean ====
section
/-! SUPPORT. The laws of tables and of byte memories. -/
namespace Sys2Proof

@[simp] theorem Tbl.get_nil {α : Type} (d : α) (k : Nat) : Tbl.get d [] k = d := rfl

theorem Tbl.get_set {α : Type} (d v : α) (t : Tbl α) (k j : Nat) :
    (t.set k v).get d j = if k = j then v else t.get d j := by
  induction t with
  | nil => rfl
  | cons p t ih =>
    obtain ⟨i, w⟩ := p
    simp only [Tbl.set]
    split
    · rfl
    · split
      · subst i; simp only [Tbl.get]; split <;> rfl
      · simp only [Tbl.get, ih]; split
        · next h => rw [if_neg (by omega)]
        · rfl

@[simp] theorem Tbl.get_set_same {α : Type} (d v : α) (t : Tbl α) (k : Nat) : (t.set k v).get d k = v := by
  simp [Tbl.get_set]

theorem Tbl.get_set_other {α : Type} (d v : α) (t : Tbl α) {k j : Nat} (h : k ≠ j) :
    (t.set k v).get d j = t.get d j := by
  simp [Tbl.get_set, h]

/-- A table whose entries are changed by key. -/
theorem Tbl.get_map {α : Type} (d : α) (f : Nat → α → α) (t : Tbl α) (k : Nat) (h : f k d = d) :
    Tbl.get d (t.map (fun p => (p.1, f p.1 p.2))) k = f k (t.get d k) := by
  induction t with
  | nil => simp [h]
  | cons p t ih =>
    obtain ⟨i, w⟩ := p
    simp only [List.map_cons, Tbl.get]
    split
    · next e => subst e; rfl
    · exact ih

theorem Tbl.get_del {α : Type} (d : α) (t : Tbl α) (k j : Nat) :
    (Tbl.del t k).get d j = if k = j then d else t.get d j := by
  induction t with
  | nil => simp [Tbl.del]
  | cons p t ih =>
    obtain ⟨i, w⟩ := p
    simp only [Tbl.del]
    split
    · next e => subst e; rw [ih]; simp only [Tbl.get]; split <;> rfl
    · simp only [Tbl.get, ih]; split
      · next e => rw [if_neg (by omega)]
      · rfl

namespace Machine

/-! ## Bytes of memory -/

/-- The canonical form, entry by entry: every listed address lies at or above `lo`. -/
theorem memWf_cons {j : Nat} {b : Byte} {t : List Host.Cell} :
    memWf ((j, b) :: t) = true ↔ b ≠ 0 ∧ memWf t = true ∧ ∀ p ∈ t.head?, j < p.1 := by
  cases t with
  | nil => simp [memWf]
  | cons p t => obtain ⟨i, c⟩ := p; simp [memWf]; exact ⟨fun h => ⟨h.1.1, h.2, h.1.2⟩, fun h => ⟨⟨h.1, h.2.2⟩, h.2.1⟩⟩

theorem memWf_tail {p : Host.Cell} {t : List Host.Cell} (h : memWf (p :: t) = true) : memWf t = true :=
  by
  obtain ⟨j, b⟩ := p
  exact (memWf_cons.1 h).2.1

theorem memWf_lt {j : Nat} {b : Byte} {t : List Host.Cell} (h : memWf ((j, b) :: t) = true) :
    ∀ p ∈ t, j < p.1 := by
  induction t generalizing j b with
  | nil => simp
  | cons q t ih =>
    obtain ⟨i, c⟩ := q
    have h' := memWf_cons.1 h
    have hji : j < i := h'.2.2 (i, c) rfl
    intro p hp
    rcases List.mem_cons.1 hp with rfl | hp
    · exact hji
    · exact Nat.lt_trans hji (ih h'.2.1 p hp)

theorem memGet_below {m : List Host.Cell} {a : Nat} (h : ∀ p ∈ m, a < p.1) : memGet m a = 0 := by
  induction m with
  | nil => rfl
  | cons p t ih =>
    obtain ⟨j, b⟩ := p
    have : a < j := h (j, b) (by simp)
    simp only [memGet]
    rw [if_neg (by omega)]
    exact ih fun p hp => h p (by simp [hp])

/-- A write leaves every other byte alone. -/
theorem memGet_memSet_other (m : List Host.Cell) {a x : Nat} (b : Byte) (h : a ≠ x) :
    memGet (memSet m a b) x = memGet m x := by
  induction m with
  | nil => simp only [memSet]; split <;> simp [memGet, h]
  | cons p t ih =>
    obtain ⟨j, c⟩ := p
    simp only [memSet]
    split
    · split
      · rfl
      · simp [memGet, h]
    · split
      · subst j; split <;> simp [memGet, h]
      · simp only [memGet, ih]

/-- The byte written reads back. -/
theorem memGet_memSet_same {m : List Host.Cell} (hm : memWf m = true) (a : Nat) (b : Byte) :
    memGet (memSet m a b) a = b := by
  induction m with
  | nil => simp only [memSet]; split <;> simp_all [memGet]
  | cons p t ih =>
    obtain ⟨j, c⟩ := p
    have hlt := memWf_lt hm
    simp only [memSet]
    split
    · next h =>
      split
      · next hb =>
        rw [hb]
        exact memGet_below fun p hp => by
          rcases List.mem_cons.1 hp with rfl | hp
          · exact h
          · exact Nat.lt_trans h (hlt p hp)
      · simp [memGet]
    · split
      · next h =>
        subst j
        split
        · next hb => rw [hb]; exact memGet_below hlt
        · simp [memGet]
      · next h => simp only [memGet]; rw [if_neg h]; exact ih (memWf_tail hm)

theorem memGet_memSet {m : List Host.Cell} (hm : memWf m = true) (a x : Nat) (b : Byte) :
    memGet (memSet m a b) x = if x = a then b else memGet m x := by
  split
  · next h => subst h; exact memGet_memSet_same hm x b
  · next h => exact memGet_memSet_other m b (Ne.symm h)

theorem memSet_above {m : List Host.Cell} {a lo : Nat} (b : Byte) (ha : lo < a) (h : ∀ p ∈ m, lo < p.1) :
    ∀ p ∈ memSet m a b, lo < p.1 := by
  induction m with
  | nil => simp only [memSet]; split <;> simp_all
  | cons q t ih =>
    obtain ⟨j, c⟩ := q
    have hj : lo < j := h (j, c) (by simp)
    have ht : ∀ p ∈ t, lo < p.1 := fun p hp => h p (by simp [hp])
    simp only [memSet]
    intro p
    split
    · split
      · exact h p
      · intro hp; rcases List.mem_cons.1 hp with rfl | hp
        · exact ha
        · exact h p hp
    · split
      · split
        · exact ht p
        · intro hp; rcases List.mem_cons.1 hp with rfl | hp
          · exact ha
          · exact ht p hp
      · intro hp; rcases List.mem_cons.1 hp with rfl | hp
        · exact hj
        · exact ih ht p hp

theorem memWf_intro {j : Nat} {b : Byte} {t : List Host.Cell} (hb : b ≠ 0) (ht : memWf t = true)
    (h : ∀ p ∈ t, j < p.1) : memWf ((j, b) :: t) = true :=
  memWf_cons.2 ⟨hb, ht, fun p hp => h p (List.mem_of_mem_head? hp)⟩

/-- A write keeps the canonical form. -/
theorem memWf_memSet {m : List Host.Cell} (hm : memWf m = true) (a : Nat) (b : Byte) : memWf (memSet m a b) = true := by
  induction m with
  | nil => simp only [memSet]; split <;> simp_all [memWf]
  | cons p t ih =>
    obtain ⟨j, c⟩ := p
    have hlt := memWf_lt hm
    have hc := (memWf_cons.1 hm).1
    have ht := memWf_tail hm
    simp only [memSet]
    split
    · next h =>
      split
      · exact hm
      · next hb =>
        exact memWf_intro hb hm fun p hp => by
          rcases List.mem_cons.1 hp with rfl | hp
          · exact h
          · exact Nat.lt_trans h (hlt p hp)
    · split
      · next h => subst j; split
                  · exact ht
                  · next hb => exact memWf_intro hb ht hlt
      · next h h' => exact memWf_intro hc (ih ht) (memSet_above b (by omega) hlt)

theorem memWf_memWrite {m : List Host.Cell} (hm : memWf m = true) (a : Nat) (bs : List Byte) :
    memWf (memWrite m a bs) = true := by
  induction bs generalizing m a with
  | nil => exact hm
  | cons b t ih => exact ih (memWf_memSet hm a b) (a + 1)

theorem memWf_memSetNat {m : List Host.Cell} (hm : memWf m = true) (a n w : Nat) : memWf (memSetNat m a n w) = true :=
  memWf_memWrite hm a _

theorem memWf_filter {m : List Host.Cell} (hm : memWf m = true) (q : Host.Cell → Bool) : memWf (m.filter q) = true := by
  induction m with
  | nil => rfl
  | cons p t ih =>
    obtain ⟨j, c⟩ := p
    rw [List.filter_cons]
    split
    · exact memWf_intro (memWf_cons.1 hm).1 (ih (memWf_tail hm)) fun p hp => memWf_lt hm p (List.mem_filter.1 hp).1
    · exact ih (memWf_tail hm)

theorem memWf_memZero {m : List Host.Cell} (hm : memWf m = true) (lo hi : Nat) : memWf (memZero m lo hi) = true :=
  memWf_filter hm _

/-- A write of several bytes leaves every byte outside them alone. -/
theorem memGet_memWrite_other (m : List Host.Cell) (a : Nat) (bs : List Byte) {x : Nat}
    (h : x < a ∨ a + bs.length ≤ x) : memGet (memWrite m a bs) x = memGet m x := by
  induction bs generalizing m a with
  | nil => rfl
  | cons b t ih =>
    simp only [List.length_cons] at h
    rw [memWrite, ih _ _ (by omega), memGet_memSet_other _ _ (by omega)]

/-- The bytes written read back. -/
theorem memGet_memWrite {m : List Host.Cell} (hm : memWf m = true) (a : Nat) (bs : List Byte) (x : Nat) :
    memGet (memWrite m a bs) x = if h : a ≤ x ∧ x < a + bs.length then bs[x - a]'(by omega) else memGet m x := by
  induction bs generalizing m a with
  | nil => rw [dif_neg (by simp only [List.length_nil]; omega)]; rfl
  | cons b t ih =>
    rw [memWrite, ih (memWf_memSet hm a b)]
    by_cases hx : x = a
    · subst hx
      rw [dif_neg (by omega), dif_pos (by simp), memGet_memSet_same hm]
      simp
    · simp only [List.length_cons]
      by_cases h : a + 1 ≤ x ∧ x < a + 1 + t.length
      · rw [dif_pos h, dif_pos (by omega)]
        obtain ⟨d, rfl⟩ : ∃ d, x = a + 1 + d := ⟨x - (a + 1), by omega⟩
        simp only [Nat.add_sub_cancel_left, show a + 1 + d - a = d + 1 by omega, List.getElem_cons_succ]
      · rw [dif_neg h, dif_neg (by omega), memGet_memSet_other _ _ (Ne.symm hx)]

theorem memRead_memWrite {m : List Host.Cell} (hm : memWf m = true) (a : Nat) (bs : List Byte) :
    memRead (memWrite m a bs) a bs.length = bs := by
  apply List.ext_getElem
  · simp [memRead]
  · intro i h1 h2
    simp only [memRead, List.getElem_map, List.getElem_range]
    rw [memGet_memWrite hm, dif_pos (by omega)]
    simp

/-- A range that is cleared reads 0; every other byte is left alone. -/
theorem memGet_memZero (m : List Host.Cell) (lo hi x : Nat) :
    memGet (memZero m lo hi) x = if lo ≤ x ∧ x < hi then 0 else memGet m x := by
  induction m with
  | nil => simp [memZero, memGet]
  | cons p t ih =>
    obtain ⟨j, c⟩ := p
    simp only [memZero, List.filter_cons] at ih ⊢
    by_cases hj : j < lo ∨ hi ≤ j
    · have : (decide (j < lo) || decide (hi ≤ j)) = true := by simpa using hj
      rw [if_pos this]
      simp only [memGet, ih]
      by_cases hx : j = x
      · subst hx; rw [if_pos rfl, if_neg (by omega), if_pos rfl]
      · rw [if_neg hx, if_neg hx]
    · have : ¬(decide (j < lo) || decide (hi ≤ j)) = true := by simpa using hj
      rw [if_neg this, ih]
      simp only [memGet]
      by_cases hx : j = x
      · subst hx; rw [if_pos (by omega), if_pos (by omega)]
      · rw [if_neg hx]

/-! ## Bytes and numbers -/

@[simp] theorem toBytes_length (n w : Nat) : (toBytes n w).length = n := by
  induction n generalizing w with
  | zero => rfl
  | succ n ih => simp [toBytes, ih]

theorem ofBytes_toBytes (n w : Nat) : ofBytes (toBytes n w) = w % 256 ^ n := by
  induction n generalizing w with
  | zero => simp [toBytes, ofBytes, Nat.mod_one]
  | succ n ih =>
    have h8 : (BitVec.ofNat 8 w).toNat = w % 256 := BitVec.toNat_ofNat w 8
    simp only [toBytes, ofBytes, ih, h8]
    rw [Nat.pow_succ', @Nat.mod_mul 256]

theorem memNat_memSetNat {m : List Host.Cell} (hm : memWf m = true) (a n w : Nat) :
    memNat (memSetNat m a n w) a n = w % 256 ^ n := by
  have h := memRead_memWrite hm a (toBytes n w)
  rw [toBytes_length] at h
  rw [memNat, memSetNat, h, ofBytes_toBytes]

end Machine
end Sys2Proof
end

