-- ==== Sys2Proof/Laws/Homes.lean ====
section
/-! SUPPORT. What line operations and the device's own writes do, each said once, and the paths of a set. -/
namespace Sys2Proof.Machine

/-! ## Line operations -/

/-- Of the whole state only the lines with their messages, what is to be read again, and the collectives' marks for it may differ. -/
structure LinesOnly (s t : State) : Prop where
  rest : { t with coh := s.coh, fab := s.fab, agenda := s.agenda } = s
  fab : { t.fab with colls := s.fab.colls } = s.fab

theorem LinesOnly.refl (s : State) : LinesOnly s s := ⟨rfl, rfl⟩

theorem LinesOnly.trans {s t u : State} (h : LinesOnly s t) (h' : LinesOnly t u) : LinesOnly s u where
  rest := (congrArg (fun x : State => { x with coh := s.coh, fab := s.fab, agenda := s.agenda }) h'.rest).trans h.rest
  fab := (congrArg (fun x : Fab => { x with colls := s.fab.colls }) h'.fab).trans h.fab

theorem LinesOnly.dram {s t : State} (h : LinesOnly s t) : t.dram = s.dram := by have := congrArg State.dram h.rest; exact this
theorem LinesOnly.rills {s t : State} (h : LinesOnly s t) : t.rills = s.rills := by have := congrArg State.rills h.rest; exact this
theorem LinesOnly.queues {s t : State} (h : LinesOnly s t) : t.queues = s.queues := by have := congrArg State.queues h.rest; exact this

theorem LinesOnly.foldl {α : Type} (f : State → α → State) (h : ∀ s x, LinesOnly s (f s x)) (xs : List α) (s : State) :
    LinesOnly s (xs.foldl f s) := by
  induction xs generalizing s with
  | nil => exact .refl s
  | cons x xs ih => exact (h s x).trans (ih (f s x))

theorem State.storeSeen_linesOnly (s : State) (line : Nat) : LinesOnly s (s.storeSeen line) := by
  have colls : ∀ (c : Bool) (xs : List Coll), LinesOnly s (if c then s else { s with fab := { s.fab with colls := xs } }) := by
    intro c xs; cases c <;> exact ⟨rfl, rfl⟩
  have due : ∀ (t : State) (c : Bool) (xs : List Instr), LinesOnly t (if c then t else { t with agenda := xs }) := by
    intro t c xs; cases c <;> exact ⟨rfl, rfl⟩
  exact (colls _ _).trans (due _ _ _)

theorem State.post_linesOnly (s : State) (m : CohMsg) : LinesOnly s (s.post m) := by
  unfold State.post State.sendMsg; simp only []; split <;> exact ⟨rfl, rfl⟩

theorem State.setHolder_linesOnly (s : State) (line h : Nat) (x : Holder) : LinesOnly s (s.setHolder line h x) := ⟨rfl, rfl⟩

theorem State.sendPdone_linesOnly (s : State) (line h : Nat) (p : PersReq) : LinesOnly s (s.sendPdone line h p) :=
  (LinesOnly.mk rfl rfl : LinesOnly s { s with
      coh := { s.coh with ptab := s.coh.ptab.set (64 * holderBd line h + p.entry.getD 0) (some { p with closing := true }) } }).trans
    (State.post_linesOnly _ _)

/-- A line operation changes no memory, no rill and no queue (R323). -/
theorem State.lineDone_linesOnly (s : State) (line h : Nat) (write : Bool) : LinesOnly s (s.lineDone line h write) := by
  have main : ∀ t : State, LinesOnly s t → LinesOnly s (if t.coh.trans.isEmpty then t
      else match t.coh.trans.find? (fun t => t.line == line && t.holder == h && t.pers) with
        | none => t
        | some q =>
          match t.persFor (holderBd line h) line with
          | some p => if p.req = h && t.satisfied q && !p.closing then t.sendPdone line h p else t
          | none =>
            if t.satisfied q then
              { t with coh := { t.coh with trans := t.coh.trans.map (fun u => if u == q then { u with served := true } else u) } }
            else t) := by
    intro t ht
    split
    · exact ht
    · split
      · exact ht
      · split
        · split
          · exact ht.trans (State.sendPdone_linesOnly _ _ _ _)
          · exact ht
        · split
          · exact ht.trans ⟨rfl, rfl⟩
          · exact ht
  unfold State.lineDone
  cases write
  · exact main s (.refl s)
  · exact main _ ((State.setHolder_linesOnly s line h _).trans (State.storeSeen_linesOnly _ line))

theorem State.clearPoison_linesOnly (s : State) (h tgt pa : Nat) (written : Nat → Bool) : LinesOnly s (s.clearPoison h tgt pa written) := by
  unfold State.clearPoison
  split
  · simp only []; split
    · exact .refl s
    · exact ⟨rfl, rfl⟩
  · exact ⟨rfl, rfl⟩
  · exact .refl s

/-- The device's own write leaves the bytes in device memory, and beside the lines, what is to be read again and the collectives' marks for
it nothing changes (R323, R331). -/
theorem State.homePut_spec (s : State) (pa : Nat) (bs : List Byte) : LinesOnly { s with dram := memWrite s.dram pa bs } (s.homePut pa bs) :=
  (LinesOnly.foldl _ (fun u l => (State.clearPoison_linesOnly u 4 0 (128 * l) _).trans (State.lineDone_linesOnly _ l 4 true)) _ _).trans
    (LinesOnly.foldl _ State.storeSeen_linesOnly _ _)

@[simp] theorem State.homePut_dram (s : State) (pa : Nat) (bs : List Byte) : (s.homePut pa bs).dram = memWrite s.dram pa bs :=
  (State.homePut_spec s pa bs).dram

/-- Lines that have never left their homes may be read and written there. -/
theorem State.homeOpen_of_unlisted {s : State} {pa n : Nat} (h : s.linesAt pa n = []) (write : Bool) : s.homeOpen pa n write = true := by
  unfold State.homeOpen; rw [h]; rfl

/-! ## Paths -/

/-- The path on fibre f and wavelength w joins slots s and s + o with o = f + 8 w (R364). -/
theorem path_offset : ∀ o : Fin 64, ∀ i : Fin 16, (pathFibre o i % 64 + 8 * pathWave i) % 64 = o := by decide

end Sys2Proof.Machine
end

