-- ==== Sys2Proof/Laws/PerInstr.lean ====
section
/-! SUPPORT. One statement per instruction: the instruction has an encoding exactly when it is a word, and the encoding
is a word of 32 bits. -/
namespace Sys2Proof.Laws.Words

/-- An instruction word has a 32-bit encoding, an event has none. -/
def Statement (i : Instr) : Prop := (encode i).isSome = i.isWord ∧ ∀ w, encode i = some w → w < 2 ^ 32

theorem put_lt {n : Nat} (f : BitVec n) (lo : Nat) : put f lo < 2 ^ (n + lo) := by
  rw [Nat.pow_add]
  exact Nat.mul_lt_mul_of_pos_right f.isLt (Nat.two_pow_pos lo)

theorem of_word {i : Instr} {v : Nat} (h : encode i = some v) (hw : i.isWord = true) (hv : v < 2 ^ 32) : Statement i :=
  ⟨by rw [h, hw]; rfl, fun w hi => by rw [h] at hi; exact Option.some.inj hi ▸ hv⟩

theorem of_event {i : Instr} (h : encode i = none) (hw : i.isWord = false) : Statement i :=
  ⟨by rw [h, hw]; rfl, fun w hi => by rw [h] at hi; exact nomatch hi⟩

theorem bra (c : BitVec 4) (o : BitVec 21) : Statement (.bra c o) := by
  have h0 := put_lt c 21
  have h1 := put_lt o 0
  exact of_word rfl rfl (by omega)

theorem call (c : BitVec 4) (o : BitVec 21) : Statement (.call c o) := by
  have h0 := put_lt c 21
  have h1 := put_lt o 0
  exact of_word rfl rfl (by omega)

theorem kbra (s : BitVec 1) (k : BitVec 3) (o : BitVec 21) : Statement (.kbra s k o) := by
  have h0 := put_lt s 24
  have h1 := put_lt k 21
  have h2 := put_lt o 0
  exact of_word rfl rfl (by omega)

theorem brx (a : BitVec 7) (r : BitVec 1) (g : BitVec 2) : Statement (.brx a r g) := by
  have h0 := put_lt a 11
  have h1 := put_lt r 3
  have h2 := put_lt g 0
  exact of_word rfl rfl (by omega)

theorem callx (a : BitVec 7) (r : BitVec 1) (g : BitVec 2) : Statement (.callx a r g) := by
  have h0 := put_lt a 11
  have h1 := put_lt r 3
  have h2 := put_lt g 0
  exact of_word rfl rfl (by omega)

theorem ret (g : BitVec 2) : Statement (.ret g) := by
  have h0 := put_lt g 0
  exact of_word rfl rfl (by omega)

theorem exit (g : BitVec 2) : Statement (.exit g) := by
  have h0 := put_lt g 0
  exact of_word rfl rfl (by omega)

theorem nop : Statement (.nop) := of_word rfl rfl (by decide)

theorem yield : Statement (.yield) := of_word rfl rfl (by decide)

theorem regn : Statement (.regn) := of_word rfl rfl (by decide)

theorem trap (i : BitVec 18) : Statement (.trap i) := by
  have h0 := put_lt i 0
  exact of_word rfl rfl (by omega)

theorem brk (i : BitVec 18) : Statement (.brk i) := by
  have h0 := put_lt i 0
  exact of_word rfl rfl (by omega)

theorem waitc (t l s c n : BitVec 4) : Statement (.waitc t l s c n) := by
  have h0 := put_lt t 21
  have h1 := put_lt l 14
  have h2 := put_lt s 10
  have h3 := put_lt c 6
  have h4 := put_lt n 2
  exact of_word rfl rfl (by omega)

theorem spawn (a b : BitVec 7) (r : BitVec 1) (g : BitVec 2) : Statement (.spawn a b r g) := by
  have h0 := put_lt a 11
  have h1 := put_lt b 4
  have h2 := put_lt r 3
  have h3 := put_lt g 0
  exact of_word rfl rfl (by omega)

theorem kadd (d a b : BitVec 7) (r : BitVec 1) : Statement (.kadd d a b r) := by
  have h0 := put_lt d 18
  have h1 := put_lt a 11
  have h2 := put_lt b 4
  have h3 := put_lt r 3
  exact of_word rfl rfl (by omega)

theorem ksub (d a b : BitVec 7) (r : BitVec 1) : Statement (.ksub d a b r) := by
  have h0 := put_lt d 18
  have h1 := put_lt a 11
  have h2 := put_lt b 4
  have h3 := put_lt r 3
  exact of_word rfl rfl (by omega)

theorem kmul24 (d a b : BitVec 7) (r m : BitVec 1) : Statement (.kmul24 d a b r m) := by
  have h0 := put_lt d 18
  have h1 := put_lt a 11
  have h2 := put_lt b 4
  have h3 := put_lt r 3
  have h4 := put_lt m 2
  exact of_word rfl rfl (by omega)

theorem kmul32 (d a b : BitVec 7) (r : BitVec 1) : Statement (.kmul32 d a b r) := by
  have h0 := put_lt d 18
  have h1 := put_lt a 11
  have h2 := put_lt b 4
  have h3 := put_lt r 3
  exact of_word rfl rfl (by omega)

theorem kand (d a b : BitVec 7) (r : BitVec 1) : Statement (.kand d a b r) := by
  have h0 := put_lt d 18
  have h1 := put_lt a 11
  have h2 := put_lt b 4
  have h3 := put_lt r 3
  exact of_word rfl rfl (by omega)

theorem kor (d a b : BitVec 7) (r : BitVec 1) : Statement (.kor d a b r) := by
  have h0 := put_lt d 18
  have h1 := put_lt a 11
  have h2 := put_lt b 4
  have h3 := put_lt r 3
  exact of_word rfl rfl (by omega)

theorem kxor (d a b : BitVec 7) (r : BitVec 1) : Statement (.kxor d a b r) := by
  have h0 := put_lt d 18
  have h1 := put_lt a 11
  have h2 := put_lt b 4
  have h3 := put_lt r 3
  exact of_word rfl rfl (by omega)

theorem kshl (d a b : BitVec 7) (r : BitVec 1) : Statement (.kshl d a b r) := by
  have h0 := put_lt d 18
  have h1 := put_lt a 11
  have h2 := put_lt b 4
  have h3 := put_lt r 3
  exact of_word rfl rfl (by omega)

theorem kshr (d a b : BitVec 7) (r : BitVec 1) : Statement (.kshr d a b r) := by
  have h0 := put_lt d 18
  have h1 := put_lt a 11
  have h2 := put_lt b 4
  have h3 := put_lt r 3
  exact of_word rfl rfl (by omega)

theorem ksar (d a b : BitVec 7) (r : BitVec 1) : Statement (.ksar d a b r) := by
  have h0 := put_lt d 18
  have h1 := put_lt a 11
  have h2 := put_lt b 4
  have h3 := put_lt r 3
  exact of_word rfl rfl (by omega)

theorem kmin (d a b : BitVec 7) (r m : BitVec 1) : Statement (.kmin d a b r m) := by
  have h0 := put_lt d 18
  have h1 := put_lt a 11
  have h2 := put_lt b 4
  have h3 := put_lt r 3
  have h4 := put_lt m 2
  exact of_word rfl rfl (by omega)

theorem kmax (d a b : BitVec 7) (r m : BitVec 1) : Statement (.kmax d a b r m) := by
  have h0 := put_lt d 18
  have h1 := put_lt a 11
  have h2 := put_lt b 4
  have h3 := put_lt r 3
  have h4 := put_lt m 2
  exact of_word rfl rfl (by omega)

theorem ksel (d a b : BitVec 7) (r : BitVec 1) : Statement (.ksel d a b r) := by
  have h0 := put_lt d 18
  have h1 := put_lt a 11
  have h2 := put_lt b 4
  have h3 := put_lt r 3
  exact of_word rfl rfl (by omega)

theorem kcmp (d a b : BitVec 7) (r m : BitVec 1) (c : BitVec 2) : Statement (.kcmp d a b r m c) := by
  have h0 := put_lt d 18
  have h1 := put_lt a 11
  have h2 := put_lt b 4
  have h3 := put_lt r 3
  have h4 := put_lt m 2
  have h5 := put_lt c 0
  exact of_word rfl rfl (by omega)

theorem kli (d : BitVec 7) (i : BitVec 18) : Statement (.kli d i) := by
  have h0 := put_lt d 18
  have h1 := put_lt i 0
  exact of_word rfl rfl (by omega)

theorem klih (d : BitVec 7) (i : BitVec 14) : Statement (.klih d i) := by
  have h0 := put_lt d 18
  have h1 := put_lt i 0
  exact of_word rfl rfl (by omega)

theorem vtok (d a b : BitVec 7) : Statement (.vtok d a b) := by
  have h0 := put_lt d 18
  have h1 := put_lt a 11
  have h2 := put_lt b 4
  exact of_word rfl rfl (by omega)

theorem iadd (d a b : BitVec 7) (r : BitVec 1) (g : BitVec 2) : Statement (.iadd d a b r g) := by
  have h0 := put_lt d 18
  have h1 := put_lt a 11
  have h2 := put_lt b 4
  have h3 := put_lt r 3
  have h4 := put_lt g 0
  exact of_word rfl rfl (by omega)

theorem isub (d a b : BitVec 7) (r : BitVec 1) (g : BitVec 2) : Statement (.isub d a b r g) := by
  have h0 := put_lt d 18
  have h1 := put_lt a 11
  have h2 := put_lt b 4
  have h3 := put_lt r 3
  have h4 := put_lt g 0
  exact of_word rfl rfl (by omega)

theorem iadd64 (d a b : BitVec 7) (r : BitVec 1) (g : BitVec 2) : Statement (.iadd64 d a b r g) := by
  have h0 := put_lt d 18
  have h1 := put_lt a 11
  have h2 := put_lt b 4
  have h3 := put_lt r 3
  have h4 := put_lt g 0
  exact of_word rfl rfl (by omega)

theorem imul24 (d a b : BitVec 7) (r m : BitVec 1) (g : BitVec 2) : Statement (.imul24 d a b r m g) := by
  have h0 := put_lt d 18
  have h1 := put_lt a 11
  have h2 := put_lt b 4
  have h3 := put_lt r 3
  have h4 := put_lt m 2
  have h5 := put_lt g 0
  exact of_word rfl rfl (by omega)

theorem imul24h (d a b : BitVec 7) (r m : BitVec 1) (g : BitVec 2) : Statement (.imul24h d a b r m g) := by
  have h0 := put_lt d 18
  have h1 := put_lt a 11
  have h2 := put_lt b 4
  have h3 := put_lt r 3
  have h4 := put_lt m 2
  have h5 := put_lt g 0
  exact of_word rfl rfl (by omega)

theorem imul32 (d a b : BitVec 7) (r : BitVec 1) (g : BitVec 2) : Statement (.imul32 d a b r g) := by
  have h0 := put_lt d 18
  have h1 := put_lt a 11
  have h2 := put_lt b 4
  have h3 := put_lt r 3
  have h4 := put_lt g 0
  exact of_word rfl rfl (by omega)

theorem imulh (d a b : BitVec 7) (r m : BitVec 1) (g : BitVec 2) : Statement (.imulh d a b r m g) := by
  have h0 := put_lt d 18
  have h1 := put_lt a 11
  have h2 := put_lt b 4
  have h3 := put_lt r 3
  have h4 := put_lt m 2
  have h5 := put_lt g 0
  exact of_word rfl rfl (by omega)

theorem imad24 (d a b : BitVec 7) (r m : BitVec 1) (g : BitVec 2) : Statement (.imad24 d a b r m g) := by
  have h0 := put_lt d 18
  have h1 := put_lt a 11
  have h2 := put_lt b 4
  have h3 := put_lt r 3
  have h4 := put_lt m 2
  have h5 := put_lt g 0
  exact of_word rfl rfl (by omega)

theorem iand (d a b : BitVec 7) (r : BitVec 1) (g : BitVec 2) : Statement (.iand d a b r g) := by
  have h0 := put_lt d 18
  have h1 := put_lt a 11
  have h2 := put_lt b 4
  have h3 := put_lt r 3
  have h4 := put_lt g 0
  exact of_word rfl rfl (by omega)

theorem ior (d a b : BitVec 7) (r : BitVec 1) (g : BitVec 2) : Statement (.ior d a b r g) := by
  have h0 := put_lt d 18
  have h1 := put_lt a 11
  have h2 := put_lt b 4
  have h3 := put_lt r 3
  have h4 := put_lt g 0
  exact of_word rfl rfl (by omega)

theorem ixor (d a b : BitVec 7) (r : BitVec 1) (g : BitVec 2) : Statement (.ixor d a b r g) := by
  have h0 := put_lt d 18
  have h1 := put_lt a 11
  have h2 := put_lt b 4
  have h3 := put_lt r 3
  have h4 := put_lt g 0
  exact of_word rfl rfl (by omega)

theorem ishl (d a b : BitVec 7) (r : BitVec 1) (g : BitVec 2) : Statement (.ishl d a b r g) := by
  have h0 := put_lt d 18
  have h1 := put_lt a 11
  have h2 := put_lt b 4
  have h3 := put_lt r 3
  have h4 := put_lt g 0
  exact of_word rfl rfl (by omega)

theorem irot (d a b : BitVec 7) (r : BitVec 1) (g : BitVec 2) : Statement (.irot d a b r g) := by
  have h0 := put_lt d 18
  have h1 := put_lt a 11
  have h2 := put_lt b 4
  have h3 := put_lt r 3
  have h4 := put_lt g 0
  exact of_word rfl rfl (by omega)

theorem ishr (d a b : BitVec 7) (r : BitVec 1) (g : BitVec 2) : Statement (.ishr d a b r g) := by
  have h0 := put_lt d 18
  have h1 := put_lt a 11
  have h2 := put_lt b 4
  have h3 := put_lt r 3
  have h4 := put_lt g 0
  exact of_word rfl rfl (by omega)

theorem isar (d a b : BitVec 7) (r : BitVec 1) (g : BitVec 2) : Statement (.isar d a b r g) := by
  have h0 := put_lt d 18
  have h1 := put_lt a 11
  have h2 := put_lt b 4
  have h3 := put_lt r 3
  have h4 := put_lt g 0
  exact of_word rfl rfl (by omega)

theorem imin (d a b : BitVec 7) (r m : BitVec 1) (g : BitVec 2) : Statement (.imin d a b r m g) := by
  have h0 := put_lt d 18
  have h1 := put_lt a 11
  have h2 := put_lt b 4
  have h3 := put_lt r 3
  have h4 := put_lt m 2
  have h5 := put_lt g 0
  exact of_word rfl rfl (by omega)

theorem imax (d a b : BitVec 7) (r m : BitVec 1) (g : BitVec 2) : Statement (.imax d a b r m g) := by
  have h0 := put_lt d 18
  have h1 := put_lt a 11
  have h2 := put_lt b 4
  have h3 := put_lt r 3
  have h4 := put_lt m 2
  have h5 := put_lt g 0
  exact of_word rfl rfl (by omega)

theorem icmp (c : BitVec 3) (e : BitVec 2) (a b : BitVec 7) (r m : BitVec 1) (g : BitVec 2) : Statement (.icmp c e a b r m g) := by
  have h0 := put_lt c 20
  have h1 := put_lt e 18
  have h2 := put_lt a 11
  have h3 := put_lt b 4
  have h4 := put_lt r 3
  have h5 := put_lt m 2
  have h6 := put_lt g 0
  exact of_word rfl rfl (by omega)

theorem isel (d a b : BitVec 7) (r : BitVec 1) (g : BitVec 2) : Statement (.isel d a b r g) := by
  have h0 := put_lt d 18
  have h1 := put_lt a 11
  have h2 := put_lt b 4
  have h3 := put_lt r 3
  have h4 := put_lt g 0
  exact of_word rfl rfl (by omega)

theorem mov (d a : BitVec 7) : Statement (.mov d a) := by
  have h0 := put_lt d 18
  have h1 := put_lt a 11
  exact of_word rfl rfl (by omega)

theorem popc (d a : BitVec 7) : Statement (.popc d a) := by
  have h0 := put_lt d 18
  have h1 := put_lt a 11
  exact of_word rfl rfl (by omega)

theorem clz (d a : BitVec 7) : Statement (.clz d a) := by
  have h0 := put_lt d 18
  have h1 := put_lt a 11
  exact of_word rfl rfl (by omega)

theorem brev (d a : BitVec 7) : Statement (.brev d a) := by
  have h0 := put_lt d 18
  have h1 := put_lt a 11
  exact of_word rfl rfl (by omega)

theorem iabs (d a : BitVec 7) : Statement (.iabs d a) := by
  have h0 := put_lt d 18
  have h1 := put_lt a 11
  exact of_word rfl rfl (by omega)

theorem bfeZ32 (d a b : BitVec 7) : Statement (.bfeZ32 d a b) := by
  have h0 := put_lt d 18
  have h1 := put_lt a 11
  have h2 := put_lt b 4
  exact of_word rfl rfl (by omega)

theorem bfeS32 (d a b : BitVec 7) : Statement (.bfeS32 d a b) := by
  have h0 := put_lt d 18
  have h1 := put_lt a 11
  have h2 := put_lt b 4
  exact of_word rfl rfl (by omega)

theorem bfi (d a b : BitVec 7) : Statement (.bfi d a b) := by
  have h0 := put_lt d 18
  have h1 := put_lt a 11
  have h2 := put_lt b 4
  exact of_word rfl rfl (by omega)

theorem idot4S8 (d a b : BitVec 7) : Statement (.idot4S8 d a b) := by
  have h0 := put_lt d 18
  have h1 := put_lt a 11
  have h2 := put_lt b 4
  exact of_word rfl rfl (by omega)

theorem idot4Z8 (d a b : BitVec 7) : Statement (.idot4Z8 d a b) := by
  have h0 := put_lt d 18
  have h1 := put_lt a 11
  have h2 := put_lt b 4
  exact of_word rfl rfl (by omega)

theorem li (d : BitVec 7) (i : BitVec 18) : Statement (.li d i) := by
  have h0 := put_lt d 18
  have h1 := put_lt i 0
  exact of_word rfl rfl (by omega)

theorem lih (d : BitVec 7) (i : BitVec 14) : Statement (.lih d i) := by
  have h0 := put_lt d 18
  have h1 := put_lt i 0
  exact of_word rfl rfl (by omega)

theorem fadd (d a b : BitVec 7) (r n : BitVec 1) (g : BitVec 2) : Statement (.fadd d a b r n g) := by
  have h0 := put_lt d 18
  have h1 := put_lt a 11
  have h2 := put_lt b 4
  have h3 := put_lt r 3
  have h4 := put_lt n 2
  have h5 := put_lt g 0
  exact of_word rfl rfl (by omega)

theorem fsub (d a b : BitVec 7) (r n : BitVec 1) (g : BitVec 2) : Statement (.fsub d a b r n g) := by
  have h0 := put_lt d 18
  have h1 := put_lt a 11
  have h2 := put_lt b 4
  have h3 := put_lt r 3
  have h4 := put_lt n 2
  have h5 := put_lt g 0
  exact of_word rfl rfl (by omega)

theorem fmul (d a b : BitVec 7) (r n : BitVec 1) (g : BitVec 2) : Statement (.fmul d a b r n g) := by
  have h0 := put_lt d 18
  have h1 := put_lt a 11
  have h2 := put_lt b 4
  have h3 := put_lt r 3
  have h4 := put_lt n 2
  have h5 := put_lt g 0
  exact of_word rfl rfl (by omega)

theorem ffma (d a b : BitVec 7) (r n : BitVec 1) (g : BitVec 2) : Statement (.ffma d a b r n g) := by
  have h0 := put_lt d 18
  have h1 := put_lt a 11
  have h2 := put_lt b 4
  have h3 := put_lt r 3
  have h4 := put_lt n 2
  have h5 := put_lt g 0
  exact of_word rfl rfl (by omega)

theorem fmin (d a b : BitVec 7) (r n : BitVec 1) (g : BitVec 2) : Statement (.fmin d a b r n g) := by
  have h0 := put_lt d 18
  have h1 := put_lt a 11
  have h2 := put_lt b 4
  have h3 := put_lt r 3
  have h4 := put_lt n 2
  have h5 := put_lt g 0
  exact of_word rfl rfl (by omega)

theorem fmax (d a b : BitVec 7) (r n : BitVec 1) (g : BitVec 2) : Statement (.fmax d a b r n g) := by
  have h0 := put_lt d 18
  have h1 := put_lt a 11
  have h2 := put_lt b 4
  have h3 := put_lt r 3
  have h4 := put_lt n 2
  have h5 := put_lt g 0
  exact of_word rfl rfl (by omega)

theorem fcmp (c : BitVec 3) (e : BitVec 2) (a b : BitVec 7) (r n : BitVec 1) (g : BitVec 2) : Statement (.fcmp c e a b r n g) := by
  have h0 := put_lt c 20
  have h1 := put_lt e 18
  have h2 := put_lt a 11
  have h3 := put_lt b 4
  have h4 := put_lt r 3
  have h5 := put_lt n 2
  have h6 := put_lt g 0
  exact of_word rfl rfl (by omega)

theorem fclass (d a : BitVec 7) (r : BitVec 1) (g : BitVec 2) : Statement (.fclass d a r g) := by
  have h0 := put_lt d 18
  have h1 := put_lt a 11
  have h2 := put_lt r 3
  have h3 := put_lt g 0
  exact of_word rfl rfl (by omega)

theorem frnd (d a b : BitVec 7) (r n : BitVec 1) (g : BitVec 2) : Statement (.frnd d a b r n g) := by
  have h0 := put_lt d 18
  have h1 := put_lt a 11
  have h2 := put_lt b 4
  have h3 := put_lt r 3
  have h4 := put_lt n 2
  have h5 := put_lt g 0
  exact of_word rfl rfl (by omega)

theorem fscale (d a b : BitVec 7) (r n : BitVec 1) (g : BitVec 2) : Statement (.fscale d a b r n g) := by
  have h0 := put_lt d 18
  have h1 := put_lt a 11
  have h2 := put_lt b 4
  have h3 := put_lt r 3
  have h4 := put_lt n 2
  have h5 := put_lt g 0
  exact of_word rfl rfl (by omega)

theorem fadd2F16 (d a b : BitVec 7) (r n : BitVec 1) (g : BitVec 2) : Statement (.fadd2F16 d a b r n g) := by
  have h0 := put_lt d 18
  have h1 := put_lt a 11
  have h2 := put_lt b 4
  have h3 := put_lt r 3
  have h4 := put_lt n 2
  have h5 := put_lt g 0
  exact of_word rfl rfl (by omega)

theorem fadd2Bf16 (d a b : BitVec 7) (r n : BitVec 1) (g : BitVec 2) : Statement (.fadd2Bf16 d a b r n g) := by
  have h0 := put_lt d 18
  have h1 := put_lt a 11
  have h2 := put_lt b 4
  have h3 := put_lt r 3
  have h4 := put_lt n 2
  have h5 := put_lt g 0
  exact of_word rfl rfl (by omega)

theorem ffma2F16 (d a b : BitVec 7) (r n : BitVec 1) (g : BitVec 2) : Statement (.ffma2F16 d a b r n g) := by
  have h0 := put_lt d 18
  have h1 := put_lt a 11
  have h2 := put_lt b 4
  have h3 := put_lt r 3
  have h4 := put_lt n 2
  have h5 := put_lt g 0
  exact of_word rfl rfl (by omega)

theorem ffma2Bf16 (d a b : BitVec 7) (r n : BitVec 1) (g : BitVec 2) : Statement (.ffma2Bf16 d a b r n g) := by
  have h0 := put_lt d 18
  have h1 := put_lt a 11
  have h2 := put_lt b 4
  have h3 := put_lt r 3
  have h4 := put_lt n 2
  have h5 := put_lt g 0
  exact of_word rfl rfl (by omega)

theorem fdot2F16 (d a b : BitVec 7) (r n : BitVec 1) (g : BitVec 2) : Statement (.fdot2F16 d a b r n g) := by
  have h0 := put_lt d 18
  have h1 := put_lt a 11
  have h2 := put_lt b 4
  have h3 := put_lt r 3
  have h4 := put_lt n 2
  have h5 := put_lt g 0
  exact of_word rfl rfl (by omega)

theorem fdot2Bf16 (d a b : BitVec 7) (r n : BitVec 1) (g : BitVec 2) : Statement (.fdot2Bf16 d a b r n g) := by
  have h0 := put_lt d 18
  have h1 := put_lt a 11
  have h2 := put_lt b 4
  have h3 := put_lt r 3
  have h4 := put_lt n 2
  have h5 := put_lt g 0
  exact of_word rfl rfl (by omega)

theorem cvt (d a : BitVec 7) (t s : BitVec 4) (e : BitVec 3) : Statement (.cvt d a t s e) := by
  have h0 := put_lt d 18
  have h1 := put_lt a 11
  have h2 := put_lt t 7
  have h3 := put_lt s 3
  have h4 := put_lt e 0
  exact of_word rfl rfl (by omega)

theorem cvtn (d a : BitVec 7) (t s : BitVec 4) (e : BitVec 3) : Statement (.cvtn d a t s e) := by
  have h0 := put_lt d 18
  have h1 := put_lt a 11
  have h2 := put_lt t 7
  have h3 := put_lt s 3
  have h4 := put_lt e 0
  exact of_word rfl rfl (by omega)

theorem packF8e4 (d a b : BitVec 7) (r h : BitVec 1) (g : BitVec 2) : Statement (.packF8e4 d a b r h g) := by
  have h0 := put_lt d 18
  have h1 := put_lt a 11
  have h2 := put_lt b 4
  have h3 := put_lt r 3
  have h4 := put_lt h 2
  have h5 := put_lt g 0
  exact of_word rfl rfl (by omega)

theorem packF8e5 (d a b : BitVec 7) (r h : BitVec 1) (g : BitVec 2) : Statement (.packF8e5 d a b r h g) := by
  have h0 := put_lt d 18
  have h1 := put_lt a 11
  have h2 := put_lt b 4
  have h3 := put_lt r 3
  have h4 := put_lt h 2
  have h5 := put_lt g 0
  exact of_word rfl rfl (by omega)

theorem unpack (d a b : BitVec 7) (s : BitVec 1) : Statement (.unpack d a b s) := by
  have h0 := put_lt d 18
  have h1 := put_lt a 11
  have h2 := put_lt b 4
  have h3 := put_lt s 0
  exact of_word rfl rfl (by omega)

theorem qblk (d a : BitVec 7) (s : BitVec 1) : Statement (.qblk d a s) := by
  have h0 := put_lt d 18
  have h1 := put_lt a 11
  have h2 := put_lt s 0
  exact of_word rfl rfl (by omega)

theorem sfn (d a f : BitVec 7) (r n : BitVec 1) (g : BitVec 2) : Statement (.sfn d a f r n g) := by
  have h0 := put_lt d 18
  have h1 := put_lt a 11
  have h2 := put_lt f 4
  have h3 := put_lt r 3
  have h4 := put_lt n 2
  have h5 := put_lt g 0
  exact of_word rfl rfl (by omega)

theorem vote (d a b : BitVec 7) (s : BitVec 4) : Statement (.vote d a b s) := by
  have h0 := put_lt d 18
  have h1 := put_lt a 11
  have h2 := put_lt b 4
  have h3 := put_lt s 0
  exact of_word rfl rfl (by omega)

theorem shfl (d a b : BitVec 7) (s : BitVec 4) : Statement (.shfl d a b s) := by
  have h0 := put_lt d 18
  have h1 := put_lt a 11
  have h2 := put_lt b 4
  have h3 := put_lt s 0
  exact of_word rfl rfl (by omega)

theorem perm (d a : BitVec 7) (p : BitVec 6) (s : BitVec 4) : Statement (.perm d a p s) := by
  have h0 := put_lt d 18
  have h1 := put_lt a 11
  have h2 := put_lt p 4
  have h3 := put_lt s 0
  exact of_word rfl rfl (by omega)

theorem redx (d a b : BitVec 7) (s : BitVec 4) : Statement (.redx d a b s) := by
  have h0 := put_lt d 18
  have h1 := put_lt a 11
  have h2 := put_lt b 4
  have h3 := put_lt s 0
  exact of_word rfl rfl (by omega)

theorem scanx (d a b : BitVec 7) (s : BitVec 4) : Statement (.scanx d a b s) := by
  have h0 := put_lt d 18
  have h1 := put_lt a 11
  have h2 := put_lt b 4
  have h3 := put_lt s 0
  exact of_word rfl rfl (by omega)

theorem matchx (d a b : BitVec 7) (s : BitVec 4) : Statement (.matchx d a b s) := by
  have h0 := put_lt d 18
  have h1 := put_lt a 11
  have h2 := put_lt b 4
  have h3 := put_lt s 0
  exact of_word rfl rfl (by omega)

theorem elect (e : BitVec 2) (b : BitVec 7) : Statement (.elect e b) := by
  have h0 := put_lt e 18
  have h1 := put_lt b 4
  exact of_word rfl rfl (by omega)

theorem crossLaneComplete (rill : Nat) (pc : DWord) : Statement (.crossLaneComplete rill pc) := of_event rfl rfl

theorem ld8 (d a : BitVec 7) (o : BitVec 3) (f : BitVec 4) (r g : BitVec 2) : Statement (.ld8 d a o f r g) := by
  have h0 := put_lt d 18
  have h1 := put_lt a 11
  have h2 := put_lt o 8
  have h3 := put_lt f 4
  have h4 := put_lt r 2
  have h5 := put_lt g 0
  exact of_word rfl rfl (by omega)

theorem ld16 (d a : BitVec 7) (o : BitVec 3) (f : BitVec 4) (r g : BitVec 2) : Statement (.ld16 d a o f r g) := by
  have h0 := put_lt d 18
  have h1 := put_lt a 11
  have h2 := put_lt o 8
  have h3 := put_lt f 4
  have h4 := put_lt r 2
  have h5 := put_lt g 0
  exact of_word rfl rfl (by omega)

theorem ld32 (d a : BitVec 7) (o : BitVec 3) (f : BitVec 4) (r g : BitVec 2) : Statement (.ld32 d a o f r g) := by
  have h0 := put_lt d 18
  have h1 := put_lt a 11
  have h2 := put_lt o 8
  have h3 := put_lt f 4
  have h4 := put_lt r 2
  have h5 := put_lt g 0
  exact of_word rfl rfl (by omega)

theorem ld64 (d a : BitVec 7) (o : BitVec 3) (f : BitVec 4) (r g : BitVec 2) : Statement (.ld64 d a o f r g) := by
  have h0 := put_lt d 18
  have h1 := put_lt a 11
  have h2 := put_lt o 8
  have h3 := put_lt f 4
  have h4 := put_lt r 2
  have h5 := put_lt g 0
  exact of_word rfl rfl (by omega)

theorem ld128 (d a : BitVec 7) (o : BitVec 3) (f : BitVec 4) (r g : BitVec 2) : Statement (.ld128 d a o f r g) := by
  have h0 := put_lt d 18
  have h1 := put_lt a 11
  have h2 := put_lt o 8
  have h3 := put_lt f 4
  have h4 := put_lt r 2
  have h5 := put_lt g 0
  exact of_word rfl rfl (by omega)

theorem st8 (d a : BitVec 7) (o : BitVec 3) (f : BitVec 4) (r g : BitVec 2) : Statement (.st8 d a o f r g) := by
  have h0 := put_lt d 18
  have h1 := put_lt a 11
  have h2 := put_lt o 8
  have h3 := put_lt f 4
  have h4 := put_lt r 2
  have h5 := put_lt g 0
  exact of_word rfl rfl (by omega)

theorem st16 (d a : BitVec 7) (o : BitVec 3) (f : BitVec 4) (r g : BitVec 2) : Statement (.st16 d a o f r g) := by
  have h0 := put_lt d 18
  have h1 := put_lt a 11
  have h2 := put_lt o 8
  have h3 := put_lt f 4
  have h4 := put_lt r 2
  have h5 := put_lt g 0
  exact of_word rfl rfl (by omega)

theorem st32 (d a : BitVec 7) (o : BitVec 3) (f : BitVec 4) (r g : BitVec 2) : Statement (.st32 d a o f r g) := by
  have h0 := put_lt d 18
  have h1 := put_lt a 11
  have h2 := put_lt o 8
  have h3 := put_lt f 4
  have h4 := put_lt r 2
  have h5 := put_lt g 0
  exact of_word rfl rfl (by omega)

theorem st64 (d a : BitVec 7) (o : BitVec 3) (f : BitVec 4) (r g : BitVec 2) : Statement (.st64 d a o f r g) := by
  have h0 := put_lt d 18
  have h1 := put_lt a 11
  have h2 := put_lt o 8
  have h3 := put_lt f 4
  have h4 := put_lt r 2
  have h5 := put_lt g 0
  exact of_word rfl rfl (by omega)

theorem st128 (d a : BitVec 7) (o : BitVec 3) (f : BitVec 4) (r g : BitVec 2) : Statement (.st128 d a o f r g) := by
  have h0 := put_lt d 18
  have h1 := put_lt a 11
  have h2 := put_lt o 8
  have h3 := put_lt f 4
  have h4 := put_lt r 2
  have h5 := put_lt g 0
  exact of_word rfl rfl (by omega)

theorem ldk (d a : BitVec 7) (o : BitVec 3) (f : BitVec 4) (r : BitVec 2) (z : BitVec 1) : Statement (.ldk d a o f r z) := by
  have h0 := put_lt d 18
  have h1 := put_lt a 11
  have h2 := put_lt o 8
  have h3 := put_lt f 4
  have h4 := put_lt r 2
  have h5 := put_lt z 1
  exact of_word rfl rfl (by omega)

theorem stk (d a : BitVec 7) (o : BitVec 3) (f : BitVec 4) (r : BitVec 2) (z : BitVec 1) : Statement (.stk d a o f r z) := by
  have h0 := put_lt d 18
  have h1 := put_lt a 11
  have h2 := put_lt o 8
  have h3 := put_lt f 4
  have h4 := put_lt r 2
  have h5 := put_lt z 1
  exact of_word rfl rfl (by omega)

theorem ldl (d a : BitVec 7) (z : BitVec 2) (f : BitVec 4) (g : BitVec 2) : Statement (.ldl d a z f g) := by
  have h0 := put_lt d 18
  have h1 := put_lt a 11
  have h2 := put_lt z 8
  have h3 := put_lt f 4
  have h4 := put_lt g 0
  exact of_word rfl rfl (by omega)

theorem stl (d a : BitVec 7) (z : BitVec 2) (f : BitVec 4) (g : BitVec 2) : Statement (.stl d a z f g) := by
  have h0 := put_lt d 18
  have h1 := put_lt a 11
  have h2 := put_lt z 8
  have h3 := put_lt f 4
  have h4 := put_lt g 0
  exact of_word rfl rfl (by omega)

theorem atom32 (d a : BitVec 7) (o : BitVec 3) (s : BitVec 4) (r g : BitVec 2) : Statement (.atom32 d a o s r g) := by
  have h0 := put_lt d 18
  have h1 := put_lt a 11
  have h2 := put_lt o 8
  have h3 := put_lt s 4
  have h4 := put_lt r 2
  have h5 := put_lt g 0
  exact of_word rfl rfl (by omega)

theorem atom64 (d a : BitVec 7) (o : BitVec 3) (s : BitVec 4) (r g : BitVec 2) : Statement (.atom64 d a o s r g) := by
  have h0 := put_lt d 18
  have h1 := put_lt a 11
  have h2 := put_lt o 8
  have h3 := put_lt s 4
  have h4 := put_lt r 2
  have h5 := put_lt g 0
  exact of_word rfl rfl (by omega)

theorem red32 (d a : BitVec 7) (o : BitVec 3) (s : BitVec 4) (r g : BitVec 2) : Statement (.red32 d a o s r g) := by
  have h0 := put_lt d 18
  have h1 := put_lt a 11
  have h2 := put_lt o 8
  have h3 := put_lt s 4
  have h4 := put_lt r 2
  have h5 := put_lt g 0
  exact of_word rfl rfl (by omega)

theorem red64 (d a : BitVec 7) (o : BitVec 3) (s : BitVec 4) (r g : BitVec 2) : Statement (.red64 d a o s r g) := by
  have h0 := put_lt d 18
  have h1 := put_lt a 11
  have h2 := put_lt o 8
  have h3 := put_lt s 4
  have h4 := put_lt r 2
  have h5 := put_lt g 0
  exact of_word rfl rfl (by omega)

theorem acopy (h : BitVec 1) (d a b : BitVec 7) (r l : BitVec 1) (g : BitVec 2) : Statement (.acopy h d a b r l g) := by
  have h0 := put_lt h 25
  have h1 := put_lt d 18
  have h2 := put_lt a 11
  have h3 := put_lt b 4
  have h4 := put_lt r 3
  have h5 := put_lt l 2
  have h6 := put_lt g 0
  exact of_word rfl rfl (by omega)

theorem rcopy (a : BitVec 7) (r : BitVec 1) (g : BitVec 2) : Statement (.rcopy a r g) := by
  have h0 := put_lt a 11
  have h1 := put_lt r 3
  have h2 := put_lt g 0
  exact of_word rfl rfl (by omega)

theorem pref (a : BitVec 7) (r : BitVec 1) (g : BitVec 2) : Statement (.pref a r g) := by
  have h0 := put_lt a 11
  have h1 := put_lt r 3
  have h2 := put_lt g 0
  exact of_word rfl rfl (by omega)

theorem prefSc (d a : BitVec 7) (r : BitVec 1) (g : BitVec 2) : Statement (.prefSc d a r g) := by
  have h0 := put_lt d 18
  have h1 := put_lt a 11
  have h2 := put_lt r 3
  have h3 := put_lt g 0
  exact of_word rfl rfl (by omega)

theorem invl1 (a : BitVec 7) (r : BitVec 1) (g : BitVec 2) : Statement (.invl1 a r g) := by
  have h0 := put_lt a 11
  have h1 := put_lt r 3
  have h2 := put_lt g 0
  exact of_word rfl rfl (by omega)

theorem invl1All (g : BitVec 2) : Statement (.invl1All g) := by
  have h0 := put_lt g 0
  exact of_word rfl rfl (by omega)

theorem setobs (s : BitVec 3) (a : BitVec 7) (r : BitVec 1) (g : BitVec 2) : Statement (.setobs s a r g) := by
  have h0 := put_lt s 18
  have h1 := put_lt a 11
  have h2 := put_lt r 3
  have h3 := put_lt g 0
  exact of_word rfl rfl (by omega)

theorem fence (k : BitVec 2) (m : BitVec 8) : Statement (.fence k m) := by
  have h0 := put_lt k 8
  have h1 := put_lt m 0
  exact of_word rfl rfl (by omega)

theorem tmma (a : BitVec 7) (r m : BitVec 1) (g : BitVec 2) : Statement (.tmma a r m g) := by
  have h0 := put_lt a 11
  have h1 := put_lt r 3
  have h2 := put_lt m 2
  have h3 := put_lt g 0
  exact of_word rfl rfl (by omega)

theorem tzero (s : BitVec 4) (m : BitVec 1) (g : BitVec 2) : Statement (.tzero s m g) := by
  have h0 := put_lt s 18
  have h1 := put_lt m 2
  have h2 := put_lt g 0
  exact of_word rfl rfl (by omega)

theorem tlda (t : BitVec 2) (s : BitVec 4) (a : BitVec 7) (r m : BitVec 1) (g : BitVec 2) : Statement (.tlda t s a r m g) := by
  have h0 := put_lt t 22
  have h1 := put_lt s 18
  have h2 := put_lt a 11
  have h3 := put_lt r 3
  have h4 := put_lt m 2
  have h5 := put_lt g 0
  exact of_word rfl rfl (by omega)

theorem tsta (t : BitVec 2) (s : BitVec 4) (a : BitVec 7) (r m : BitVec 1) (g : BitVec 2) : Statement (.tsta t s a r m g) := by
  have h0 := put_lt t 22
  have h1 := put_lt s 18
  have h2 := put_lt a 11
  have h3 := put_lt r 3
  have h4 := put_lt m 2
  have h5 := put_lt g 0
  exact of_word rfl rfl (by omega)

theorem tcvt (t : BitVec 2) (s : BitVec 4) (a : BitVec 7) (r m : BitVec 1) (g : BitVec 2) : Statement (.tcvt t s a r m g) := by
  have h0 := put_lt t 22
  have h1 := put_lt s 18
  have h2 := put_lt a 11
  have h3 := put_lt r 3
  have h4 := put_lt m 2
  have h5 := put_lt g 0
  exact of_word rfl rfl (by omega)

theorem twait (m : BitVec 1) (g : BitVec 2) : Statement (.twait m g) := by
  have h0 := put_lt m 2
  have h1 := put_lt g 0
  exact of_word rfl rfl (by omega)

theorem tprog (d : BitVec 7) (m : BitVec 1) (g : BitVec 2) : Statement (.tprog d m g) := by
  have h0 := put_lt d 18
  have h1 := put_lt m 2
  have h2 := put_lt g 0
  exact of_word rfl rfl (by omega)

theorem barInit (a b : BitVec 7) : Statement (.barInit a b) := by
  have h0 := put_lt a 11
  have h1 := put_lt b 4
  exact of_word rfl rfl (by omega)

theorem arrive (d a b : BitVec 7) : Statement (.arrive d a b) := by
  have h0 := put_lt d 18
  have h1 := put_lt a 11
  have h2 := put_lt b 4
  exact of_word rfl rfl (by omega)

theorem arriveD (t : BitVec 2) (a b : BitVec 7) : Statement (.arriveD t a b) := by
  have h0 := put_lt t 18
  have h1 := put_lt a 11
  have h2 := put_lt b 4
  exact of_word rfl rfl (by omega)

theorem bwait (a b : BitVec 7) : Statement (.bwait a b) := by
  have h0 := put_lt a 11
  have h1 := put_lt b 4
  exact of_word rfl rfl (by omega)

theorem ringPost (r : BitVec 4) : Statement (.ringPost r) := by
  have h0 := put_lt r 18
  exact of_word rfl rfl (by omega)

theorem ringPostSize (r s : BitVec 4) : Statement (.ringPostSize r s) := by
  have h0 := put_lt r 18
  have h1 := put_lt s 11
  exact of_word rfl rfl (by omega)

theorem ringWait (r : BitVec 4) (a : BitVec 7) : Statement (.ringWait r a) := by
  have h0 := put_lt r 18
  have h1 := put_lt a 11
  exact of_word rfl rfl (by omega)

theorem vfsend (a : BitVec 7) : Statement (.vfsend a) := by
  have h0 := put_lt a 11
  exact of_word rfl rfl (by omega)

theorem vfrecv (d : BitVec 7) : Statement (.vfrecv d) := by
  have h0 := put_lt d 18
  exact of_word rfl rfl (by omega)

theorem xacq : Statement (.xacq) := of_word rfl rfl (by decide)

theorem xrel : Statement (.xrel) := of_word rfl rfl (by decide)

theorem wbase (w k : BitVec 4) : Statement (.wbase w k) := by
  have h0 := put_lt w 11
  have h1 := put_lt k 4
  exact of_word rfl rfl (by omega)

theorem coll (a : BitVec 7) (r : BitVec 1) (g : BitVec 2) : Statement (.coll a r g) := by
  have h0 := put_lt a 11
  have h1 := put_lt r 3
  have h2 := put_lt g 0
  exact of_word rfl rfl (by omega)

theorem rop (a : BitVec 7) (r : BitVec 1) (g : BitVec 2) : Statement (.rop a r g) := by
  have h0 := put_lt a 11
  have h1 := put_lt r 3
  have h2 := put_lt g 0
  exact of_word rfl rfl (by omega)

theorem pint (a b : BitVec 7) : Statement (.pint a b) := by
  have h0 := put_lt a 11
  have h1 := put_lt b 4
  exact of_word rfl rfl (by omega)

theorem eqres (d a : BitVec 7) : Statement (.eqres d a) := by
  have h0 := put_lt d 18
  have h1 := put_lt a 11
  exact of_word rfl rfl (by omega)

theorem mfs (d : BitVec 7) (i : BitVec 12) (g : BitVec 2) : Statement (.mfs d i g) := by
  have h0 := put_lt d 18
  have h1 := put_lt i 4
  have h2 := put_lt g 0
  exact of_word rfl rfl (by omega)

theorem mts (d : BitVec 7) (i : BitVec 12) (g : BitVec 2) : Statement (.mts d i g) := by
  have h0 := put_lt d 18
  have h1 := put_lt i 4
  have h2 := put_lt g 0
  exact of_word rfl rfl (by omega)

theorem eretRetry : Statement (.eretRetry) := of_word rfl rfl (by decide)

theorem eretCont : Statement (.eretCont) := of_word rfl rfl (by decide)

theorem eretKill : Statement (.eretKill) := of_word rfl rfl (by decide)

theorem cctlClean (d : BitVec 7) : Statement (.cctlClean d) := by
  have h0 := put_lt d 18
  exact of_word rfl rfl (by omega)

theorem cctlEvict (d : BitVec 7) : Statement (.cctlEvict d) := by
  have h0 := put_lt d 18
  exact of_word rfl rfl (by omega)

theorem tlbinvAll : Statement (.tlbinvAll) := of_word rfl rfl (by decide)

theorem tlbinvCtx (d : BitVec 7) : Statement (.tlbinvCtx d) := by
  have h0 := put_lt d 18
  exact of_word rfl rfl (by omega)

theorem tlbinvPage (d : BitVec 7) : Statement (.tlbinvPage d) := by
  have h0 := put_lt d 18
  exact of_word rfl rfl (by omega)

theorem halt : Statement (.halt) := of_word rfl rfl (by decide)

theorem waitEnd (rill i : Nat) : Statement (.waitEnd rill i) := of_event rfl rfl

theorem issueDrawCycle (core : Nat) : Statement (.issueDrawCycle core) := of_event rfl rfl

theorem reservationJoin (core rill : Nat) : Statement (.reservationJoin core rill) := of_event rfl rfl

theorem epochRefill (dom : Nat) : Statement (.epochRefill dom) := of_event rfl rfl

theorem priceCommit (v : DWord) : Statement (.priceCommit v) := of_event rfl rfl

theorem corePriceSwitch (core : Nat) : Statement (.corePriceSwitch core) := of_event rfl rfl

theorem dcapWrite (dom : Nat) (v : DWord) : Statement (.dcapWrite dom v) := of_event rfl rfl

theorem qtailWrite (q : Nat) (v : DWord) : Statement (.qtailWrite q v) := of_event rfl rfl

theorem qheadWrite (q : Nat) (v : DWord) : Statement (.qheadWrite q v) := of_event rfl rfl

theorem haltClear (q : Nat) : Statement (.haltClear q) := of_event rfl rfl

theorem abort (q : Nat) : Statement (.abort q) := of_event rfl rfl

theorem registerWrite (off : Nat) (v : DWord) : Statement (.registerWrite off v) := of_event rfl rfl

theorem arbiterGrant (cp : Nat) : Statement (.arbiterGrant cp) := of_event rfl rfl

theorem fenceObjectRead (q i : Nat) : Statement (.fenceObjectRead q i) := of_event rfl rfl

theorem prologueLimit (cp : Nat) : Statement (.prologueLimit cp) := of_event rfl rfl

theorem windowInstall : Statement (.windowInstall) := of_event rfl rfl

theorem completionCountReport (die lid : Nat) : Statement (.completionCountReport die lid) := of_event rfl rfl

theorem launchRetire (lid : Nat) : Statement (.launchRetire lid) := of_event rfl rfl

theorem placementEvaluation (die : Nat) : Statement (.placementEvaluation die) := of_event rfl rfl

theorem candidateWaitLimit (die lid : Nat) : Statement (.candidateWaitLimit die lid) := of_event rfl rfl

theorem groupStart (room : Nat) : Statement (.groupStart room) := of_event rfl rfl

theorem spanReservationRequest (tower : Nat) : Statement (.spanReservationRequest tower) := of_event rfl rfl

theorem spanReservationReply (tower : Nat) : Statement (.spanReservationReply tower) := of_event rfl rfl

theorem unitPlacedReport (die lid : Nat) : Statement (.unitPlacedReport die lid) := of_event rfl rfl

theorem maskReport (die : Nat) : Statement (.maskReport die) := of_event rfl rfl

theorem loadReturn (rill id lane : Nat) (useL1 : Bool) : Statement (.loadReturn rill id lane useL1) := of_event rfl rfl

theorem storeVisible (rill id lane : Nat) : Statement (.storeVisible rill id lane) := of_event rfl rfl

theorem atomicPerform (rill id lane : Nat) : Statement (.atomicPerform rill id lane) := of_event rfl rfl

theorem vtokWrite (rill : Nat) : Statement (.vtokWrite rill) := of_event rfl rfl

theorem copyLineWrite (rill tag : Nat) : Statement (.copyLineWrite rill tag) := of_event rfl rfl

theorem deferredArrivalCount (rill i : Nat) : Statement (.deferredArrivalCount rill i) := of_event rfl rfl

theorem rcopyUnit (rill id : Nat) : Statement (.rcopyUnit rill id) := of_event rfl rfl

theorem rcopyComplete (rill id : Nat) : Statement (.rcopyComplete rill id) := of_event rfl rfl

theorem tileOperandLine (unit : Nat) (isB : Bool) : Statement (.tileOperandLine unit isB) := of_event rfl rfl

theorem tileKstep (unit : Nat) : Statement (.tileKstep unit) := of_event rfl rfl

theorem tileOpComplete (unit : Nat) : Statement (.tileOpComplete unit) := of_event rfl rfl

theorem barrierDoneMessage (group : Nat) : Statement (.barrierDoneMessage group) := of_event rfl rfl

theorem flumeEntryDelivery (chan : Nat) : Statement (.flumeEntryDelivery chan) := of_event rfl rfl

theorem flumeCredit (chan : Nat) : Statement (.flumeCredit chan) := of_event rfl rfl

theorem eventRecordWrite : Statement (.eventRecordWrite) := of_event rfl rfl

theorem eventResolve (v : DWord) : Statement (.eventResolve v) := of_event rfl rfl

theorem rillRetire (rill : Nat) : Statement (.rillRetire rill) := of_event rfl rfl

theorem preemptQueue (v : DWord) : Statement (.preemptQueue v) := of_event rfl rfl

theorem preemptRestore (v : DWord) : Statement (.preemptRestore v) := of_event rfl rfl

theorem contextSaveComplete (room : Nat) : Statement (.contextSaveComplete room) := of_event rfl rfl

theorem deferredPreemption : Statement (.deferredPreemption) := of_event rfl rfl

theorem gateLayer (tower : Nat) : Statement (.gateLayer tower) := of_event rfl rfl

theorem restoreLayer (tower : Nat) : Statement (.restoreLayer tower) := of_event rfl rfl

theorem gatePowerOff (tower : Nat) : Statement (.gatePowerOff tower) := of_event rfl rfl

theorem restoreComplete (tower : Nat) : Statement (.restoreComplete tower) := of_event rfl rfl

theorem debugHaltRequest (die : Nat) : Statement (.debugHaltRequest die) := of_event rfl rfl

theorem debugHalted (die : Nat) : Statement (.debugHalted die) := of_event rfl rfl

theorem debugRun (die : Nat) : Statement (.debugRun die) := of_event rfl rfl

theorem linkResponseWatchdog (link : Nat) : Statement (.linkResponseWatchdog link) := of_event rfl rfl

theorem packageReset : Statement (.packageReset) := of_event rfl rfl

theorem attestationAttempt (die code : Nat) : Statement (.attestationAttempt die code) := of_event rfl rfl

theorem attestationTimeout (die : Nat) : Statement (.attestationTimeout die) := of_event rfl rfl

theorem linkkey (dir : Nat) (receiver : Bool) : Statement (.linkkey dir receiver) := of_event rfl rfl

theorem dieOpen (die : Nat) : Statement (.dieOpen die) := of_event rfl rfl

theorem rollRequest (die : Nat) : Statement (.rollRequest die) := of_event rfl rfl

theorem keyRolloverCount (dir : Nat) : Statement (.keyRolloverCount dir) := of_event rfl rfl

theorem oldKeyErase (dir : Nat) : Statement (.oldKeyErase dir) := of_event rfl rfl

theorem linkTagFail (dir : Nat) (second : Bool) : Statement (.linkTagFail dir second) := of_event rfl rfl

theorem dieResetRequest (die : Nat) : Statement (.dieResetRequest die) := of_event rfl rfl

theorem drainComplete (die : Nat) : Statement (.drainComplete die) := of_event rfl rfl

theorem drainLimit (die : Nat) : Statement (.drainLimit die) := of_event rfl rfl

theorem doeRequest (kind : Nat) : Statement (.doeRequest kind) := of_event rfl rfl

theorem peerAttestation (peer : Nat) (ok : Bool) : Statement (.peerAttestation peer ok) := of_event rfl rfl

theorem pstepAssert : Statement (.pstepAssert) := of_event rfl rfl

theorem pstepRelease : Statement (.pstepRelease) := of_event rfl rfl

theorem powerStepGo (v : DWord) : Statement (.powerStepGo v) := of_event rfl rfl

theorem pcapWrite (v : DWord) : Statement (.pcapWrite v) := of_event rfl rfl

theorem weirPeriod (pdraw demand : Nat) (full : Bool) : Statement (.weirPeriod pdraw demand full) := of_event rfl rfl

theorem peerIntentMessage (dev cls fall lead : Nat) : Statement (.peerIntentMessage dev cls fall lead) := of_event rfl rfl

theorem peerIntentLapse (dev : Nat) : Statement (.peerIntentLapse dev) := of_event rfl rfl

theorem fselWrite (dom : Nat) (v : DWord) : Statement (.fselWrite dom v) := of_event rfl rfl

theorem relockDone (dom : Nat) : Statement (.relockDone dom) := of_event rfl rfl

theorem droopTrip (dom : Nat) : Statement (.droopTrip dom) := of_event rfl rfl

theorem chargeUpdate (mj : Nat) : Statement (.chargeUpdate mj) := of_event rfl rfl

theorem thermalSample (reading : Int) (sensor : Nat) : Statement (.thermalSample reading sensor) := of_event rfl rfl

theorem powerFail : Statement (.powerFail) := of_event rfl rfl

theorem saveItemComplete (atPort : Bool) : Statement (.saveItemComplete atPort) := of_event rfl rfl

theorem saveResume : Statement (.saveResume) := of_event rfl rfl

theorem saveDiscard : Statement (.saveDiscard) := of_event rfl rfl

theorem pageWalk (core ctx : Nat) (va : DWord) : Statement (.pageWalk core ctx va) := of_event rfl rfl

theorem bsizeWrite (slice : Nat) (v : DWord) : Statement (.bsizeWrite slice v) := of_event rfl rfl

theorem bsizeChangeDone (slice : Nat) : Statement (.bsizeChangeDone slice) := of_event rfl rfl

theorem treqs (i : Nat) : Statement (.treqs i) := of_event rfl rfl

theorem treqx (i : Nat) : Statement (.treqx i) := of_event rfl rfl

theorem tok (i : Nat) : Statement (.tok i) := of_event rfl rfl

theorem transientRequestTimeout (line holder : Nat) : Statement (.transientRequestTimeout line holder) := of_event rfl rfl

theorem preq (i : Nat) : Statement (.preq i) := of_event rfl rfl

theorem pact (i : Nat) : Statement (.pact i) := of_event rfl rfl

theorem pack (i : Nat) : Statement (.pack i) := of_event rfl rfl

theorem pdone (i : Nat) : Statement (.pdone i) := of_event rfl rfl

theorem pdeact (i : Nat) : Statement (.pdeact i) := of_event rfl rfl

theorem lineEvict (line tower : Nat) : Statement (.lineEvict line tower) := of_event rfl rfl

theorem coherenceRetransmit (i : Nat) : Statement (.coherenceRetransmit i) := of_event rfl rfl

theorem hostMemRead (addr kind : Nat) : Statement (.hostMemRead addr kind) := of_event rfl rfl

theorem hostMemWrite (addr : Nat) (data : List Byte) (poison : Bool) : Statement (.hostMemWrite addr data poison) := of_event rfl rfl

theorem hostWriteback (line : Nat) (data : List Byte) (shared : Bool) (poison : BitVec 2) : Statement (.hostWriteback line data shared poison) := of_event rfl rfl

theorem birspi (line : Nat) : Statement (.birspi line) := of_event rfl rfl

theorem elmLossOfLight (k : Nat) : Statement (.elmLossOfLight k) := of_event rfl rfl

theorem elmLightReturn (k : Nat) : Statement (.elmLightReturn k) := of_event rfl rfl

theorem elmenWrite (v : DWord) : Statement (.elmenWrite v) := of_event rfl rfl

theorem dataFlit (peer path : Nat) (flit : List Byte) : Statement (.dataFlit peer path flit) := of_event rfl rfl

theorem ackFlit (peer ssn : Nat) (nak : Bool) : Statement (.ackFlit peer ssn nak) := of_event rfl rfl

theorem pathControlFlit (peer kind arg : Nat) : Statement (.pathControlFlit peer kind arg) := of_event rfl rfl

theorem pathRejoin (peer path : Nat) : Statement (.pathRejoin peer path) := of_event rfl rfl

theorem replayTimeout (peer ssn : Nat) : Statement (.replayTimeout peer ssn) := of_event rfl rfl

theorem setAnnouncement : Statement (.setAnnouncement) := of_event rfl rfl

theorem holdMessage (peer : Nat) : Statement (.holdMessage peer) := of_event rfl rfl

theorem remoteRequestAbandon (req : Nat) : Statement (.remoteRequestAbandon req) := of_event rfl rfl

theorem sluiceRequest (sluice src vc n u op addr : Nat) (data : List Byte) : Statement (.sluiceRequest sluice src vc n u op addr data) := of_event rfl rfl

theorem remoteResponse (req code : Nat) (data : List Byte) : Statement (.remoteResponse req code data) := of_event rfl rfl

theorem collectiveSignalRead (i bucket : Nat) : Statement (.collectiveSignalRead i bucket) := of_event rfl rfl

theorem collectiveChunk (i bucket rank : Nat) (data exps : List Byte) (hdr : List Nat) : Statement (.collectiveChunk i bucket rank data exps hdr) := of_event rfl rfl

theorem collectiveEnd (i : Nat) : Statement (.collectiveEnd i) := of_event rfl rfl

theorem blackboxRecord : Statement (.blackboxRecord) := of_event rfl rfl

theorem blackboxClear : Statement (.blackboxClear) := of_event rfl rfl

theorem blackboxMctpRead (idx : Nat) : Statement (.blackboxMctpRead idx) := of_event rfl rfl

theorem bootRecordClear : Statement (.bootRecordClear) := of_event rfl rfl

theorem powerRemoved : Statement (.powerRemoved) := of_event rfl rfl

end Sys2Proof.Laws.Words
end

