-- ==== Sys2Proof/Laws/State.lean ====
section
/-! SUPPORT. The updates of the state: what each does to each field. -/
namespace Sys2Proof.Machine

section

/-! setRill -/
@[simp] theorem State.setRill_xblks (s : State) (k : Nat) (x : Rill) : (s.setRill k x).xblks = s.xblks := rfl
@[simp] theorem State.setRill_cores (s : State) (k : Nat) (x : Rill) : (s.setRill k x).cores = s.cores := rfl
@[simp] theorem State.setRill_tiles (s : State) (k : Nat) (x : Rill) : (s.setRill k x).tiles = s.tiles := rfl
@[simp] theorem State.setRill_rooms (s : State) (k : Nat) (x : Rill) : (s.setRill k x).rooms = s.rooms := rfl
@[simp] theorem State.setRill_groups (s : State) (k : Nat) (x : Rill) : (s.setRill k x).groups = s.groups := rfl
@[simp] theorem State.setRill_cards (s : State) (k : Nat) (x : Rill) : (s.setRill k x).cards = s.cards := rfl
@[simp] theorem State.setRill_spanReqs (s : State) (k : Nat) (x : Rill) : (s.setRill k x).spanReqs = s.spanReqs := rfl
@[simp] theorem State.setRill_launches (s : State) (k : Nat) (x : Rill) : (s.setRill k x).launches = s.launches := rfl
@[simp] theorem State.setRill_running (s : State) (k : Nat) (x : Rill) : (s.setRill k x).running = s.running := rfl
@[simp] theorem State.setRill_active (s : State) (k : Nat) (x : Rill) : (s.setRill k x).active = s.active := rfl
@[simp] theorem State.setRill_fresh (s : State) (k : Nat) (x : Rill) : (s.setRill k x).fresh = s.fresh := rfl
@[simp] theorem State.setRill_queues (s : State) (k : Nat) (x : Rill) : (s.setRill k x).queues = s.queues := rfl
@[simp] theorem State.setRill_cps (s : State) (k : Nat) (x : Rill) : (s.setRill k x).cps = s.cps := rfl
@[simp] theorem State.setRill_lastGrant (s : State) (k : Nat) (x : Rill) : (s.setRill k x).lastGrant = s.lastGrant := rfl
@[simp] theorem State.setRill_windows (s : State) (k : Nat) (x : Rill) : (s.setRill k x).windows = s.windows := rfl
@[simp] theorem State.setRill_dies (s : State) (k : Nat) (x : Rill) : (s.setRill k x).dies = s.dies := rfl
@[simp] theorem State.setRill_doms (s : State) (k : Nat) (x : Rill) : (s.setRill k x).doms = s.doms := rfl
@[simp] theorem State.setRill_links (s : State) (k : Nat) (x : Rill) : (s.setRill k x).links = s.links := rfl
@[simp] theorem State.setRill_boot (s : State) (k : Nat) (x : Rill) : (s.setRill k x).boot = s.boot := rfl
@[simp] theorem State.setRill_power (s : State) (k : Nat) (x : Rill) : (s.setRill k x).power = s.power := rfl
@[simp] theorem State.setRill_save (s : State) (k : Nat) (x : Rill) : (s.setRill k x).save = s.save := rfl
@[simp] theorem State.setRill_dram (s : State) (k : Nat) (x : Rill) : (s.setRill k x).dram = s.dram := rfl
@[simp] theorem State.setRill_basin (s : State) (k : Nat) (x : Rill) : (s.setRill k x).basin = s.basin := rfl
@[simp] theorem State.setRill_hostMem (s : State) (k : Nat) (x : Rill) : (s.setRill k x).hostMem = s.hostMem := rfl
@[simp] theorem State.setRill_bsize (s : State) (k : Nat) (x : Rill) : (s.setRill k x).bsize = s.bsize := rfl
@[simp] theorem State.setRill_bnext (s : State) (k : Nat) (x : Rill) : (s.setRill k x).bnext = s.bnext := rfl
@[simp] theorem State.setRill_roots (s : State) (k : Nat) (x : Rill) : (s.setRill k x).roots = s.roots := rfl
@[simp] theorem State.setRill_towerTlb (s : State) (k : Nat) (x : Rill) : (s.setRill k x).towerTlb = s.towerTlb := rfl
@[simp] theorem State.setRill_walker (s : State) (k : Nat) (x : Rill) : (s.setRill k x).walker = s.walker := rfl
@[simp] theorem State.setRill_coh (s : State) (k : Nat) (x : Rill) : (s.setRill k x).coh = s.coh := rfl
@[simp] theorem State.setRill_reply (s : State) (k : Nat) (x : Rill) : (s.setRill k x).reply = s.reply := rfl
@[simp] theorem State.setRill_traps (s : State) (k : Nat) (x : Rill) : (s.setRill k x).traps = s.traps := rfl
@[simp] theorem State.setRill_greq (s : State) (k : Nat) (x : Rill) : (s.setRill k x).greq = s.greq := rfl
@[simp] theorem State.setRill_gbusy (s : State) (k : Nat) (x : Rill) : (s.setRill k x).gbusy = s.gbusy := rfl
@[simp] theorem State.setRill_msix (s : State) (k : Nat) (x : Rill) : (s.setRill k x).msix = s.msix := rfl
@[simp] theorem State.setRill_mctp (s : State) (k : Nat) (x : Rill) : (s.setRill k x).mctp = s.mctp := rfl
@[simp] theorem State.setRill_stage (s : State) (k : Nat) (x : Rill) : (s.setRill k x).stage = s.stage := rfl
@[simp] theorem State.setRill_prbank (s : State) (k : Nat) (x : Rill) : (s.setRill k x).prbank = s.prbank := rfl
@[simp] theorem State.setRill_prnew (s : State) (k : Nat) (x : Rill) : (s.setRill k x).prnew = s.prnew := rfl
@[simp] theorem State.setRill_prsent (s : State) (k : Nat) (x : Rill) : (s.setRill k x).prsent = s.prsent := rfl
@[simp] theorem State.setRill_prwait (s : State) (k : Nat) (x : Rill) : (s.setRill k x).prwait = s.prwait := rfl
@[simp] theorem State.setRill_fab (s : State) (k : Nat) (x : Rill) : (s.setRill k x).fab = s.fab := rfl
@[simp] theorem State.setRill_box (s : State) (k : Nat) (x : Rill) : (s.setRill k x).box = s.box := rfl
@[simp] theorem State.setRill_agenda (s : State) (k : Nat) (x : Rill) : (s.setRill k x).agenda = s.agenda := rfl
@[simp] theorem State.setRill_fw (s : State) (k : Nat) (x : Rill) : (s.setRill k x).fw = s.fw := rfl
@[simp] theorem State.setRill_grants (s : State) (k : Nat) (x : Rill) : (s.setRill k x).grants = s.grants := rfl
@[simp] theorem State.setRill_dear (s : State) (k : Nat) (x : Rill) : (s.setRill k x).dear = s.dear := rfl
@[simp] theorem State.setRill_granted (s : State) (k : Nat) (x : Rill) : (s.setRill k x).granted = s.granted := rfl
@[simp] theorem State.setRill_cur (s : State) (k : Nat) (x : Rill) : (s.setRill k x).cur = s.cur := rfl
@[simp] theorem State.setRill_tick (s : State) (k : Nat) (x : Rill) : (s.setRill k x).tick = s.tick := rfl
@[simp] theorem State.setRill_free (s : State) (k : Nat) (x : Rill) : (s.setRill k x).free = s.free := rfl

/-! setCore -/
@[simp] theorem State.setCore_rills (s : State) (k : Nat) (x : Core) : (s.setCore k x).rills = s.rills := rfl
@[simp] theorem State.setCore_xblks (s : State) (k : Nat) (x : Core) : (s.setCore k x).xblks = s.xblks := rfl
@[simp] theorem State.setCore_tiles (s : State) (k : Nat) (x : Core) : (s.setCore k x).tiles = s.tiles := rfl
@[simp] theorem State.setCore_rooms (s : State) (k : Nat) (x : Core) : (s.setCore k x).rooms = s.rooms := rfl
@[simp] theorem State.setCore_groups (s : State) (k : Nat) (x : Core) : (s.setCore k x).groups = s.groups := rfl
@[simp] theorem State.setCore_cards (s : State) (k : Nat) (x : Core) : (s.setCore k x).cards = s.cards := rfl
@[simp] theorem State.setCore_spanReqs (s : State) (k : Nat) (x : Core) : (s.setCore k x).spanReqs = s.spanReqs := rfl
@[simp] theorem State.setCore_launches (s : State) (k : Nat) (x : Core) : (s.setCore k x).launches = s.launches := rfl
@[simp] theorem State.setCore_running (s : State) (k : Nat) (x : Core) : (s.setCore k x).running = s.running := rfl
@[simp] theorem State.setCore_active (s : State) (k : Nat) (x : Core) : (s.setCore k x).active = s.active := rfl
@[simp] theorem State.setCore_fresh (s : State) (k : Nat) (x : Core) : (s.setCore k x).fresh = s.fresh := rfl
@[simp] theorem State.setCore_queues (s : State) (k : Nat) (x : Core) : (s.setCore k x).queues = s.queues := rfl
@[simp] theorem State.setCore_cps (s : State) (k : Nat) (x : Core) : (s.setCore k x).cps = s.cps := rfl
@[simp] theorem State.setCore_lastGrant (s : State) (k : Nat) (x : Core) : (s.setCore k x).lastGrant = s.lastGrant := rfl
@[simp] theorem State.setCore_windows (s : State) (k : Nat) (x : Core) : (s.setCore k x).windows = s.windows := rfl
@[simp] theorem State.setCore_dies (s : State) (k : Nat) (x : Core) : (s.setCore k x).dies = s.dies := rfl
@[simp] theorem State.setCore_doms (s : State) (k : Nat) (x : Core) : (s.setCore k x).doms = s.doms := rfl
@[simp] theorem State.setCore_links (s : State) (k : Nat) (x : Core) : (s.setCore k x).links = s.links := rfl
@[simp] theorem State.setCore_boot (s : State) (k : Nat) (x : Core) : (s.setCore k x).boot = s.boot := rfl
@[simp] theorem State.setCore_power (s : State) (k : Nat) (x : Core) : (s.setCore k x).power = s.power := rfl
@[simp] theorem State.setCore_save (s : State) (k : Nat) (x : Core) : (s.setCore k x).save = s.save := rfl
@[simp] theorem State.setCore_dram (s : State) (k : Nat) (x : Core) : (s.setCore k x).dram = s.dram := rfl
@[simp] theorem State.setCore_basin (s : State) (k : Nat) (x : Core) : (s.setCore k x).basin = s.basin := rfl
@[simp] theorem State.setCore_hostMem (s : State) (k : Nat) (x : Core) : (s.setCore k x).hostMem = s.hostMem := rfl
@[simp] theorem State.setCore_bsize (s : State) (k : Nat) (x : Core) : (s.setCore k x).bsize = s.bsize := rfl
@[simp] theorem State.setCore_bnext (s : State) (k : Nat) (x : Core) : (s.setCore k x).bnext = s.bnext := rfl
@[simp] theorem State.setCore_roots (s : State) (k : Nat) (x : Core) : (s.setCore k x).roots = s.roots := rfl
@[simp] theorem State.setCore_towerTlb (s : State) (k : Nat) (x : Core) : (s.setCore k x).towerTlb = s.towerTlb := rfl
@[simp] theorem State.setCore_walker (s : State) (k : Nat) (x : Core) : (s.setCore k x).walker = s.walker := rfl
@[simp] theorem State.setCore_coh (s : State) (k : Nat) (x : Core) : (s.setCore k x).coh = s.coh := rfl
@[simp] theorem State.setCore_reply (s : State) (k : Nat) (x : Core) : (s.setCore k x).reply = s.reply := rfl
@[simp] theorem State.setCore_traps (s : State) (k : Nat) (x : Core) : (s.setCore k x).traps = s.traps := rfl
@[simp] theorem State.setCore_greq (s : State) (k : Nat) (x : Core) : (s.setCore k x).greq = s.greq := rfl
@[simp] theorem State.setCore_gbusy (s : State) (k : Nat) (x : Core) : (s.setCore k x).gbusy = s.gbusy := rfl
@[simp] theorem State.setCore_msix (s : State) (k : Nat) (x : Core) : (s.setCore k x).msix = s.msix := rfl
@[simp] theorem State.setCore_mctp (s : State) (k : Nat) (x : Core) : (s.setCore k x).mctp = s.mctp := rfl
@[simp] theorem State.setCore_stage (s : State) (k : Nat) (x : Core) : (s.setCore k x).stage = s.stage := rfl
@[simp] theorem State.setCore_prbank (s : State) (k : Nat) (x : Core) : (s.setCore k x).prbank = s.prbank := rfl
@[simp] theorem State.setCore_prnew (s : State) (k : Nat) (x : Core) : (s.setCore k x).prnew = s.prnew := rfl
@[simp] theorem State.setCore_prsent (s : State) (k : Nat) (x : Core) : (s.setCore k x).prsent = s.prsent := rfl
@[simp] theorem State.setCore_prwait (s : State) (k : Nat) (x : Core) : (s.setCore k x).prwait = s.prwait := rfl
@[simp] theorem State.setCore_fab (s : State) (k : Nat) (x : Core) : (s.setCore k x).fab = s.fab := rfl
@[simp] theorem State.setCore_box (s : State) (k : Nat) (x : Core) : (s.setCore k x).box = s.box := rfl
@[simp] theorem State.setCore_agenda (s : State) (k : Nat) (x : Core) : (s.setCore k x).agenda = s.agenda := rfl
@[simp] theorem State.setCore_fw (s : State) (k : Nat) (x : Core) : (s.setCore k x).fw = s.fw := rfl
@[simp] theorem State.setCore_grants (s : State) (k : Nat) (x : Core) : (s.setCore k x).grants = s.grants := rfl
@[simp] theorem State.setCore_dear (s : State) (k : Nat) (x : Core) : (s.setCore k x).dear = s.dear := rfl
@[simp] theorem State.setCore_granted (s : State) (k : Nat) (x : Core) : (s.setCore k x).granted = s.granted := rfl
@[simp] theorem State.setCore_cur (s : State) (k : Nat) (x : Core) : (s.setCore k x).cur = s.cur := rfl
@[simp] theorem State.setCore_tick (s : State) (k : Nat) (x : Core) : (s.setCore k x).tick = s.tick := rfl
@[simp] theorem State.setCore_free (s : State) (k : Nat) (x : Core) : (s.setCore k x).free = s.free := rfl

/-! setTile -/
@[simp] theorem State.setTile_rills (s : State) (k : Nat) (x : TileUnit) : (s.setTile k x).rills = s.rills := rfl
@[simp] theorem State.setTile_xblks (s : State) (k : Nat) (x : TileUnit) : (s.setTile k x).xblks = s.xblks := rfl
@[simp] theorem State.setTile_cores (s : State) (k : Nat) (x : TileUnit) : (s.setTile k x).cores = s.cores := rfl
@[simp] theorem State.setTile_rooms (s : State) (k : Nat) (x : TileUnit) : (s.setTile k x).rooms = s.rooms := rfl
@[simp] theorem State.setTile_groups (s : State) (k : Nat) (x : TileUnit) : (s.setTile k x).groups = s.groups := rfl
@[simp] theorem State.setTile_cards (s : State) (k : Nat) (x : TileUnit) : (s.setTile k x).cards = s.cards := rfl
@[simp] theorem State.setTile_spanReqs (s : State) (k : Nat) (x : TileUnit) : (s.setTile k x).spanReqs = s.spanReqs := rfl
@[simp] theorem State.setTile_launches (s : State) (k : Nat) (x : TileUnit) : (s.setTile k x).launches = s.launches := rfl
@[simp] theorem State.setTile_running (s : State) (k : Nat) (x : TileUnit) : (s.setTile k x).running = s.running := rfl
@[simp] theorem State.setTile_active (s : State) (k : Nat) (x : TileUnit) : (s.setTile k x).active = s.active := rfl
@[simp] theorem State.setTile_fresh (s : State) (k : Nat) (x : TileUnit) : (s.setTile k x).fresh = s.fresh := rfl
@[simp] theorem State.setTile_queues (s : State) (k : Nat) (x : TileUnit) : (s.setTile k x).queues = s.queues := rfl
@[simp] theorem State.setTile_cps (s : State) (k : Nat) (x : TileUnit) : (s.setTile k x).cps = s.cps := rfl
@[simp] theorem State.setTile_lastGrant (s : State) (k : Nat) (x : TileUnit) : (s.setTile k x).lastGrant = s.lastGrant := rfl
@[simp] theorem State.setTile_windows (s : State) (k : Nat) (x : TileUnit) : (s.setTile k x).windows = s.windows := rfl
@[simp] theorem State.setTile_dies (s : State) (k : Nat) (x : TileUnit) : (s.setTile k x).dies = s.dies := rfl
@[simp] theorem State.setTile_doms (s : State) (k : Nat) (x : TileUnit) : (s.setTile k x).doms = s.doms := rfl
@[simp] theorem State.setTile_links (s : State) (k : Nat) (x : TileUnit) : (s.setTile k x).links = s.links := rfl
@[simp] theorem State.setTile_boot (s : State) (k : Nat) (x : TileUnit) : (s.setTile k x).boot = s.boot := rfl
@[simp] theorem State.setTile_power (s : State) (k : Nat) (x : TileUnit) : (s.setTile k x).power = s.power := rfl
@[simp] theorem State.setTile_save (s : State) (k : Nat) (x : TileUnit) : (s.setTile k x).save = s.save := rfl
@[simp] theorem State.setTile_dram (s : State) (k : Nat) (x : TileUnit) : (s.setTile k x).dram = s.dram := rfl
@[simp] theorem State.setTile_basin (s : State) (k : Nat) (x : TileUnit) : (s.setTile k x).basin = s.basin := rfl
@[simp] theorem State.setTile_hostMem (s : State) (k : Nat) (x : TileUnit) : (s.setTile k x).hostMem = s.hostMem := rfl
@[simp] theorem State.setTile_bsize (s : State) (k : Nat) (x : TileUnit) : (s.setTile k x).bsize = s.bsize := rfl
@[simp] theorem State.setTile_bnext (s : State) (k : Nat) (x : TileUnit) : (s.setTile k x).bnext = s.bnext := rfl
@[simp] theorem State.setTile_roots (s : State) (k : Nat) (x : TileUnit) : (s.setTile k x).roots = s.roots := rfl
@[simp] theorem State.setTile_towerTlb (s : State) (k : Nat) (x : TileUnit) : (s.setTile k x).towerTlb = s.towerTlb := rfl
@[simp] theorem State.setTile_walker (s : State) (k : Nat) (x : TileUnit) : (s.setTile k x).walker = s.walker := rfl
@[simp] theorem State.setTile_coh (s : State) (k : Nat) (x : TileUnit) : (s.setTile k x).coh = s.coh := rfl
@[simp] theorem State.setTile_reply (s : State) (k : Nat) (x : TileUnit) : (s.setTile k x).reply = s.reply := rfl
@[simp] theorem State.setTile_traps (s : State) (k : Nat) (x : TileUnit) : (s.setTile k x).traps = s.traps := rfl
@[simp] theorem State.setTile_greq (s : State) (k : Nat) (x : TileUnit) : (s.setTile k x).greq = s.greq := rfl
@[simp] theorem State.setTile_gbusy (s : State) (k : Nat) (x : TileUnit) : (s.setTile k x).gbusy = s.gbusy := rfl
@[simp] theorem State.setTile_msix (s : State) (k : Nat) (x : TileUnit) : (s.setTile k x).msix = s.msix := rfl
@[simp] theorem State.setTile_mctp (s : State) (k : Nat) (x : TileUnit) : (s.setTile k x).mctp = s.mctp := rfl
@[simp] theorem State.setTile_stage (s : State) (k : Nat) (x : TileUnit) : (s.setTile k x).stage = s.stage := rfl
@[simp] theorem State.setTile_prbank (s : State) (k : Nat) (x : TileUnit) : (s.setTile k x).prbank = s.prbank := rfl
@[simp] theorem State.setTile_prnew (s : State) (k : Nat) (x : TileUnit) : (s.setTile k x).prnew = s.prnew := rfl
@[simp] theorem State.setTile_prsent (s : State) (k : Nat) (x : TileUnit) : (s.setTile k x).prsent = s.prsent := rfl
@[simp] theorem State.setTile_prwait (s : State) (k : Nat) (x : TileUnit) : (s.setTile k x).prwait = s.prwait := rfl
@[simp] theorem State.setTile_fab (s : State) (k : Nat) (x : TileUnit) : (s.setTile k x).fab = s.fab := rfl
@[simp] theorem State.setTile_box (s : State) (k : Nat) (x : TileUnit) : (s.setTile k x).box = s.box := rfl
@[simp] theorem State.setTile_agenda (s : State) (k : Nat) (x : TileUnit) : (s.setTile k x).agenda = s.agenda := rfl
@[simp] theorem State.setTile_fw (s : State) (k : Nat) (x : TileUnit) : (s.setTile k x).fw = s.fw := rfl
@[simp] theorem State.setTile_grants (s : State) (k : Nat) (x : TileUnit) : (s.setTile k x).grants = s.grants := rfl
@[simp] theorem State.setTile_dear (s : State) (k : Nat) (x : TileUnit) : (s.setTile k x).dear = s.dear := rfl
@[simp] theorem State.setTile_granted (s : State) (k : Nat) (x : TileUnit) : (s.setTile k x).granted = s.granted := rfl
@[simp] theorem State.setTile_cur (s : State) (k : Nat) (x : TileUnit) : (s.setTile k x).cur = s.cur := rfl
@[simp] theorem State.setTile_tick (s : State) (k : Nat) (x : TileUnit) : (s.setTile k x).tick = s.tick := rfl
@[simp] theorem State.setTile_free (s : State) (k : Nat) (x : TileUnit) : (s.setTile k x).free = s.free := rfl

/-! setRoom -/
@[simp] theorem State.setRoom_rills (s : State) (k : Nat) (x : Room) : (s.setRoom k x).rills = s.rills := rfl
@[simp] theorem State.setRoom_xblks (s : State) (k : Nat) (x : Room) : (s.setRoom k x).xblks = s.xblks := rfl
@[simp] theorem State.setRoom_cores (s : State) (k : Nat) (x : Room) : (s.setRoom k x).cores = s.cores := rfl
@[simp] theorem State.setRoom_tiles (s : State) (k : Nat) (x : Room) : (s.setRoom k x).tiles = s.tiles := rfl
@[simp] theorem State.setRoom_groups (s : State) (k : Nat) (x : Room) : (s.setRoom k x).groups = s.groups := rfl
@[simp] theorem State.setRoom_cards (s : State) (k : Nat) (x : Room) : (s.setRoom k x).cards = s.cards := rfl
@[simp] theorem State.setRoom_spanReqs (s : State) (k : Nat) (x : Room) : (s.setRoom k x).spanReqs = s.spanReqs := rfl
@[simp] theorem State.setRoom_launches (s : State) (k : Nat) (x : Room) : (s.setRoom k x).launches = s.launches := rfl
@[simp] theorem State.setRoom_running (s : State) (k : Nat) (x : Room) : (s.setRoom k x).running = s.running := rfl
@[simp] theorem State.setRoom_active (s : State) (k : Nat) (x : Room) : (s.setRoom k x).active = s.active := rfl
@[simp] theorem State.setRoom_fresh (s : State) (k : Nat) (x : Room) : (s.setRoom k x).fresh = s.fresh := rfl
@[simp] theorem State.setRoom_queues (s : State) (k : Nat) (x : Room) : (s.setRoom k x).queues = s.queues := rfl
@[simp] theorem State.setRoom_cps (s : State) (k : Nat) (x : Room) : (s.setRoom k x).cps = s.cps := rfl
@[simp] theorem State.setRoom_lastGrant (s : State) (k : Nat) (x : Room) : (s.setRoom k x).lastGrant = s.lastGrant := rfl
@[simp] theorem State.setRoom_windows (s : State) (k : Nat) (x : Room) : (s.setRoom k x).windows = s.windows := rfl
@[simp] theorem State.setRoom_dies (s : State) (k : Nat) (x : Room) : (s.setRoom k x).dies = s.dies := rfl
@[simp] theorem State.setRoom_doms (s : State) (k : Nat) (x : Room) : (s.setRoom k x).doms = s.doms := rfl
@[simp] theorem State.setRoom_links (s : State) (k : Nat) (x : Room) : (s.setRoom k x).links = s.links := rfl
@[simp] theorem State.setRoom_boot (s : State) (k : Nat) (x : Room) : (s.setRoom k x).boot = s.boot := rfl
@[simp] theorem State.setRoom_power (s : State) (k : Nat) (x : Room) : (s.setRoom k x).power = s.power := rfl
@[simp] theorem State.setRoom_save (s : State) (k : Nat) (x : Room) : (s.setRoom k x).save = s.save := rfl
@[simp] theorem State.setRoom_dram (s : State) (k : Nat) (x : Room) : (s.setRoom k x).dram = s.dram := rfl
@[simp] theorem State.setRoom_basin (s : State) (k : Nat) (x : Room) : (s.setRoom k x).basin = s.basin := rfl
@[simp] theorem State.setRoom_hostMem (s : State) (k : Nat) (x : Room) : (s.setRoom k x).hostMem = s.hostMem := rfl
@[simp] theorem State.setRoom_bsize (s : State) (k : Nat) (x : Room) : (s.setRoom k x).bsize = s.bsize := rfl
@[simp] theorem State.setRoom_bnext (s : State) (k : Nat) (x : Room) : (s.setRoom k x).bnext = s.bnext := rfl
@[simp] theorem State.setRoom_roots (s : State) (k : Nat) (x : Room) : (s.setRoom k x).roots = s.roots := rfl
@[simp] theorem State.setRoom_towerTlb (s : State) (k : Nat) (x : Room) : (s.setRoom k x).towerTlb = s.towerTlb := rfl
@[simp] theorem State.setRoom_walker (s : State) (k : Nat) (x : Room) : (s.setRoom k x).walker = s.walker := rfl
@[simp] theorem State.setRoom_coh (s : State) (k : Nat) (x : Room) : (s.setRoom k x).coh = s.coh := rfl
@[simp] theorem State.setRoom_reply (s : State) (k : Nat) (x : Room) : (s.setRoom k x).reply = s.reply := rfl
@[simp] theorem State.setRoom_traps (s : State) (k : Nat) (x : Room) : (s.setRoom k x).traps = s.traps := rfl
@[simp] theorem State.setRoom_greq (s : State) (k : Nat) (x : Room) : (s.setRoom k x).greq = s.greq := rfl
@[simp] theorem State.setRoom_gbusy (s : State) (k : Nat) (x : Room) : (s.setRoom k x).gbusy = s.gbusy := rfl
@[simp] theorem State.setRoom_msix (s : State) (k : Nat) (x : Room) : (s.setRoom k x).msix = s.msix := rfl
@[simp] theorem State.setRoom_mctp (s : State) (k : Nat) (x : Room) : (s.setRoom k x).mctp = s.mctp := rfl
@[simp] theorem State.setRoom_stage (s : State) (k : Nat) (x : Room) : (s.setRoom k x).stage = s.stage := rfl
@[simp] theorem State.setRoom_prbank (s : State) (k : Nat) (x : Room) : (s.setRoom k x).prbank = s.prbank := rfl
@[simp] theorem State.setRoom_prnew (s : State) (k : Nat) (x : Room) : (s.setRoom k x).prnew = s.prnew := rfl
@[simp] theorem State.setRoom_prsent (s : State) (k : Nat) (x : Room) : (s.setRoom k x).prsent = s.prsent := rfl
@[simp] theorem State.setRoom_prwait (s : State) (k : Nat) (x : Room) : (s.setRoom k x).prwait = s.prwait := rfl
@[simp] theorem State.setRoom_fab (s : State) (k : Nat) (x : Room) : (s.setRoom k x).fab = s.fab := rfl
@[simp] theorem State.setRoom_box (s : State) (k : Nat) (x : Room) : (s.setRoom k x).box = s.box := rfl
@[simp] theorem State.setRoom_agenda (s : State) (k : Nat) (x : Room) : (s.setRoom k x).agenda = s.agenda := rfl
@[simp] theorem State.setRoom_fw (s : State) (k : Nat) (x : Room) : (s.setRoom k x).fw = s.fw := rfl
@[simp] theorem State.setRoom_grants (s : State) (k : Nat) (x : Room) : (s.setRoom k x).grants = s.grants := rfl
@[simp] theorem State.setRoom_dear (s : State) (k : Nat) (x : Room) : (s.setRoom k x).dear = s.dear := rfl
@[simp] theorem State.setRoom_granted (s : State) (k : Nat) (x : Room) : (s.setRoom k x).granted = s.granted := rfl
@[simp] theorem State.setRoom_cur (s : State) (k : Nat) (x : Room) : (s.setRoom k x).cur = s.cur := rfl
@[simp] theorem State.setRoom_tick (s : State) (k : Nat) (x : Room) : (s.setRoom k x).tick = s.tick := rfl
@[simp] theorem State.setRoom_free (s : State) (k : Nat) (x : Room) : (s.setRoom k x).free = s.free := rfl

/-! setGroup -/
@[simp] theorem State.setGroup_rills (s : State) (k : Nat) (x : Group) : (s.setGroup k x).rills = s.rills := rfl
@[simp] theorem State.setGroup_xblks (s : State) (k : Nat) (x : Group) : (s.setGroup k x).xblks = s.xblks := rfl
@[simp] theorem State.setGroup_cores (s : State) (k : Nat) (x : Group) : (s.setGroup k x).cores = s.cores := rfl
@[simp] theorem State.setGroup_tiles (s : State) (k : Nat) (x : Group) : (s.setGroup k x).tiles = s.tiles := rfl
@[simp] theorem State.setGroup_rooms (s : State) (k : Nat) (x : Group) : (s.setGroup k x).rooms = s.rooms := rfl
@[simp] theorem State.setGroup_cards (s : State) (k : Nat) (x : Group) : (s.setGroup k x).cards = s.cards := rfl
@[simp] theorem State.setGroup_spanReqs (s : State) (k : Nat) (x : Group) : (s.setGroup k x).spanReqs = s.spanReqs := rfl
@[simp] theorem State.setGroup_launches (s : State) (k : Nat) (x : Group) : (s.setGroup k x).launches = s.launches := rfl
@[simp] theorem State.setGroup_running (s : State) (k : Nat) (x : Group) : (s.setGroup k x).running = s.running := rfl
@[simp] theorem State.setGroup_active (s : State) (k : Nat) (x : Group) : (s.setGroup k x).active = s.active := rfl
@[simp] theorem State.setGroup_fresh (s : State) (k : Nat) (x : Group) : (s.setGroup k x).fresh = s.fresh := rfl
@[simp] theorem State.setGroup_queues (s : State) (k : Nat) (x : Group) : (s.setGroup k x).queues = s.queues := rfl
@[simp] theorem State.setGroup_cps (s : State) (k : Nat) (x : Group) : (s.setGroup k x).cps = s.cps := rfl
@[simp] theorem State.setGroup_lastGrant (s : State) (k : Nat) (x : Group) : (s.setGroup k x).lastGrant = s.lastGrant := rfl
@[simp] theorem State.setGroup_windows (s : State) (k : Nat) (x : Group) : (s.setGroup k x).windows = s.windows := rfl
@[simp] theorem State.setGroup_dies (s : State) (k : Nat) (x : Group) : (s.setGroup k x).dies = s.dies := rfl
@[simp] theorem State.setGroup_doms (s : State) (k : Nat) (x : Group) : (s.setGroup k x).doms = s.doms := rfl
@[simp] theorem State.setGroup_links (s : State) (k : Nat) (x : Group) : (s.setGroup k x).links = s.links := rfl
@[simp] theorem State.setGroup_boot (s : State) (k : Nat) (x : Group) : (s.setGroup k x).boot = s.boot := rfl
@[simp] theorem State.setGroup_power (s : State) (k : Nat) (x : Group) : (s.setGroup k x).power = s.power := rfl
@[simp] theorem State.setGroup_save (s : State) (k : Nat) (x : Group) : (s.setGroup k x).save = s.save := rfl
@[simp] theorem State.setGroup_dram (s : State) (k : Nat) (x : Group) : (s.setGroup k x).dram = s.dram := rfl
@[simp] theorem State.setGroup_basin (s : State) (k : Nat) (x : Group) : (s.setGroup k x).basin = s.basin := rfl
@[simp] theorem State.setGroup_hostMem (s : State) (k : Nat) (x : Group) : (s.setGroup k x).hostMem = s.hostMem := rfl
@[simp] theorem State.setGroup_bsize (s : State) (k : Nat) (x : Group) : (s.setGroup k x).bsize = s.bsize := rfl
@[simp] theorem State.setGroup_bnext (s : State) (k : Nat) (x : Group) : (s.setGroup k x).bnext = s.bnext := rfl
@[simp] theorem State.setGroup_roots (s : State) (k : Nat) (x : Group) : (s.setGroup k x).roots = s.roots := rfl
@[simp] theorem State.setGroup_towerTlb (s : State) (k : Nat) (x : Group) : (s.setGroup k x).towerTlb = s.towerTlb := rfl
@[simp] theorem State.setGroup_walker (s : State) (k : Nat) (x : Group) : (s.setGroup k x).walker = s.walker := rfl
@[simp] theorem State.setGroup_coh (s : State) (k : Nat) (x : Group) : (s.setGroup k x).coh = s.coh := rfl
@[simp] theorem State.setGroup_reply (s : State) (k : Nat) (x : Group) : (s.setGroup k x).reply = s.reply := rfl
@[simp] theorem State.setGroup_traps (s : State) (k : Nat) (x : Group) : (s.setGroup k x).traps = s.traps := rfl
@[simp] theorem State.setGroup_greq (s : State) (k : Nat) (x : Group) : (s.setGroup k x).greq = s.greq := rfl
@[simp] theorem State.setGroup_gbusy (s : State) (k : Nat) (x : Group) : (s.setGroup k x).gbusy = s.gbusy := rfl
@[simp] theorem State.setGroup_msix (s : State) (k : Nat) (x : Group) : (s.setGroup k x).msix = s.msix := rfl
@[simp] theorem State.setGroup_mctp (s : State) (k : Nat) (x : Group) : (s.setGroup k x).mctp = s.mctp := rfl
@[simp] theorem State.setGroup_stage (s : State) (k : Nat) (x : Group) : (s.setGroup k x).stage = s.stage := rfl
@[simp] theorem State.setGroup_prbank (s : State) (k : Nat) (x : Group) : (s.setGroup k x).prbank = s.prbank := rfl
@[simp] theorem State.setGroup_prnew (s : State) (k : Nat) (x : Group) : (s.setGroup k x).prnew = s.prnew := rfl
@[simp] theorem State.setGroup_prsent (s : State) (k : Nat) (x : Group) : (s.setGroup k x).prsent = s.prsent := rfl
@[simp] theorem State.setGroup_prwait (s : State) (k : Nat) (x : Group) : (s.setGroup k x).prwait = s.prwait := rfl
@[simp] theorem State.setGroup_fab (s : State) (k : Nat) (x : Group) : (s.setGroup k x).fab = s.fab := rfl
@[simp] theorem State.setGroup_box (s : State) (k : Nat) (x : Group) : (s.setGroup k x).box = s.box := rfl
@[simp] theorem State.setGroup_agenda (s : State) (k : Nat) (x : Group) : (s.setGroup k x).agenda = s.agenda := rfl
@[simp] theorem State.setGroup_fw (s : State) (k : Nat) (x : Group) : (s.setGroup k x).fw = s.fw := rfl
@[simp] theorem State.setGroup_grants (s : State) (k : Nat) (x : Group) : (s.setGroup k x).grants = s.grants := rfl
@[simp] theorem State.setGroup_dear (s : State) (k : Nat) (x : Group) : (s.setGroup k x).dear = s.dear := rfl
@[simp] theorem State.setGroup_granted (s : State) (k : Nat) (x : Group) : (s.setGroup k x).granted = s.granted := rfl
@[simp] theorem State.setGroup_cur (s : State) (k : Nat) (x : Group) : (s.setGroup k x).cur = s.cur := rfl
@[simp] theorem State.setGroup_tick (s : State) (k : Nat) (x : Group) : (s.setGroup k x).tick = s.tick := rfl
@[simp] theorem State.setGroup_free (s : State) (k : Nat) (x : Group) : (s.setGroup k x).free = s.free := rfl

/-! setCard -/
@[simp] theorem State.setCard_rills (s : State) (k : Nat) (x : Card) : (s.setCard k x).rills = s.rills := rfl
@[simp] theorem State.setCard_xblks (s : State) (k : Nat) (x : Card) : (s.setCard k x).xblks = s.xblks := rfl
@[simp] theorem State.setCard_cores (s : State) (k : Nat) (x : Card) : (s.setCard k x).cores = s.cores := rfl
@[simp] theorem State.setCard_tiles (s : State) (k : Nat) (x : Card) : (s.setCard k x).tiles = s.tiles := rfl
@[simp] theorem State.setCard_rooms (s : State) (k : Nat) (x : Card) : (s.setCard k x).rooms = s.rooms := rfl
@[simp] theorem State.setCard_groups (s : State) (k : Nat) (x : Card) : (s.setCard k x).groups = s.groups := rfl
@[simp] theorem State.setCard_spanReqs (s : State) (k : Nat) (x : Card) : (s.setCard k x).spanReqs = s.spanReqs := rfl
@[simp] theorem State.setCard_launches (s : State) (k : Nat) (x : Card) : (s.setCard k x).launches = s.launches := rfl
@[simp] theorem State.setCard_running (s : State) (k : Nat) (x : Card) : (s.setCard k x).running = s.running := rfl
@[simp] theorem State.setCard_active (s : State) (k : Nat) (x : Card) : (s.setCard k x).active = s.active := rfl
@[simp] theorem State.setCard_fresh (s : State) (k : Nat) (x : Card) : (s.setCard k x).fresh = s.fresh := rfl
@[simp] theorem State.setCard_queues (s : State) (k : Nat) (x : Card) : (s.setCard k x).queues = s.queues := rfl
@[simp] theorem State.setCard_cps (s : State) (k : Nat) (x : Card) : (s.setCard k x).cps = s.cps := rfl
@[simp] theorem State.setCard_lastGrant (s : State) (k : Nat) (x : Card) : (s.setCard k x).lastGrant = s.lastGrant := rfl
@[simp] theorem State.setCard_windows (s : State) (k : Nat) (x : Card) : (s.setCard k x).windows = s.windows := rfl
@[simp] theorem State.setCard_dies (s : State) (k : Nat) (x : Card) : (s.setCard k x).dies = s.dies := rfl
@[simp] theorem State.setCard_doms (s : State) (k : Nat) (x : Card) : (s.setCard k x).doms = s.doms := rfl
@[simp] theorem State.setCard_links (s : State) (k : Nat) (x : Card) : (s.setCard k x).links = s.links := rfl
@[simp] theorem State.setCard_boot (s : State) (k : Nat) (x : Card) : (s.setCard k x).boot = s.boot := rfl
@[simp] theorem State.setCard_power (s : State) (k : Nat) (x : Card) : (s.setCard k x).power = s.power := rfl
@[simp] theorem State.setCard_save (s : State) (k : Nat) (x : Card) : (s.setCard k x).save = s.save := rfl
@[simp] theorem State.setCard_dram (s : State) (k : Nat) (x : Card) : (s.setCard k x).dram = s.dram := rfl
@[simp] theorem State.setCard_basin (s : State) (k : Nat) (x : Card) : (s.setCard k x).basin = s.basin := rfl
@[simp] theorem State.setCard_hostMem (s : State) (k : Nat) (x : Card) : (s.setCard k x).hostMem = s.hostMem := rfl
@[simp] theorem State.setCard_bsize (s : State) (k : Nat) (x : Card) : (s.setCard k x).bsize = s.bsize := rfl
@[simp] theorem State.setCard_bnext (s : State) (k : Nat) (x : Card) : (s.setCard k x).bnext = s.bnext := rfl
@[simp] theorem State.setCard_roots (s : State) (k : Nat) (x : Card) : (s.setCard k x).roots = s.roots := rfl
@[simp] theorem State.setCard_towerTlb (s : State) (k : Nat) (x : Card) : (s.setCard k x).towerTlb = s.towerTlb := rfl
@[simp] theorem State.setCard_walker (s : State) (k : Nat) (x : Card) : (s.setCard k x).walker = s.walker := rfl
@[simp] theorem State.setCard_coh (s : State) (k : Nat) (x : Card) : (s.setCard k x).coh = s.coh := rfl
@[simp] theorem State.setCard_reply (s : State) (k : Nat) (x : Card) : (s.setCard k x).reply = s.reply := rfl
@[simp] theorem State.setCard_traps (s : State) (k : Nat) (x : Card) : (s.setCard k x).traps = s.traps := rfl
@[simp] theorem State.setCard_greq (s : State) (k : Nat) (x : Card) : (s.setCard k x).greq = s.greq := rfl
@[simp] theorem State.setCard_gbusy (s : State) (k : Nat) (x : Card) : (s.setCard k x).gbusy = s.gbusy := rfl
@[simp] theorem State.setCard_msix (s : State) (k : Nat) (x : Card) : (s.setCard k x).msix = s.msix := rfl
@[simp] theorem State.setCard_mctp (s : State) (k : Nat) (x : Card) : (s.setCard k x).mctp = s.mctp := rfl
@[simp] theorem State.setCard_stage (s : State) (k : Nat) (x : Card) : (s.setCard k x).stage = s.stage := rfl
@[simp] theorem State.setCard_prbank (s : State) (k : Nat) (x : Card) : (s.setCard k x).prbank = s.prbank := rfl
@[simp] theorem State.setCard_prnew (s : State) (k : Nat) (x : Card) : (s.setCard k x).prnew = s.prnew := rfl
@[simp] theorem State.setCard_prsent (s : State) (k : Nat) (x : Card) : (s.setCard k x).prsent = s.prsent := rfl
@[simp] theorem State.setCard_prwait (s : State) (k : Nat) (x : Card) : (s.setCard k x).prwait = s.prwait := rfl
@[simp] theorem State.setCard_fab (s : State) (k : Nat) (x : Card) : (s.setCard k x).fab = s.fab := rfl
@[simp] theorem State.setCard_box (s : State) (k : Nat) (x : Card) : (s.setCard k x).box = s.box := rfl
@[simp] theorem State.setCard_agenda (s : State) (k : Nat) (x : Card) : (s.setCard k x).agenda = s.agenda := rfl
@[simp] theorem State.setCard_fw (s : State) (k : Nat) (x : Card) : (s.setCard k x).fw = s.fw := rfl
@[simp] theorem State.setCard_grants (s : State) (k : Nat) (x : Card) : (s.setCard k x).grants = s.grants := rfl
@[simp] theorem State.setCard_dear (s : State) (k : Nat) (x : Card) : (s.setCard k x).dear = s.dear := rfl
@[simp] theorem State.setCard_granted (s : State) (k : Nat) (x : Card) : (s.setCard k x).granted = s.granted := rfl
@[simp] theorem State.setCard_cur (s : State) (k : Nat) (x : Card) : (s.setCard k x).cur = s.cur := rfl
@[simp] theorem State.setCard_tick (s : State) (k : Nat) (x : Card) : (s.setCard k x).tick = s.tick := rfl
@[simp] theorem State.setCard_free (s : State) (k : Nat) (x : Card) : (s.setCard k x).free = s.free := rfl

/-! setLaunch -/
@[simp] theorem State.setLaunch_rills (s : State) (k : Nat) (x : Launch) : (s.setLaunch k x).rills = s.rills := rfl
@[simp] theorem State.setLaunch_xblks (s : State) (k : Nat) (x : Launch) : (s.setLaunch k x).xblks = s.xblks := rfl
@[simp] theorem State.setLaunch_cores (s : State) (k : Nat) (x : Launch) : (s.setLaunch k x).cores = s.cores := rfl
@[simp] theorem State.setLaunch_tiles (s : State) (k : Nat) (x : Launch) : (s.setLaunch k x).tiles = s.tiles := rfl
@[simp] theorem State.setLaunch_rooms (s : State) (k : Nat) (x : Launch) : (s.setLaunch k x).rooms = s.rooms := rfl
@[simp] theorem State.setLaunch_groups (s : State) (k : Nat) (x : Launch) : (s.setLaunch k x).groups = s.groups := rfl
@[simp] theorem State.setLaunch_cards (s : State) (k : Nat) (x : Launch) : (s.setLaunch k x).cards = s.cards := rfl
@[simp] theorem State.setLaunch_spanReqs (s : State) (k : Nat) (x : Launch) : (s.setLaunch k x).spanReqs = s.spanReqs := rfl
@[simp] theorem State.setLaunch_running (s : State) (k : Nat) (x : Launch) : (s.setLaunch k x).running = s.running := rfl
@[simp] theorem State.setLaunch_active (s : State) (k : Nat) (x : Launch) : (s.setLaunch k x).active = s.active := rfl
@[simp] theorem State.setLaunch_fresh (s : State) (k : Nat) (x : Launch) : (s.setLaunch k x).fresh = s.fresh := rfl
@[simp] theorem State.setLaunch_queues (s : State) (k : Nat) (x : Launch) : (s.setLaunch k x).queues = s.queues := rfl
@[simp] theorem State.setLaunch_cps (s : State) (k : Nat) (x : Launch) : (s.setLaunch k x).cps = s.cps := rfl
@[simp] theorem State.setLaunch_lastGrant (s : State) (k : Nat) (x : Launch) : (s.setLaunch k x).lastGrant = s.lastGrant := rfl
@[simp] theorem State.setLaunch_windows (s : State) (k : Nat) (x : Launch) : (s.setLaunch k x).windows = s.windows := rfl
@[simp] theorem State.setLaunch_dies (s : State) (k : Nat) (x : Launch) : (s.setLaunch k x).dies = s.dies := rfl
@[simp] theorem State.setLaunch_doms (s : State) (k : Nat) (x : Launch) : (s.setLaunch k x).doms = s.doms := rfl
@[simp] theorem State.setLaunch_links (s : State) (k : Nat) (x : Launch) : (s.setLaunch k x).links = s.links := rfl
@[simp] theorem State.setLaunch_boot (s : State) (k : Nat) (x : Launch) : (s.setLaunch k x).boot = s.boot := rfl
@[simp] theorem State.setLaunch_power (s : State) (k : Nat) (x : Launch) : (s.setLaunch k x).power = s.power := rfl
@[simp] theorem State.setLaunch_save (s : State) (k : Nat) (x : Launch) : (s.setLaunch k x).save = s.save := rfl
@[simp] theorem State.setLaunch_dram (s : State) (k : Nat) (x : Launch) : (s.setLaunch k x).dram = s.dram := rfl
@[simp] theorem State.setLaunch_basin (s : State) (k : Nat) (x : Launch) : (s.setLaunch k x).basin = s.basin := rfl
@[simp] theorem State.setLaunch_hostMem (s : State) (k : Nat) (x : Launch) : (s.setLaunch k x).hostMem = s.hostMem := rfl
@[simp] theorem State.setLaunch_bsize (s : State) (k : Nat) (x : Launch) : (s.setLaunch k x).bsize = s.bsize := rfl
@[simp] theorem State.setLaunch_bnext (s : State) (k : Nat) (x : Launch) : (s.setLaunch k x).bnext = s.bnext := rfl
@[simp] theorem State.setLaunch_roots (s : State) (k : Nat) (x : Launch) : (s.setLaunch k x).roots = s.roots := rfl
@[simp] theorem State.setLaunch_towerTlb (s : State) (k : Nat) (x : Launch) : (s.setLaunch k x).towerTlb = s.towerTlb := rfl
@[simp] theorem State.setLaunch_walker (s : State) (k : Nat) (x : Launch) : (s.setLaunch k x).walker = s.walker := rfl
@[simp] theorem State.setLaunch_coh (s : State) (k : Nat) (x : Launch) : (s.setLaunch k x).coh = s.coh := rfl
@[simp] theorem State.setLaunch_reply (s : State) (k : Nat) (x : Launch) : (s.setLaunch k x).reply = s.reply := rfl
@[simp] theorem State.setLaunch_traps (s : State) (k : Nat) (x : Launch) : (s.setLaunch k x).traps = s.traps := rfl
@[simp] theorem State.setLaunch_greq (s : State) (k : Nat) (x : Launch) : (s.setLaunch k x).greq = s.greq := rfl
@[simp] theorem State.setLaunch_gbusy (s : State) (k : Nat) (x : Launch) : (s.setLaunch k x).gbusy = s.gbusy := rfl
@[simp] theorem State.setLaunch_msix (s : State) (k : Nat) (x : Launch) : (s.setLaunch k x).msix = s.msix := rfl
@[simp] theorem State.setLaunch_mctp (s : State) (k : Nat) (x : Launch) : (s.setLaunch k x).mctp = s.mctp := rfl
@[simp] theorem State.setLaunch_stage (s : State) (k : Nat) (x : Launch) : (s.setLaunch k x).stage = s.stage := rfl
@[simp] theorem State.setLaunch_prbank (s : State) (k : Nat) (x : Launch) : (s.setLaunch k x).prbank = s.prbank := rfl
@[simp] theorem State.setLaunch_prnew (s : State) (k : Nat) (x : Launch) : (s.setLaunch k x).prnew = s.prnew := rfl
@[simp] theorem State.setLaunch_prsent (s : State) (k : Nat) (x : Launch) : (s.setLaunch k x).prsent = s.prsent := rfl
@[simp] theorem State.setLaunch_prwait (s : State) (k : Nat) (x : Launch) : (s.setLaunch k x).prwait = s.prwait := rfl
@[simp] theorem State.setLaunch_fab (s : State) (k : Nat) (x : Launch) : (s.setLaunch k x).fab = s.fab := rfl
@[simp] theorem State.setLaunch_box (s : State) (k : Nat) (x : Launch) : (s.setLaunch k x).box = s.box := rfl
@[simp] theorem State.setLaunch_agenda (s : State) (k : Nat) (x : Launch) : (s.setLaunch k x).agenda = s.agenda := rfl
@[simp] theorem State.setLaunch_fw (s : State) (k : Nat) (x : Launch) : (s.setLaunch k x).fw = s.fw := rfl
@[simp] theorem State.setLaunch_grants (s : State) (k : Nat) (x : Launch) : (s.setLaunch k x).grants = s.grants := rfl
@[simp] theorem State.setLaunch_dear (s : State) (k : Nat) (x : Launch) : (s.setLaunch k x).dear = s.dear := rfl
@[simp] theorem State.setLaunch_granted (s : State) (k : Nat) (x : Launch) : (s.setLaunch k x).granted = s.granted := rfl
@[simp] theorem State.setLaunch_cur (s : State) (k : Nat) (x : Launch) : (s.setLaunch k x).cur = s.cur := rfl
@[simp] theorem State.setLaunch_tick (s : State) (k : Nat) (x : Launch) : (s.setLaunch k x).tick = s.tick := rfl
@[simp] theorem State.setLaunch_free (s : State) (k : Nat) (x : Launch) : (s.setLaunch k x).free = s.free := rfl

/-! setQueue -/
@[simp] theorem State.setQueue_rills (s : State) (k : Nat) (x : Queue) : (s.setQueue k x).rills = s.rills := rfl
@[simp] theorem State.setQueue_xblks (s : State) (k : Nat) (x : Queue) : (s.setQueue k x).xblks = s.xblks := rfl
@[simp] theorem State.setQueue_cores (s : State) (k : Nat) (x : Queue) : (s.setQueue k x).cores = s.cores := rfl
@[simp] theorem State.setQueue_tiles (s : State) (k : Nat) (x : Queue) : (s.setQueue k x).tiles = s.tiles := rfl
@[simp] theorem State.setQueue_rooms (s : State) (k : Nat) (x : Queue) : (s.setQueue k x).rooms = s.rooms := rfl
@[simp] theorem State.setQueue_groups (s : State) (k : Nat) (x : Queue) : (s.setQueue k x).groups = s.groups := rfl
@[simp] theorem State.setQueue_cards (s : State) (k : Nat) (x : Queue) : (s.setQueue k x).cards = s.cards := rfl
@[simp] theorem State.setQueue_spanReqs (s : State) (k : Nat) (x : Queue) : (s.setQueue k x).spanReqs = s.spanReqs := rfl
@[simp] theorem State.setQueue_launches (s : State) (k : Nat) (x : Queue) : (s.setQueue k x).launches = s.launches := rfl
@[simp] theorem State.setQueue_running (s : State) (k : Nat) (x : Queue) : (s.setQueue k x).running = s.running := rfl
@[simp] theorem State.setQueue_active (s : State) (k : Nat) (x : Queue) : (s.setQueue k x).active = s.active := rfl
@[simp] theorem State.setQueue_fresh (s : State) (k : Nat) (x : Queue) : (s.setQueue k x).fresh = s.fresh := rfl
@[simp] theorem State.setQueue_cps (s : State) (k : Nat) (x : Queue) : (s.setQueue k x).cps = s.cps := rfl
@[simp] theorem State.setQueue_lastGrant (s : State) (k : Nat) (x : Queue) : (s.setQueue k x).lastGrant = s.lastGrant := rfl
@[simp] theorem State.setQueue_windows (s : State) (k : Nat) (x : Queue) : (s.setQueue k x).windows = s.windows := rfl
@[simp] theorem State.setQueue_dies (s : State) (k : Nat) (x : Queue) : (s.setQueue k x).dies = s.dies := rfl
@[simp] theorem State.setQueue_doms (s : State) (k : Nat) (x : Queue) : (s.setQueue k x).doms = s.doms := rfl
@[simp] theorem State.setQueue_links (s : State) (k : Nat) (x : Queue) : (s.setQueue k x).links = s.links := rfl
@[simp] theorem State.setQueue_boot (s : State) (k : Nat) (x : Queue) : (s.setQueue k x).boot = s.boot := rfl
@[simp] theorem State.setQueue_power (s : State) (k : Nat) (x : Queue) : (s.setQueue k x).power = s.power := rfl
@[simp] theorem State.setQueue_save (s : State) (k : Nat) (x : Queue) : (s.setQueue k x).save = s.save := rfl
@[simp] theorem State.setQueue_dram (s : State) (k : Nat) (x : Queue) : (s.setQueue k x).dram = s.dram := rfl
@[simp] theorem State.setQueue_basin (s : State) (k : Nat) (x : Queue) : (s.setQueue k x).basin = s.basin := rfl
@[simp] theorem State.setQueue_hostMem (s : State) (k : Nat) (x : Queue) : (s.setQueue k x).hostMem = s.hostMem := rfl
@[simp] theorem State.setQueue_bsize (s : State) (k : Nat) (x : Queue) : (s.setQueue k x).bsize = s.bsize := rfl
@[simp] theorem State.setQueue_bnext (s : State) (k : Nat) (x : Queue) : (s.setQueue k x).bnext = s.bnext := rfl
@[simp] theorem State.setQueue_roots (s : State) (k : Nat) (x : Queue) : (s.setQueue k x).roots = s.roots := rfl
@[simp] theorem State.setQueue_towerTlb (s : State) (k : Nat) (x : Queue) : (s.setQueue k x).towerTlb = s.towerTlb := rfl
@[simp] theorem State.setQueue_walker (s : State) (k : Nat) (x : Queue) : (s.setQueue k x).walker = s.walker := rfl
@[simp] theorem State.setQueue_coh (s : State) (k : Nat) (x : Queue) : (s.setQueue k x).coh = s.coh := rfl
@[simp] theorem State.setQueue_reply (s : State) (k : Nat) (x : Queue) : (s.setQueue k x).reply = s.reply := rfl
@[simp] theorem State.setQueue_traps (s : State) (k : Nat) (x : Queue) : (s.setQueue k x).traps = s.traps := rfl
@[simp] theorem State.setQueue_greq (s : State) (k : Nat) (x : Queue) : (s.setQueue k x).greq = s.greq := rfl
@[simp] theorem State.setQueue_gbusy (s : State) (k : Nat) (x : Queue) : (s.setQueue k x).gbusy = s.gbusy := rfl
@[simp] theorem State.setQueue_msix (s : State) (k : Nat) (x : Queue) : (s.setQueue k x).msix = s.msix := rfl
@[simp] theorem State.setQueue_mctp (s : State) (k : Nat) (x : Queue) : (s.setQueue k x).mctp = s.mctp := rfl
@[simp] theorem State.setQueue_stage (s : State) (k : Nat) (x : Queue) : (s.setQueue k x).stage = s.stage := rfl
@[simp] theorem State.setQueue_prbank (s : State) (k : Nat) (x : Queue) : (s.setQueue k x).prbank = s.prbank := rfl
@[simp] theorem State.setQueue_prnew (s : State) (k : Nat) (x : Queue) : (s.setQueue k x).prnew = s.prnew := rfl
@[simp] theorem State.setQueue_prsent (s : State) (k : Nat) (x : Queue) : (s.setQueue k x).prsent = s.prsent := rfl
@[simp] theorem State.setQueue_prwait (s : State) (k : Nat) (x : Queue) : (s.setQueue k x).prwait = s.prwait := rfl
@[simp] theorem State.setQueue_fab (s : State) (k : Nat) (x : Queue) : (s.setQueue k x).fab = s.fab := rfl
@[simp] theorem State.setQueue_box (s : State) (k : Nat) (x : Queue) : (s.setQueue k x).box = s.box := rfl
@[simp] theorem State.setQueue_agenda (s : State) (k : Nat) (x : Queue) : (s.setQueue k x).agenda = s.agenda := rfl
@[simp] theorem State.setQueue_fw (s : State) (k : Nat) (x : Queue) : (s.setQueue k x).fw = s.fw := rfl
@[simp] theorem State.setQueue_grants (s : State) (k : Nat) (x : Queue) : (s.setQueue k x).grants = s.grants := rfl
@[simp] theorem State.setQueue_dear (s : State) (k : Nat) (x : Queue) : (s.setQueue k x).dear = s.dear := rfl
@[simp] theorem State.setQueue_granted (s : State) (k : Nat) (x : Queue) : (s.setQueue k x).granted = s.granted := rfl
@[simp] theorem State.setQueue_cur (s : State) (k : Nat) (x : Queue) : (s.setQueue k x).cur = s.cur := rfl
@[simp] theorem State.setQueue_tick (s : State) (k : Nat) (x : Queue) : (s.setQueue k x).tick = s.tick := rfl
@[simp] theorem State.setQueue_free (s : State) (k : Nat) (x : Queue) : (s.setQueue k x).free = s.free := rfl

/-! setCp -/
@[simp] theorem State.setCp_rills (s : State) (k : Nat) (x : CmdProc) : (s.setCp k x).rills = s.rills := rfl
@[simp] theorem State.setCp_xblks (s : State) (k : Nat) (x : CmdProc) : (s.setCp k x).xblks = s.xblks := rfl
@[simp] theorem State.setCp_cores (s : State) (k : Nat) (x : CmdProc) : (s.setCp k x).cores = s.cores := rfl
@[simp] theorem State.setCp_tiles (s : State) (k : Nat) (x : CmdProc) : (s.setCp k x).tiles = s.tiles := rfl
@[simp] theorem State.setCp_rooms (s : State) (k : Nat) (x : CmdProc) : (s.setCp k x).rooms = s.rooms := rfl
@[simp] theorem State.setCp_groups (s : State) (k : Nat) (x : CmdProc) : (s.setCp k x).groups = s.groups := rfl
@[simp] theorem State.setCp_cards (s : State) (k : Nat) (x : CmdProc) : (s.setCp k x).cards = s.cards := rfl
@[simp] theorem State.setCp_spanReqs (s : State) (k : Nat) (x : CmdProc) : (s.setCp k x).spanReqs = s.spanReqs := rfl
@[simp] theorem State.setCp_launches (s : State) (k : Nat) (x : CmdProc) : (s.setCp k x).launches = s.launches := rfl
@[simp] theorem State.setCp_running (s : State) (k : Nat) (x : CmdProc) : (s.setCp k x).running = s.running := rfl
@[simp] theorem State.setCp_active (s : State) (k : Nat) (x : CmdProc) : (s.setCp k x).active = s.active := rfl
@[simp] theorem State.setCp_fresh (s : State) (k : Nat) (x : CmdProc) : (s.setCp k x).fresh = s.fresh := rfl
@[simp] theorem State.setCp_queues (s : State) (k : Nat) (x : CmdProc) : (s.setCp k x).queues = s.queues := rfl
@[simp] theorem State.setCp_lastGrant (s : State) (k : Nat) (x : CmdProc) : (s.setCp k x).lastGrant = s.lastGrant := rfl
@[simp] theorem State.setCp_windows (s : State) (k : Nat) (x : CmdProc) : (s.setCp k x).windows = s.windows := rfl
@[simp] theorem State.setCp_dies (s : State) (k : Nat) (x : CmdProc) : (s.setCp k x).dies = s.dies := rfl
@[simp] theorem State.setCp_doms (s : State) (k : Nat) (x : CmdProc) : (s.setCp k x).doms = s.doms := rfl
@[simp] theorem State.setCp_links (s : State) (k : Nat) (x : CmdProc) : (s.setCp k x).links = s.links := rfl
@[simp] theorem State.setCp_boot (s : State) (k : Nat) (x : CmdProc) : (s.setCp k x).boot = s.boot := rfl
@[simp] theorem State.setCp_power (s : State) (k : Nat) (x : CmdProc) : (s.setCp k x).power = s.power := rfl
@[simp] theorem State.setCp_save (s : State) (k : Nat) (x : CmdProc) : (s.setCp k x).save = s.save := rfl
@[simp] theorem State.setCp_dram (s : State) (k : Nat) (x : CmdProc) : (s.setCp k x).dram = s.dram := rfl
@[simp] theorem State.setCp_basin (s : State) (k : Nat) (x : CmdProc) : (s.setCp k x).basin = s.basin := rfl
@[simp] theorem State.setCp_hostMem (s : State) (k : Nat) (x : CmdProc) : (s.setCp k x).hostMem = s.hostMem := rfl
@[simp] theorem State.setCp_bsize (s : State) (k : Nat) (x : CmdProc) : (s.setCp k x).bsize = s.bsize := rfl
@[simp] theorem State.setCp_bnext (s : State) (k : Nat) (x : CmdProc) : (s.setCp k x).bnext = s.bnext := rfl
@[simp] theorem State.setCp_roots (s : State) (k : Nat) (x : CmdProc) : (s.setCp k x).roots = s.roots := rfl
@[simp] theorem State.setCp_towerTlb (s : State) (k : Nat) (x : CmdProc) : (s.setCp k x).towerTlb = s.towerTlb := rfl
@[simp] theorem State.setCp_walker (s : State) (k : Nat) (x : CmdProc) : (s.setCp k x).walker = s.walker := rfl
@[simp] theorem State.setCp_coh (s : State) (k : Nat) (x : CmdProc) : (s.setCp k x).coh = s.coh := rfl
@[simp] theorem State.setCp_reply (s : State) (k : Nat) (x : CmdProc) : (s.setCp k x).reply = s.reply := rfl
@[simp] theorem State.setCp_traps (s : State) (k : Nat) (x : CmdProc) : (s.setCp k x).traps = s.traps := rfl
@[simp] theorem State.setCp_greq (s : State) (k : Nat) (x : CmdProc) : (s.setCp k x).greq = s.greq := rfl
@[simp] theorem State.setCp_gbusy (s : State) (k : Nat) (x : CmdProc) : (s.setCp k x).gbusy = s.gbusy := rfl
@[simp] theorem State.setCp_msix (s : State) (k : Nat) (x : CmdProc) : (s.setCp k x).msix = s.msix := rfl
@[simp] theorem State.setCp_mctp (s : State) (k : Nat) (x : CmdProc) : (s.setCp k x).mctp = s.mctp := rfl
@[simp] theorem State.setCp_stage (s : State) (k : Nat) (x : CmdProc) : (s.setCp k x).stage = s.stage := rfl
@[simp] theorem State.setCp_prbank (s : State) (k : Nat) (x : CmdProc) : (s.setCp k x).prbank = s.prbank := rfl
@[simp] theorem State.setCp_prnew (s : State) (k : Nat) (x : CmdProc) : (s.setCp k x).prnew = s.prnew := rfl
@[simp] theorem State.setCp_prsent (s : State) (k : Nat) (x : CmdProc) : (s.setCp k x).prsent = s.prsent := rfl
@[simp] theorem State.setCp_prwait (s : State) (k : Nat) (x : CmdProc) : (s.setCp k x).prwait = s.prwait := rfl
@[simp] theorem State.setCp_fab (s : State) (k : Nat) (x : CmdProc) : (s.setCp k x).fab = s.fab := rfl
@[simp] theorem State.setCp_box (s : State) (k : Nat) (x : CmdProc) : (s.setCp k x).box = s.box := rfl
@[simp] theorem State.setCp_agenda (s : State) (k : Nat) (x : CmdProc) : (s.setCp k x).agenda = s.agenda := rfl
@[simp] theorem State.setCp_fw (s : State) (k : Nat) (x : CmdProc) : (s.setCp k x).fw = s.fw := rfl
@[simp] theorem State.setCp_grants (s : State) (k : Nat) (x : CmdProc) : (s.setCp k x).grants = s.grants := rfl
@[simp] theorem State.setCp_dear (s : State) (k : Nat) (x : CmdProc) : (s.setCp k x).dear = s.dear := rfl
@[simp] theorem State.setCp_granted (s : State) (k : Nat) (x : CmdProc) : (s.setCp k x).granted = s.granted := rfl
@[simp] theorem State.setCp_cur (s : State) (k : Nat) (x : CmdProc) : (s.setCp k x).cur = s.cur := rfl
@[simp] theorem State.setCp_tick (s : State) (k : Nat) (x : CmdProc) : (s.setCp k x).tick = s.tick := rfl
@[simp] theorem State.setCp_free (s : State) (k : Nat) (x : CmdProc) : (s.setCp k x).free = s.free := rfl

/-! setDie -/
@[simp] theorem State.setDie_rills (s : State) (k : Nat) (x : Die) : (s.setDie k x).rills = s.rills := rfl
@[simp] theorem State.setDie_xblks (s : State) (k : Nat) (x : Die) : (s.setDie k x).xblks = s.xblks := rfl
@[simp] theorem State.setDie_cores (s : State) (k : Nat) (x : Die) : (s.setDie k x).cores = s.cores := rfl
@[simp] theorem State.setDie_tiles (s : State) (k : Nat) (x : Die) : (s.setDie k x).tiles = s.tiles := rfl
@[simp] theorem State.setDie_rooms (s : State) (k : Nat) (x : Die) : (s.setDie k x).rooms = s.rooms := rfl
@[simp] theorem State.setDie_groups (s : State) (k : Nat) (x : Die) : (s.setDie k x).groups = s.groups := rfl
@[simp] theorem State.setDie_cards (s : State) (k : Nat) (x : Die) : (s.setDie k x).cards = s.cards := rfl
@[simp] theorem State.setDie_spanReqs (s : State) (k : Nat) (x : Die) : (s.setDie k x).spanReqs = s.spanReqs := rfl
@[simp] theorem State.setDie_launches (s : State) (k : Nat) (x : Die) : (s.setDie k x).launches = s.launches := rfl
@[simp] theorem State.setDie_running (s : State) (k : Nat) (x : Die) : (s.setDie k x).running = s.running := rfl
@[simp] theorem State.setDie_active (s : State) (k : Nat) (x : Die) : (s.setDie k x).active = s.active := rfl
@[simp] theorem State.setDie_fresh (s : State) (k : Nat) (x : Die) : (s.setDie k x).fresh = s.fresh := rfl
@[simp] theorem State.setDie_queues (s : State) (k : Nat) (x : Die) : (s.setDie k x).queues = s.queues := rfl
@[simp] theorem State.setDie_cps (s : State) (k : Nat) (x : Die) : (s.setDie k x).cps = s.cps := rfl
@[simp] theorem State.setDie_lastGrant (s : State) (k : Nat) (x : Die) : (s.setDie k x).lastGrant = s.lastGrant := rfl
@[simp] theorem State.setDie_windows (s : State) (k : Nat) (x : Die) : (s.setDie k x).windows = s.windows := rfl
@[simp] theorem State.setDie_doms (s : State) (k : Nat) (x : Die) : (s.setDie k x).doms = s.doms := rfl
@[simp] theorem State.setDie_links (s : State) (k : Nat) (x : Die) : (s.setDie k x).links = s.links := rfl
@[simp] theorem State.setDie_boot (s : State) (k : Nat) (x : Die) : (s.setDie k x).boot = s.boot := rfl
@[simp] theorem State.setDie_power (s : State) (k : Nat) (x : Die) : (s.setDie k x).power = s.power := rfl
@[simp] theorem State.setDie_save (s : State) (k : Nat) (x : Die) : (s.setDie k x).save = s.save := rfl
@[simp] theorem State.setDie_dram (s : State) (k : Nat) (x : Die) : (s.setDie k x).dram = s.dram := rfl
@[simp] theorem State.setDie_basin (s : State) (k : Nat) (x : Die) : (s.setDie k x).basin = s.basin := rfl
@[simp] theorem State.setDie_hostMem (s : State) (k : Nat) (x : Die) : (s.setDie k x).hostMem = s.hostMem := rfl
@[simp] theorem State.setDie_bsize (s : State) (k : Nat) (x : Die) : (s.setDie k x).bsize = s.bsize := rfl
@[simp] theorem State.setDie_bnext (s : State) (k : Nat) (x : Die) : (s.setDie k x).bnext = s.bnext := rfl
@[simp] theorem State.setDie_roots (s : State) (k : Nat) (x : Die) : (s.setDie k x).roots = s.roots := rfl
@[simp] theorem State.setDie_towerTlb (s : State) (k : Nat) (x : Die) : (s.setDie k x).towerTlb = s.towerTlb := rfl
@[simp] theorem State.setDie_walker (s : State) (k : Nat) (x : Die) : (s.setDie k x).walker = s.walker := rfl
@[simp] theorem State.setDie_coh (s : State) (k : Nat) (x : Die) : (s.setDie k x).coh = s.coh := rfl
@[simp] theorem State.setDie_reply (s : State) (k : Nat) (x : Die) : (s.setDie k x).reply = s.reply := rfl
@[simp] theorem State.setDie_traps (s : State) (k : Nat) (x : Die) : (s.setDie k x).traps = s.traps := rfl
@[simp] theorem State.setDie_greq (s : State) (k : Nat) (x : Die) : (s.setDie k x).greq = s.greq := rfl
@[simp] theorem State.setDie_gbusy (s : State) (k : Nat) (x : Die) : (s.setDie k x).gbusy = s.gbusy := rfl
@[simp] theorem State.setDie_msix (s : State) (k : Nat) (x : Die) : (s.setDie k x).msix = s.msix := rfl
@[simp] theorem State.setDie_mctp (s : State) (k : Nat) (x : Die) : (s.setDie k x).mctp = s.mctp := rfl
@[simp] theorem State.setDie_stage (s : State) (k : Nat) (x : Die) : (s.setDie k x).stage = s.stage := rfl
@[simp] theorem State.setDie_prbank (s : State) (k : Nat) (x : Die) : (s.setDie k x).prbank = s.prbank := rfl
@[simp] theorem State.setDie_prnew (s : State) (k : Nat) (x : Die) : (s.setDie k x).prnew = s.prnew := rfl
@[simp] theorem State.setDie_prsent (s : State) (k : Nat) (x : Die) : (s.setDie k x).prsent = s.prsent := rfl
@[simp] theorem State.setDie_prwait (s : State) (k : Nat) (x : Die) : (s.setDie k x).prwait = s.prwait := rfl
@[simp] theorem State.setDie_fab (s : State) (k : Nat) (x : Die) : (s.setDie k x).fab = s.fab := rfl
@[simp] theorem State.setDie_box (s : State) (k : Nat) (x : Die) : (s.setDie k x).box = s.box := rfl
@[simp] theorem State.setDie_agenda (s : State) (k : Nat) (x : Die) : (s.setDie k x).agenda = s.agenda := rfl
@[simp] theorem State.setDie_fw (s : State) (k : Nat) (x : Die) : (s.setDie k x).fw = s.fw := rfl
@[simp] theorem State.setDie_grants (s : State) (k : Nat) (x : Die) : (s.setDie k x).grants = s.grants := rfl
@[simp] theorem State.setDie_dear (s : State) (k : Nat) (x : Die) : (s.setDie k x).dear = s.dear := rfl
@[simp] theorem State.setDie_granted (s : State) (k : Nat) (x : Die) : (s.setDie k x).granted = s.granted := rfl
@[simp] theorem State.setDie_cur (s : State) (k : Nat) (x : Die) : (s.setDie k x).cur = s.cur := rfl
@[simp] theorem State.setDie_tick (s : State) (k : Nat) (x : Die) : (s.setDie k x).tick = s.tick := rfl
@[simp] theorem State.setDie_free (s : State) (k : Nat) (x : Die) : (s.setDie k x).free = s.free := rfl

/-! setDom -/
@[simp] theorem State.setDom_rills (s : State) (k : Nat) (x : Dom) : (s.setDom k x).rills = s.rills := rfl
@[simp] theorem State.setDom_xblks (s : State) (k : Nat) (x : Dom) : (s.setDom k x).xblks = s.xblks := rfl
@[simp] theorem State.setDom_cores (s : State) (k : Nat) (x : Dom) : (s.setDom k x).cores = s.cores := rfl
@[simp] theorem State.setDom_tiles (s : State) (k : Nat) (x : Dom) : (s.setDom k x).tiles = s.tiles := rfl
@[simp] theorem State.setDom_rooms (s : State) (k : Nat) (x : Dom) : (s.setDom k x).rooms = s.rooms := rfl
@[simp] theorem State.setDom_groups (s : State) (k : Nat) (x : Dom) : (s.setDom k x).groups = s.groups := rfl
@[simp] theorem State.setDom_cards (s : State) (k : Nat) (x : Dom) : (s.setDom k x).cards = s.cards := rfl
@[simp] theorem State.setDom_spanReqs (s : State) (k : Nat) (x : Dom) : (s.setDom k x).spanReqs = s.spanReqs := rfl
@[simp] theorem State.setDom_launches (s : State) (k : Nat) (x : Dom) : (s.setDom k x).launches = s.launches := rfl
@[simp] theorem State.setDom_running (s : State) (k : Nat) (x : Dom) : (s.setDom k x).running = s.running := rfl
@[simp] theorem State.setDom_active (s : State) (k : Nat) (x : Dom) : (s.setDom k x).active = s.active := rfl
@[simp] theorem State.setDom_fresh (s : State) (k : Nat) (x : Dom) : (s.setDom k x).fresh = s.fresh := rfl
@[simp] theorem State.setDom_queues (s : State) (k : Nat) (x : Dom) : (s.setDom k x).queues = s.queues := rfl
@[simp] theorem State.setDom_cps (s : State) (k : Nat) (x : Dom) : (s.setDom k x).cps = s.cps := rfl
@[simp] theorem State.setDom_lastGrant (s : State) (k : Nat) (x : Dom) : (s.setDom k x).lastGrant = s.lastGrant := rfl
@[simp] theorem State.setDom_windows (s : State) (k : Nat) (x : Dom) : (s.setDom k x).windows = s.windows := rfl
@[simp] theorem State.setDom_dies (s : State) (k : Nat) (x : Dom) : (s.setDom k x).dies = s.dies := rfl
@[simp] theorem State.setDom_links (s : State) (k : Nat) (x : Dom) : (s.setDom k x).links = s.links := rfl
@[simp] theorem State.setDom_boot (s : State) (k : Nat) (x : Dom) : (s.setDom k x).boot = s.boot := rfl
@[simp] theorem State.setDom_power (s : State) (k : Nat) (x : Dom) : (s.setDom k x).power = s.power := rfl
@[simp] theorem State.setDom_save (s : State) (k : Nat) (x : Dom) : (s.setDom k x).save = s.save := rfl
@[simp] theorem State.setDom_dram (s : State) (k : Nat) (x : Dom) : (s.setDom k x).dram = s.dram := rfl
@[simp] theorem State.setDom_basin (s : State) (k : Nat) (x : Dom) : (s.setDom k x).basin = s.basin := rfl
@[simp] theorem State.setDom_hostMem (s : State) (k : Nat) (x : Dom) : (s.setDom k x).hostMem = s.hostMem := rfl
@[simp] theorem State.setDom_bsize (s : State) (k : Nat) (x : Dom) : (s.setDom k x).bsize = s.bsize := rfl
@[simp] theorem State.setDom_bnext (s : State) (k : Nat) (x : Dom) : (s.setDom k x).bnext = s.bnext := rfl
@[simp] theorem State.setDom_roots (s : State) (k : Nat) (x : Dom) : (s.setDom k x).roots = s.roots := rfl
@[simp] theorem State.setDom_towerTlb (s : State) (k : Nat) (x : Dom) : (s.setDom k x).towerTlb = s.towerTlb := rfl
@[simp] theorem State.setDom_walker (s : State) (k : Nat) (x : Dom) : (s.setDom k x).walker = s.walker := rfl
@[simp] theorem State.setDom_coh (s : State) (k : Nat) (x : Dom) : (s.setDom k x).coh = s.coh := rfl
@[simp] theorem State.setDom_reply (s : State) (k : Nat) (x : Dom) : (s.setDom k x).reply = s.reply := rfl
@[simp] theorem State.setDom_traps (s : State) (k : Nat) (x : Dom) : (s.setDom k x).traps = s.traps := rfl
@[simp] theorem State.setDom_greq (s : State) (k : Nat) (x : Dom) : (s.setDom k x).greq = s.greq := rfl
@[simp] theorem State.setDom_gbusy (s : State) (k : Nat) (x : Dom) : (s.setDom k x).gbusy = s.gbusy := rfl
@[simp] theorem State.setDom_msix (s : State) (k : Nat) (x : Dom) : (s.setDom k x).msix = s.msix := rfl
@[simp] theorem State.setDom_mctp (s : State) (k : Nat) (x : Dom) : (s.setDom k x).mctp = s.mctp := rfl
@[simp] theorem State.setDom_stage (s : State) (k : Nat) (x : Dom) : (s.setDom k x).stage = s.stage := rfl
@[simp] theorem State.setDom_prbank (s : State) (k : Nat) (x : Dom) : (s.setDom k x).prbank = s.prbank := rfl
@[simp] theorem State.setDom_prnew (s : State) (k : Nat) (x : Dom) : (s.setDom k x).prnew = s.prnew := rfl
@[simp] theorem State.setDom_prsent (s : State) (k : Nat) (x : Dom) : (s.setDom k x).prsent = s.prsent := rfl
@[simp] theorem State.setDom_prwait (s : State) (k : Nat) (x : Dom) : (s.setDom k x).prwait = s.prwait := rfl
@[simp] theorem State.setDom_fab (s : State) (k : Nat) (x : Dom) : (s.setDom k x).fab = s.fab := rfl
@[simp] theorem State.setDom_box (s : State) (k : Nat) (x : Dom) : (s.setDom k x).box = s.box := rfl
@[simp] theorem State.setDom_agenda (s : State) (k : Nat) (x : Dom) : (s.setDom k x).agenda = s.agenda := rfl
@[simp] theorem State.setDom_fw (s : State) (k : Nat) (x : Dom) : (s.setDom k x).fw = s.fw := rfl
@[simp] theorem State.setDom_grants (s : State) (k : Nat) (x : Dom) : (s.setDom k x).grants = s.grants := rfl
@[simp] theorem State.setDom_dear (s : State) (k : Nat) (x : Dom) : (s.setDom k x).dear = s.dear := rfl
@[simp] theorem State.setDom_granted (s : State) (k : Nat) (x : Dom) : (s.setDom k x).granted = s.granted := rfl
@[simp] theorem State.setDom_cur (s : State) (k : Nat) (x : Dom) : (s.setDom k x).cur = s.cur := rfl
@[simp] theorem State.setDom_tick (s : State) (k : Nat) (x : Dom) : (s.setDom k x).tick = s.tick := rfl
@[simp] theorem State.setDom_free (s : State) (k : Nat) (x : Dom) : (s.setDom k x).free = s.free := rfl

/-! setLink -/
@[simp] theorem State.setLink_rills (s : State) (k : Nat) (x : LinkDir) : (s.setLink k x).rills = s.rills := rfl
@[simp] theorem State.setLink_xblks (s : State) (k : Nat) (x : LinkDir) : (s.setLink k x).xblks = s.xblks := rfl
@[simp] theorem State.setLink_cores (s : State) (k : Nat) (x : LinkDir) : (s.setLink k x).cores = s.cores := rfl
@[simp] theorem State.setLink_tiles (s : State) (k : Nat) (x : LinkDir) : (s.setLink k x).tiles = s.tiles := rfl
@[simp] theorem State.setLink_rooms (s : State) (k : Nat) (x : LinkDir) : (s.setLink k x).rooms = s.rooms := rfl
@[simp] theorem State.setLink_groups (s : State) (k : Nat) (x : LinkDir) : (s.setLink k x).groups = s.groups := rfl
@[simp] theorem State.setLink_cards (s : State) (k : Nat) (x : LinkDir) : (s.setLink k x).cards = s.cards := rfl
@[simp] theorem State.setLink_spanReqs (s : State) (k : Nat) (x : LinkDir) : (s.setLink k x).spanReqs = s.spanReqs := rfl
@[simp] theorem State.setLink_launches (s : State) (k : Nat) (x : LinkDir) : (s.setLink k x).launches = s.launches := rfl
@[simp] theorem State.setLink_running (s : State) (k : Nat) (x : LinkDir) : (s.setLink k x).running = s.running := rfl
@[simp] theorem State.setLink_active (s : State) (k : Nat) (x : LinkDir) : (s.setLink k x).active = s.active := rfl
@[simp] theorem State.setLink_fresh (s : State) (k : Nat) (x : LinkDir) : (s.setLink k x).fresh = s.fresh := rfl
@[simp] theorem State.setLink_queues (s : State) (k : Nat) (x : LinkDir) : (s.setLink k x).queues = s.queues := rfl
@[simp] theorem State.setLink_cps (s : State) (k : Nat) (x : LinkDir) : (s.setLink k x).cps = s.cps := rfl
@[simp] theorem State.setLink_lastGrant (s : State) (k : Nat) (x : LinkDir) : (s.setLink k x).lastGrant = s.lastGrant := rfl
@[simp] theorem State.setLink_windows (s : State) (k : Nat) (x : LinkDir) : (s.setLink k x).windows = s.windows := rfl
@[simp] theorem State.setLink_dies (s : State) (k : Nat) (x : LinkDir) : (s.setLink k x).dies = s.dies := rfl
@[simp] theorem State.setLink_doms (s : State) (k : Nat) (x : LinkDir) : (s.setLink k x).doms = s.doms := rfl
@[simp] theorem State.setLink_boot (s : State) (k : Nat) (x : LinkDir) : (s.setLink k x).boot = s.boot := rfl
@[simp] theorem State.setLink_power (s : State) (k : Nat) (x : LinkDir) : (s.setLink k x).power = s.power := rfl
@[simp] theorem State.setLink_save (s : State) (k : Nat) (x : LinkDir) : (s.setLink k x).save = s.save := rfl
@[simp] theorem State.setLink_dram (s : State) (k : Nat) (x : LinkDir) : (s.setLink k x).dram = s.dram := rfl
@[simp] theorem State.setLink_basin (s : State) (k : Nat) (x : LinkDir) : (s.setLink k x).basin = s.basin := rfl
@[simp] theorem State.setLink_hostMem (s : State) (k : Nat) (x : LinkDir) : (s.setLink k x).hostMem = s.hostMem := rfl
@[simp] theorem State.setLink_bsize (s : State) (k : Nat) (x : LinkDir) : (s.setLink k x).bsize = s.bsize := rfl
@[simp] theorem State.setLink_bnext (s : State) (k : Nat) (x : LinkDir) : (s.setLink k x).bnext = s.bnext := rfl
@[simp] theorem State.setLink_roots (s : State) (k : Nat) (x : LinkDir) : (s.setLink k x).roots = s.roots := rfl
@[simp] theorem State.setLink_towerTlb (s : State) (k : Nat) (x : LinkDir) : (s.setLink k x).towerTlb = s.towerTlb := rfl
@[simp] theorem State.setLink_walker (s : State) (k : Nat) (x : LinkDir) : (s.setLink k x).walker = s.walker := rfl
@[simp] theorem State.setLink_coh (s : State) (k : Nat) (x : LinkDir) : (s.setLink k x).coh = s.coh := rfl
@[simp] theorem State.setLink_reply (s : State) (k : Nat) (x : LinkDir) : (s.setLink k x).reply = s.reply := rfl
@[simp] theorem State.setLink_traps (s : State) (k : Nat) (x : LinkDir) : (s.setLink k x).traps = s.traps := rfl
@[simp] theorem State.setLink_greq (s : State) (k : Nat) (x : LinkDir) : (s.setLink k x).greq = s.greq := rfl
@[simp] theorem State.setLink_gbusy (s : State) (k : Nat) (x : LinkDir) : (s.setLink k x).gbusy = s.gbusy := rfl
@[simp] theorem State.setLink_msix (s : State) (k : Nat) (x : LinkDir) : (s.setLink k x).msix = s.msix := rfl
@[simp] theorem State.setLink_mctp (s : State) (k : Nat) (x : LinkDir) : (s.setLink k x).mctp = s.mctp := rfl
@[simp] theorem State.setLink_stage (s : State) (k : Nat) (x : LinkDir) : (s.setLink k x).stage = s.stage := rfl
@[simp] theorem State.setLink_prbank (s : State) (k : Nat) (x : LinkDir) : (s.setLink k x).prbank = s.prbank := rfl
@[simp] theorem State.setLink_prnew (s : State) (k : Nat) (x : LinkDir) : (s.setLink k x).prnew = s.prnew := rfl
@[simp] theorem State.setLink_prsent (s : State) (k : Nat) (x : LinkDir) : (s.setLink k x).prsent = s.prsent := rfl
@[simp] theorem State.setLink_prwait (s : State) (k : Nat) (x : LinkDir) : (s.setLink k x).prwait = s.prwait := rfl
@[simp] theorem State.setLink_fab (s : State) (k : Nat) (x : LinkDir) : (s.setLink k x).fab = s.fab := rfl
@[simp] theorem State.setLink_box (s : State) (k : Nat) (x : LinkDir) : (s.setLink k x).box = s.box := rfl
@[simp] theorem State.setLink_agenda (s : State) (k : Nat) (x : LinkDir) : (s.setLink k x).agenda = s.agenda := rfl
@[simp] theorem State.setLink_fw (s : State) (k : Nat) (x : LinkDir) : (s.setLink k x).fw = s.fw := rfl
@[simp] theorem State.setLink_grants (s : State) (k : Nat) (x : LinkDir) : (s.setLink k x).grants = s.grants := rfl
@[simp] theorem State.setLink_dear (s : State) (k : Nat) (x : LinkDir) : (s.setLink k x).dear = s.dear := rfl
@[simp] theorem State.setLink_granted (s : State) (k : Nat) (x : LinkDir) : (s.setLink k x).granted = s.granted := rfl
@[simp] theorem State.setLink_cur (s : State) (k : Nat) (x : LinkDir) : (s.setLink k x).cur = s.cur := rfl
@[simp] theorem State.setLink_tick (s : State) (k : Nat) (x : LinkDir) : (s.setLink k x).tick = s.tick := rfl
@[simp] theorem State.setLink_free (s : State) (k : Nat) (x : LinkDir) : (s.setLink k x).free = s.free := rfl

/-! setXblk -/
@[simp] theorem State.setXblk_rills (s : State) (k : Nat) (x : Xblk) : (s.setXblk k x).rills = s.rills := rfl
@[simp] theorem State.setXblk_cores (s : State) (k : Nat) (x : Xblk) : (s.setXblk k x).cores = s.cores := rfl
@[simp] theorem State.setXblk_tiles (s : State) (k : Nat) (x : Xblk) : (s.setXblk k x).tiles = s.tiles := rfl
@[simp] theorem State.setXblk_rooms (s : State) (k : Nat) (x : Xblk) : (s.setXblk k x).rooms = s.rooms := rfl
@[simp] theorem State.setXblk_groups (s : State) (k : Nat) (x : Xblk) : (s.setXblk k x).groups = s.groups := rfl
@[simp] theorem State.setXblk_cards (s : State) (k : Nat) (x : Xblk) : (s.setXblk k x).cards = s.cards := rfl
@[simp] theorem State.setXblk_spanReqs (s : State) (k : Nat) (x : Xblk) : (s.setXblk k x).spanReqs = s.spanReqs := rfl
@[simp] theorem State.setXblk_launches (s : State) (k : Nat) (x : Xblk) : (s.setXblk k x).launches = s.launches := rfl
@[simp] theorem State.setXblk_running (s : State) (k : Nat) (x : Xblk) : (s.setXblk k x).running = s.running := rfl
@[simp] theorem State.setXblk_active (s : State) (k : Nat) (x : Xblk) : (s.setXblk k x).active = s.active := rfl
@[simp] theorem State.setXblk_fresh (s : State) (k : Nat) (x : Xblk) : (s.setXblk k x).fresh = s.fresh := rfl
@[simp] theorem State.setXblk_queues (s : State) (k : Nat) (x : Xblk) : (s.setXblk k x).queues = s.queues := rfl
@[simp] theorem State.setXblk_cps (s : State) (k : Nat) (x : Xblk) : (s.setXblk k x).cps = s.cps := rfl
@[simp] theorem State.setXblk_lastGrant (s : State) (k : Nat) (x : Xblk) : (s.setXblk k x).lastGrant = s.lastGrant := rfl
@[simp] theorem State.setXblk_windows (s : State) (k : Nat) (x : Xblk) : (s.setXblk k x).windows = s.windows := rfl
@[simp] theorem State.setXblk_dies (s : State) (k : Nat) (x : Xblk) : (s.setXblk k x).dies = s.dies := rfl
@[simp] theorem State.setXblk_doms (s : State) (k : Nat) (x : Xblk) : (s.setXblk k x).doms = s.doms := rfl
@[simp] theorem State.setXblk_links (s : State) (k : Nat) (x : Xblk) : (s.setXblk k x).links = s.links := rfl
@[simp] theorem State.setXblk_boot (s : State) (k : Nat) (x : Xblk) : (s.setXblk k x).boot = s.boot := rfl
@[simp] theorem State.setXblk_power (s : State) (k : Nat) (x : Xblk) : (s.setXblk k x).power = s.power := rfl
@[simp] theorem State.setXblk_save (s : State) (k : Nat) (x : Xblk) : (s.setXblk k x).save = s.save := rfl
@[simp] theorem State.setXblk_dram (s : State) (k : Nat) (x : Xblk) : (s.setXblk k x).dram = s.dram := rfl
@[simp] theorem State.setXblk_basin (s : State) (k : Nat) (x : Xblk) : (s.setXblk k x).basin = s.basin := rfl
@[simp] theorem State.setXblk_hostMem (s : State) (k : Nat) (x : Xblk) : (s.setXblk k x).hostMem = s.hostMem := rfl
@[simp] theorem State.setXblk_bsize (s : State) (k : Nat) (x : Xblk) : (s.setXblk k x).bsize = s.bsize := rfl
@[simp] theorem State.setXblk_bnext (s : State) (k : Nat) (x : Xblk) : (s.setXblk k x).bnext = s.bnext := rfl
@[simp] theorem State.setXblk_roots (s : State) (k : Nat) (x : Xblk) : (s.setXblk k x).roots = s.roots := rfl
@[simp] theorem State.setXblk_towerTlb (s : State) (k : Nat) (x : Xblk) : (s.setXblk k x).towerTlb = s.towerTlb := rfl
@[simp] theorem State.setXblk_walker (s : State) (k : Nat) (x : Xblk) : (s.setXblk k x).walker = s.walker := rfl
@[simp] theorem State.setXblk_coh (s : State) (k : Nat) (x : Xblk) : (s.setXblk k x).coh = s.coh := rfl
@[simp] theorem State.setXblk_reply (s : State) (k : Nat) (x : Xblk) : (s.setXblk k x).reply = s.reply := rfl
@[simp] theorem State.setXblk_traps (s : State) (k : Nat) (x : Xblk) : (s.setXblk k x).traps = s.traps := rfl
@[simp] theorem State.setXblk_greq (s : State) (k : Nat) (x : Xblk) : (s.setXblk k x).greq = s.greq := rfl
@[simp] theorem State.setXblk_gbusy (s : State) (k : Nat) (x : Xblk) : (s.setXblk k x).gbusy = s.gbusy := rfl
@[simp] theorem State.setXblk_msix (s : State) (k : Nat) (x : Xblk) : (s.setXblk k x).msix = s.msix := rfl
@[simp] theorem State.setXblk_mctp (s : State) (k : Nat) (x : Xblk) : (s.setXblk k x).mctp = s.mctp := rfl
@[simp] theorem State.setXblk_stage (s : State) (k : Nat) (x : Xblk) : (s.setXblk k x).stage = s.stage := rfl
@[simp] theorem State.setXblk_prbank (s : State) (k : Nat) (x : Xblk) : (s.setXblk k x).prbank = s.prbank := rfl
@[simp] theorem State.setXblk_prnew (s : State) (k : Nat) (x : Xblk) : (s.setXblk k x).prnew = s.prnew := rfl
@[simp] theorem State.setXblk_prsent (s : State) (k : Nat) (x : Xblk) : (s.setXblk k x).prsent = s.prsent := rfl
@[simp] theorem State.setXblk_prwait (s : State) (k : Nat) (x : Xblk) : (s.setXblk k x).prwait = s.prwait := rfl
@[simp] theorem State.setXblk_fab (s : State) (k : Nat) (x : Xblk) : (s.setXblk k x).fab = s.fab := rfl
@[simp] theorem State.setXblk_box (s : State) (k : Nat) (x : Xblk) : (s.setXblk k x).box = s.box := rfl
@[simp] theorem State.setXblk_agenda (s : State) (k : Nat) (x : Xblk) : (s.setXblk k x).agenda = s.agenda := rfl
@[simp] theorem State.setXblk_fw (s : State) (k : Nat) (x : Xblk) : (s.setXblk k x).fw = s.fw := rfl
@[simp] theorem State.setXblk_grants (s : State) (k : Nat) (x : Xblk) : (s.setXblk k x).grants = s.grants := rfl
@[simp] theorem State.setXblk_dear (s : State) (k : Nat) (x : Xblk) : (s.setXblk k x).dear = s.dear := rfl
@[simp] theorem State.setXblk_granted (s : State) (k : Nat) (x : Xblk) : (s.setXblk k x).granted = s.granted := rfl
@[simp] theorem State.setXblk_cur (s : State) (k : Nat) (x : Xblk) : (s.setXblk k x).cur = s.cur := rfl
@[simp] theorem State.setXblk_tick (s : State) (k : Nat) (x : Xblk) : (s.setXblk k x).tick = s.tick := rfl
@[simp] theorem State.setXblk_free (s : State) (k : Nat) (x : Xblk) : (s.setXblk k x).free = s.free := rfl

/-! setPeer -/
@[simp] theorem State.setPeer_rills (s : State) (k : Nat) (x : Peer) : (s.setPeer k x).rills = s.rills := rfl
@[simp] theorem State.setPeer_xblks (s : State) (k : Nat) (x : Peer) : (s.setPeer k x).xblks = s.xblks := rfl
@[simp] theorem State.setPeer_cores (s : State) (k : Nat) (x : Peer) : (s.setPeer k x).cores = s.cores := rfl
@[simp] theorem State.setPeer_tiles (s : State) (k : Nat) (x : Peer) : (s.setPeer k x).tiles = s.tiles := rfl
@[simp] theorem State.setPeer_rooms (s : State) (k : Nat) (x : Peer) : (s.setPeer k x).rooms = s.rooms := rfl
@[simp] theorem State.setPeer_groups (s : State) (k : Nat) (x : Peer) : (s.setPeer k x).groups = s.groups := rfl
@[simp] theorem State.setPeer_cards (s : State) (k : Nat) (x : Peer) : (s.setPeer k x).cards = s.cards := rfl
@[simp] theorem State.setPeer_spanReqs (s : State) (k : Nat) (x : Peer) : (s.setPeer k x).spanReqs = s.spanReqs := rfl
@[simp] theorem State.setPeer_launches (s : State) (k : Nat) (x : Peer) : (s.setPeer k x).launches = s.launches := rfl
@[simp] theorem State.setPeer_running (s : State) (k : Nat) (x : Peer) : (s.setPeer k x).running = s.running := rfl
@[simp] theorem State.setPeer_active (s : State) (k : Nat) (x : Peer) : (s.setPeer k x).active = s.active := rfl
@[simp] theorem State.setPeer_fresh (s : State) (k : Nat) (x : Peer) : (s.setPeer k x).fresh = s.fresh := rfl
@[simp] theorem State.setPeer_queues (s : State) (k : Nat) (x : Peer) : (s.setPeer k x).queues = s.queues := rfl
@[simp] theorem State.setPeer_cps (s : State) (k : Nat) (x : Peer) : (s.setPeer k x).cps = s.cps := rfl
@[simp] theorem State.setPeer_lastGrant (s : State) (k : Nat) (x : Peer) : (s.setPeer k x).lastGrant = s.lastGrant := rfl
@[simp] theorem State.setPeer_windows (s : State) (k : Nat) (x : Peer) : (s.setPeer k x).windows = s.windows := rfl
@[simp] theorem State.setPeer_dies (s : State) (k : Nat) (x : Peer) : (s.setPeer k x).dies = s.dies := rfl
@[simp] theorem State.setPeer_doms (s : State) (k : Nat) (x : Peer) : (s.setPeer k x).doms = s.doms := rfl
@[simp] theorem State.setPeer_links (s : State) (k : Nat) (x : Peer) : (s.setPeer k x).links = s.links := rfl
@[simp] theorem State.setPeer_boot (s : State) (k : Nat) (x : Peer) : (s.setPeer k x).boot = s.boot := rfl
@[simp] theorem State.setPeer_power (s : State) (k : Nat) (x : Peer) : (s.setPeer k x).power = s.power := rfl
@[simp] theorem State.setPeer_save (s : State) (k : Nat) (x : Peer) : (s.setPeer k x).save = s.save := rfl
@[simp] theorem State.setPeer_dram (s : State) (k : Nat) (x : Peer) : (s.setPeer k x).dram = s.dram := rfl
@[simp] theorem State.setPeer_basin (s : State) (k : Nat) (x : Peer) : (s.setPeer k x).basin = s.basin := rfl
@[simp] theorem State.setPeer_hostMem (s : State) (k : Nat) (x : Peer) : (s.setPeer k x).hostMem = s.hostMem := rfl
@[simp] theorem State.setPeer_bsize (s : State) (k : Nat) (x : Peer) : (s.setPeer k x).bsize = s.bsize := rfl
@[simp] theorem State.setPeer_bnext (s : State) (k : Nat) (x : Peer) : (s.setPeer k x).bnext = s.bnext := rfl
@[simp] theorem State.setPeer_roots (s : State) (k : Nat) (x : Peer) : (s.setPeer k x).roots = s.roots := rfl
@[simp] theorem State.setPeer_towerTlb (s : State) (k : Nat) (x : Peer) : (s.setPeer k x).towerTlb = s.towerTlb := rfl
@[simp] theorem State.setPeer_walker (s : State) (k : Nat) (x : Peer) : (s.setPeer k x).walker = s.walker := rfl
@[simp] theorem State.setPeer_coh (s : State) (k : Nat) (x : Peer) : (s.setPeer k x).coh = s.coh := rfl
@[simp] theorem State.setPeer_reply (s : State) (k : Nat) (x : Peer) : (s.setPeer k x).reply = s.reply := rfl
@[simp] theorem State.setPeer_traps (s : State) (k : Nat) (x : Peer) : (s.setPeer k x).traps = s.traps := rfl
@[simp] theorem State.setPeer_greq (s : State) (k : Nat) (x : Peer) : (s.setPeer k x).greq = s.greq := rfl
@[simp] theorem State.setPeer_gbusy (s : State) (k : Nat) (x : Peer) : (s.setPeer k x).gbusy = s.gbusy := rfl
@[simp] theorem State.setPeer_msix (s : State) (k : Nat) (x : Peer) : (s.setPeer k x).msix = s.msix := rfl
@[simp] theorem State.setPeer_mctp (s : State) (k : Nat) (x : Peer) : (s.setPeer k x).mctp = s.mctp := rfl
@[simp] theorem State.setPeer_stage (s : State) (k : Nat) (x : Peer) : (s.setPeer k x).stage = s.stage := rfl
@[simp] theorem State.setPeer_prbank (s : State) (k : Nat) (x : Peer) : (s.setPeer k x).prbank = s.prbank := rfl
@[simp] theorem State.setPeer_prnew (s : State) (k : Nat) (x : Peer) : (s.setPeer k x).prnew = s.prnew := rfl
@[simp] theorem State.setPeer_prsent (s : State) (k : Nat) (x : Peer) : (s.setPeer k x).prsent = s.prsent := rfl
@[simp] theorem State.setPeer_prwait (s : State) (k : Nat) (x : Peer) : (s.setPeer k x).prwait = s.prwait := rfl
@[simp] theorem State.setPeer_box (s : State) (k : Nat) (x : Peer) : (s.setPeer k x).box = s.box := rfl
@[simp] theorem State.setPeer_agenda (s : State) (k : Nat) (x : Peer) : (s.setPeer k x).agenda = s.agenda := rfl
@[simp] theorem State.setPeer_fw (s : State) (k : Nat) (x : Peer) : (s.setPeer k x).fw = s.fw := rfl
@[simp] theorem State.setPeer_grants (s : State) (k : Nat) (x : Peer) : (s.setPeer k x).grants = s.grants := rfl
@[simp] theorem State.setPeer_dear (s : State) (k : Nat) (x : Peer) : (s.setPeer k x).dear = s.dear := rfl
@[simp] theorem State.setPeer_granted (s : State) (k : Nat) (x : Peer) : (s.setPeer k x).granted = s.granted := rfl
@[simp] theorem State.setPeer_cur (s : State) (k : Nat) (x : Peer) : (s.setPeer k x).cur = s.cur := rfl
@[simp] theorem State.setPeer_tick (s : State) (k : Nat) (x : Peer) : (s.setPeer k x).tick = s.tick := rfl
@[simp] theorem State.setPeer_free (s : State) (k : Nat) (x : Peer) : (s.setPeer k x).free = s.free := rfl

/-! setLine -/
@[simp] theorem State.setLine_rills (s : State) (k : Nat) (x : LineState) : (s.setLine k x).rills = s.rills := rfl
@[simp] theorem State.setLine_xblks (s : State) (k : Nat) (x : LineState) : (s.setLine k x).xblks = s.xblks := rfl
@[simp] theorem State.setLine_cores (s : State) (k : Nat) (x : LineState) : (s.setLine k x).cores = s.cores := rfl
@[simp] theorem State.setLine_tiles (s : State) (k : Nat) (x : LineState) : (s.setLine k x).tiles = s.tiles := rfl
@[simp] theorem State.setLine_rooms (s : State) (k : Nat) (x : LineState) : (s.setLine k x).rooms = s.rooms := rfl
@[simp] theorem State.setLine_groups (s : State) (k : Nat) (x : LineState) : (s.setLine k x).groups = s.groups := rfl
@[simp] theorem State.setLine_cards (s : State) (k : Nat) (x : LineState) : (s.setLine k x).cards = s.cards := rfl
@[simp] theorem State.setLine_spanReqs (s : State) (k : Nat) (x : LineState) : (s.setLine k x).spanReqs = s.spanReqs := rfl
@[simp] theorem State.setLine_launches (s : State) (k : Nat) (x : LineState) : (s.setLine k x).launches = s.launches := rfl
@[simp] theorem State.setLine_running (s : State) (k : Nat) (x : LineState) : (s.setLine k x).running = s.running := rfl
@[simp] theorem State.setLine_active (s : State) (k : Nat) (x : LineState) : (s.setLine k x).active = s.active := rfl
@[simp] theorem State.setLine_fresh (s : State) (k : Nat) (x : LineState) : (s.setLine k x).fresh = s.fresh := rfl
@[simp] theorem State.setLine_queues (s : State) (k : Nat) (x : LineState) : (s.setLine k x).queues = s.queues := rfl
@[simp] theorem State.setLine_cps (s : State) (k : Nat) (x : LineState) : (s.setLine k x).cps = s.cps := rfl
@[simp] theorem State.setLine_lastGrant (s : State) (k : Nat) (x : LineState) : (s.setLine k x).lastGrant = s.lastGrant := rfl
@[simp] theorem State.setLine_windows (s : State) (k : Nat) (x : LineState) : (s.setLine k x).windows = s.windows := rfl
@[simp] theorem State.setLine_dies (s : State) (k : Nat) (x : LineState) : (s.setLine k x).dies = s.dies := rfl
@[simp] theorem State.setLine_doms (s : State) (k : Nat) (x : LineState) : (s.setLine k x).doms = s.doms := rfl
@[simp] theorem State.setLine_links (s : State) (k : Nat) (x : LineState) : (s.setLine k x).links = s.links := rfl
@[simp] theorem State.setLine_boot (s : State) (k : Nat) (x : LineState) : (s.setLine k x).boot = s.boot := rfl
@[simp] theorem State.setLine_power (s : State) (k : Nat) (x : LineState) : (s.setLine k x).power = s.power := rfl
@[simp] theorem State.setLine_save (s : State) (k : Nat) (x : LineState) : (s.setLine k x).save = s.save := rfl
@[simp] theorem State.setLine_dram (s : State) (k : Nat) (x : LineState) : (s.setLine k x).dram = s.dram := rfl
@[simp] theorem State.setLine_basin (s : State) (k : Nat) (x : LineState) : (s.setLine k x).basin = s.basin := rfl
@[simp] theorem State.setLine_hostMem (s : State) (k : Nat) (x : LineState) : (s.setLine k x).hostMem = s.hostMem := rfl
@[simp] theorem State.setLine_bsize (s : State) (k : Nat) (x : LineState) : (s.setLine k x).bsize = s.bsize := rfl
@[simp] theorem State.setLine_bnext (s : State) (k : Nat) (x : LineState) : (s.setLine k x).bnext = s.bnext := rfl
@[simp] theorem State.setLine_roots (s : State) (k : Nat) (x : LineState) : (s.setLine k x).roots = s.roots := rfl
@[simp] theorem State.setLine_towerTlb (s : State) (k : Nat) (x : LineState) : (s.setLine k x).towerTlb = s.towerTlb := rfl
@[simp] theorem State.setLine_walker (s : State) (k : Nat) (x : LineState) : (s.setLine k x).walker = s.walker := rfl
@[simp] theorem State.setLine_reply (s : State) (k : Nat) (x : LineState) : (s.setLine k x).reply = s.reply := rfl
@[simp] theorem State.setLine_traps (s : State) (k : Nat) (x : LineState) : (s.setLine k x).traps = s.traps := rfl
@[simp] theorem State.setLine_greq (s : State) (k : Nat) (x : LineState) : (s.setLine k x).greq = s.greq := rfl
@[simp] theorem State.setLine_gbusy (s : State) (k : Nat) (x : LineState) : (s.setLine k x).gbusy = s.gbusy := rfl
@[simp] theorem State.setLine_msix (s : State) (k : Nat) (x : LineState) : (s.setLine k x).msix = s.msix := rfl
@[simp] theorem State.setLine_mctp (s : State) (k : Nat) (x : LineState) : (s.setLine k x).mctp = s.mctp := rfl
@[simp] theorem State.setLine_stage (s : State) (k : Nat) (x : LineState) : (s.setLine k x).stage = s.stage := rfl
@[simp] theorem State.setLine_prbank (s : State) (k : Nat) (x : LineState) : (s.setLine k x).prbank = s.prbank := rfl
@[simp] theorem State.setLine_prnew (s : State) (k : Nat) (x : LineState) : (s.setLine k x).prnew = s.prnew := rfl
@[simp] theorem State.setLine_prsent (s : State) (k : Nat) (x : LineState) : (s.setLine k x).prsent = s.prsent := rfl
@[simp] theorem State.setLine_prwait (s : State) (k : Nat) (x : LineState) : (s.setLine k x).prwait = s.prwait := rfl
@[simp] theorem State.setLine_fab (s : State) (k : Nat) (x : LineState) : (s.setLine k x).fab = s.fab := rfl
@[simp] theorem State.setLine_box (s : State) (k : Nat) (x : LineState) : (s.setLine k x).box = s.box := rfl
@[simp] theorem State.setLine_agenda (s : State) (k : Nat) (x : LineState) : (s.setLine k x).agenda = s.agenda := rfl
@[simp] theorem State.setLine_fw (s : State) (k : Nat) (x : LineState) : (s.setLine k x).fw = s.fw := rfl
@[simp] theorem State.setLine_grants (s : State) (k : Nat) (x : LineState) : (s.setLine k x).grants = s.grants := rfl
@[simp] theorem State.setLine_dear (s : State) (k : Nat) (x : LineState) : (s.setLine k x).dear = s.dear := rfl
@[simp] theorem State.setLine_granted (s : State) (k : Nat) (x : LineState) : (s.setLine k x).granted = s.granted := rfl
@[simp] theorem State.setLine_cur (s : State) (k : Nat) (x : LineState) : (s.setLine k x).cur = s.cur := rfl
@[simp] theorem State.setLine_tick (s : State) (k : Nat) (x : LineState) : (s.setLine k x).tick = s.tick := rfl
@[simp] theorem State.setLine_free (s : State) (k : Nat) (x : LineState) : (s.setLine k x).free = s.free := rfl

/-! Reading back what an update has written. -/
theorem State.rill_setRill (s : State) (k j : Nat) (x : Rill) : (s.setRill k x).rill j = if k = j then x else s.rill j := Tbl.get_set ..
@[simp] theorem State.rill_setRill_same (s : State) (k : Nat) (x : Rill) : (s.setRill k x).rill k = x := Tbl.get_set_same ..
theorem State.rill_modRill (s : State) (k j : Nat) (f : Rill → Rill) :
    (s.modRill k f).rill j = if k = j then f (s.rill k) else s.rill j := Tbl.get_set ..
@[simp] theorem State.rill_modRill_same (s : State) (k : Nat) (f : Rill → Rill) : (s.modRill k f).rill k = f (s.rill k) := Tbl.get_set_same ..
theorem State.core_setCore (s : State) (k j : Nat) (x : Core) : (s.setCore k x).core j = if k = j then x else s.core j := Tbl.get_set ..
@[simp] theorem State.core_setCore_same (s : State) (k : Nat) (x : Core) : (s.setCore k x).core k = x := Tbl.get_set_same ..
theorem State.core_modCore (s : State) (k j : Nat) (f : Core → Core) :
    (s.modCore k f).core j = if k = j then f (s.core k) else s.core j := Tbl.get_set ..
@[simp] theorem State.core_modCore_same (s : State) (k : Nat) (f : Core → Core) : (s.modCore k f).core k = f (s.core k) := Tbl.get_set_same ..
theorem State.tile_setTile (s : State) (k j : Nat) (x : TileUnit) : (s.setTile k x).tile j = if k = j then x else s.tile j := Tbl.get_set ..
@[simp] theorem State.tile_setTile_same (s : State) (k : Nat) (x : TileUnit) : (s.setTile k x).tile k = x := Tbl.get_set_same ..
theorem State.tile_modTile (s : State) (k j : Nat) (f : TileUnit → TileUnit) :
    (s.modTile k f).tile j = if k = j then f (s.tile k) else s.tile j := Tbl.get_set ..
@[simp] theorem State.tile_modTile_same (s : State) (k : Nat) (f : TileUnit → TileUnit) : (s.modTile k f).tile k = f (s.tile k) := Tbl.get_set_same ..
theorem State.room_setRoom (s : State) (k j : Nat) (x : Room) : (s.setRoom k x).room j = if k = j then x else s.room j := Tbl.get_set ..
@[simp] theorem State.room_setRoom_same (s : State) (k : Nat) (x : Room) : (s.setRoom k x).room k = x := Tbl.get_set_same ..
theorem State.room_modRoom (s : State) (k j : Nat) (f : Room → Room) :
    (s.modRoom k f).room j = if k = j then f (s.room k) else s.room j := Tbl.get_set ..
@[simp] theorem State.room_modRoom_same (s : State) (k : Nat) (f : Room → Room) : (s.modRoom k f).room k = f (s.room k) := Tbl.get_set_same ..
theorem State.group_setGroup (s : State) (k j : Nat) (x : Group) : (s.setGroup k x).group j = if k = j then x else s.group j := Tbl.get_set ..
@[simp] theorem State.group_setGroup_same (s : State) (k : Nat) (x : Group) : (s.setGroup k x).group k = x := Tbl.get_set_same ..
theorem State.group_modGroup (s : State) (k j : Nat) (f : Group → Group) :
    (s.modGroup k f).group j = if k = j then f (s.group k) else s.group j := Tbl.get_set ..
@[simp] theorem State.group_modGroup_same (s : State) (k : Nat) (f : Group → Group) : (s.modGroup k f).group k = f (s.group k) := Tbl.get_set_same ..
theorem State.card_setCard (s : State) (k j : Nat) (x : Card) : (s.setCard k x).card j = if k = j then x else s.card j := Tbl.get_set ..
@[simp] theorem State.card_setCard_same (s : State) (k : Nat) (x : Card) : (s.setCard k x).card k = x := Tbl.get_set_same ..
theorem State.card_modCard (s : State) (k j : Nat) (f : Card → Card) :
    (s.modCard k f).card j = if k = j then f (s.card k) else s.card j := Tbl.get_set ..
@[simp] theorem State.card_modCard_same (s : State) (k : Nat) (f : Card → Card) : (s.modCard k f).card k = f (s.card k) := Tbl.get_set_same ..
theorem State.launch_setLaunch (s : State) (k j : Nat) (x : Launch) : (s.setLaunch k x).launch j = if k = j then x else s.launch j := Tbl.get_set ..
@[simp] theorem State.launch_setLaunch_same (s : State) (k : Nat) (x : Launch) : (s.setLaunch k x).launch k = x := Tbl.get_set_same ..
theorem State.launch_modLaunch (s : State) (k j : Nat) (f : Launch → Launch) :
    (s.modLaunch k f).launch j = if k = j then f (s.launch k) else s.launch j := Tbl.get_set ..
@[simp] theorem State.launch_modLaunch_same (s : State) (k : Nat) (f : Launch → Launch) : (s.modLaunch k f).launch k = f (s.launch k) := Tbl.get_set_same ..
theorem State.queue_setQueue (s : State) (k j : Nat) (x : Queue) : (s.setQueue k x).queue j = if k = j then x else s.queue j := Tbl.get_set ..
@[simp] theorem State.queue_setQueue_same (s : State) (k : Nat) (x : Queue) : (s.setQueue k x).queue k = x := Tbl.get_set_same ..
theorem State.queue_modQueue (s : State) (k j : Nat) (f : Queue → Queue) :
    (s.modQueue k f).queue j = if k = j then f (s.queue k) else s.queue j := Tbl.get_set ..
@[simp] theorem State.queue_modQueue_same (s : State) (k : Nat) (f : Queue → Queue) : (s.modQueue k f).queue k = f (s.queue k) := Tbl.get_set_same ..
theorem State.cp_setCp (s : State) (k j : Nat) (x : CmdProc) : (s.setCp k x).cp j = if k = j then x else s.cp j := Tbl.get_set ..
@[simp] theorem State.cp_setCp_same (s : State) (k : Nat) (x : CmdProc) : (s.setCp k x).cp k = x := Tbl.get_set_same ..
theorem State.cp_modCp (s : State) (k j : Nat) (f : CmdProc → CmdProc) :
    (s.modCp k f).cp j = if k = j then f (s.cp k) else s.cp j := Tbl.get_set ..
@[simp] theorem State.cp_modCp_same (s : State) (k : Nat) (f : CmdProc → CmdProc) : (s.modCp k f).cp k = f (s.cp k) := Tbl.get_set_same ..
theorem State.die_setDie (s : State) (k j : Nat) (x : Die) : (s.setDie k x).die j = if k = j then x else s.die j := Tbl.get_set ..
@[simp] theorem State.die_setDie_same (s : State) (k : Nat) (x : Die) : (s.setDie k x).die k = x := Tbl.get_set_same ..
theorem State.die_modDie (s : State) (k j : Nat) (f : Die → Die) :
    (s.modDie k f).die j = if k = j then f (s.die k) else s.die j := Tbl.get_set ..
@[simp] theorem State.die_modDie_same (s : State) (k : Nat) (f : Die → Die) : (s.modDie k f).die k = f (s.die k) := Tbl.get_set_same ..
theorem State.dom_setDom (s : State) (k j : Nat) (x : Dom) : (s.setDom k x).dom j = if k = j then x else s.dom j := Tbl.get_set ..
@[simp] theorem State.dom_setDom_same (s : State) (k : Nat) (x : Dom) : (s.setDom k x).dom k = x := Tbl.get_set_same ..
theorem State.dom_modDom (s : State) (k j : Nat) (f : Dom → Dom) :
    (s.modDom k f).dom j = if k = j then f (s.dom k) else s.dom j := Tbl.get_set ..
@[simp] theorem State.dom_modDom_same (s : State) (k : Nat) (f : Dom → Dom) : (s.modDom k f).dom k = f (s.dom k) := Tbl.get_set_same ..
theorem State.link_setLink (s : State) (k j : Nat) (x : LinkDir) : (s.setLink k x).link j = if k = j then x else s.link j := Tbl.get_set ..
@[simp] theorem State.link_setLink_same (s : State) (k : Nat) (x : LinkDir) : (s.setLink k x).link k = x := Tbl.get_set_same ..
@[simp] theorem State.curRill_setCur (s : State) (r : Rill) : (s.setRill s.cur.rill r).curRill = r := Tbl.get_set_same ..

end
end Sys2Proof.Machine
end

