-- ==== Sys2Proof/Laws/Rills.lean ====
section
/-! SUPPORT. What the shared operations on threads and registers do, each said once. -/
namespace Sys2Proof.Machine

/-! ## Threads -/

@[simp] theorem Rill.thread_setThread_same (r : Rill) (l : Nat) (t : Thread) : (r.setThread l t).thread l = t :=
  Tbl.get_set_same ..

theorem Rill.thread_setThread (r : Rill) (l j : Nat) (t : Thread) :
    (r.setThread l t).thread j = if l = j then t else r.thread j := Tbl.get_set ..

/-- Only the threads change. -/
theorem Rill.mapThreads_frame (r : Rill) (ls : List Nat) (f : Nat → Thread → Thread) :
    r.mapThreads ls f = { r with th := (r.mapThreads ls f).th } := by
  induction ls generalizing r with
  | nil => rfl
  | cons l ls ih => exact ih _

/-- Each thread named is changed once. -/
theorem Rill.thread_mapThreads (r : Rill) (ls : List Nat) (f : Nat → Thread → Thread) (h : ls.Nodup) (j : Nat) :
    (r.mapThreads ls f).thread j = if j ∈ ls then f j (r.thread j) else r.thread j := by
  induction ls generalizing r with
  | nil => rfl
  | cons l ls ih =>
    have hl := List.nodup_cons.1 h
    have e : r.mapThreads (l :: ls) f = (r.setThread l (f l (r.thread l))).mapThreads ls f := rfl
    rw [e, ih _ hl.2, Rill.thread_setThread]
    by_cases hj : l = j
    · subst hj; simp [hl.1]
    · simp [hj, Ne.symm hj]

theorem State.mapThreads_rill (s : State) (k j : Nat) (ls : List Nat) (f : Nat → Thread → Thread) :
    (s.mapThreads k ls f).rill j = if k = j then (s.rill k).mapThreads ls f else s.rill j := Tbl.get_set ..

@[simp] theorem State.mapThreads_cur (s : State) (k : Nat) (ls : List Nat) (f : Nat → Thread → Thread) :
    (s.mapThreads k ls f).cur = s.cur := rfl

theorem State.mapThreads_thread (s : State) (k : Nat) (ls : List Nat) (f : Nat → Thread → Thread) (h : ls.Nodup) (j : Nat) :
    ((s.mapThreads k ls f).rill k).thread j = if j ∈ ls then f j ((s.rill k).thread j) else (s.rill k).thread j := by
  rw [State.mapThreads_rill, if_pos rfl, Rill.thread_mapThreads _ _ _ h]

theorem State.acting_nodup {s : State} (h : s.cohortOk) (g : Nat) : (s.acting g).Nodup := h.1.filter _

theorem State.acting_mem {s : State} {g l : Nat} (h : l ∈ s.acting g) : l ∈ s.cur.lanes := (List.mem_filter.1 h).1

theorem State.acting_lt {s : State} (hc : s.cohortOk) {g l : Nat} (h : l ∈ s.acting g) : l < 64 := hc.2 l (acting_mem h)

/-! ## Writes of registers -/

/-- What a write of vector registers leaves alone. -/
structure VWrote (s t : State) (k : Nat) : Prop where
  state : t.others = s.others
  rills : ∀ j, j ≠ k → t.rill j = s.rill j
  self : t.rill k = { s.rill k with v := (t.rill k).v, uform := (t.rill k).uform }
  cores : ∀ c, (t.core c).others = (s.core c).others
  foreign : ∀ j n l, j / 2 ≠ k / 2 → t.vreg j n l = s.vreg j n l

theorem VWrote.refl (s : State) (k : Nat) : VWrote s s k :=
  ⟨rfl, fun _ _ => rfl, rfl, fun _ => rfl, fun _ _ _ _ => rfl⟩

theorem VWrote.trans {s t u : State} {k : Nat} (h : VWrote s t k) (h' : VWrote t u k) : VWrote s u k where
  state := h'.state.trans h.state
  rills := fun j hj => (h'.rills j hj).trans (h.rills j hj)
  self := by rw [h'.self, h.self]
  cores := fun c => (h'.cores c).trans (h.cores c)
  foreign := fun j n l hj => (h'.foreign j n l hj).trans (h.foreign j n l hj)

theorem State.setVreg_vreg (s : State) (k n l m j : Nat) (w : Word) (hl : l < 64) (hj : j < 64) :
    (s.setVreg k n l w).vreg k m j = if n = m ∧ l = j then w else s.vreg k m j := by
  unfold State.setVreg State.vreg
  by_cases hn : n < 192
  · rw [if_pos hn]
    by_cases hm : m < 192
    · rw [if_pos hm, if_pos hm, State.rill_modRill_same, Tbl.get_set]
      simp only [show (64 * n + l = 64 * m + j) ↔ (n = m ∧ l = j) by omega]
    · rw [if_neg hm, if_neg hm, if_neg (by omega)]; rfl
  · rw [if_neg hn]
    by_cases hm : m < 192
    · rw [if_pos hm, if_pos hm, if_neg (by omega)]; rfl
    · rw [if_neg hm, if_neg hm]
      show (Tbl.get {} (Tbl.set _ _ _) _ : Xblk).v.get 0 _ = _
      rw [Tbl.get_set_same, Tbl.get_set]
      simp only [show (64 * n + l = 64 * m + j) ↔ (n = m ∧ l = j) by omega]

theorem State.setVreg_wrote (s : State) (k n l : Nat) (w : Word) : VWrote s (s.setVreg k n l w) k := by
  unfold State.setVreg
  split
  · refine ⟨rfl, fun j hj => ?_, ?_, fun _ => rfl, fun j m i hj => ?_⟩
    · rw [State.rill_modRill, if_neg (Ne.symm hj)]
    · simp
    · unfold State.vreg; split
      · rw [State.rill_modRill, if_neg (by intro e; exact hj (by rw [e]))]
      · rfl
  · refine ⟨rfl, fun _ _ => rfl, rfl, fun _ => rfl, fun j m i hj => ?_⟩
    unfold State.vreg
    split
    · rfl
    · show (Tbl.get {} (Tbl.set _ _ _) _ : Xblk).v.get 0 _ = _
      rw [Tbl.get_set_other _ _ _ (Ne.symm hj)]; rfl

theorem State.setVreg_uform (s : State) (k n l : Nat) (w : Word) : ((s.setVreg k n l w).rill k).uform = (s.rill k).uform := by
  unfold State.setVreg; split
  · simp
  · rfl

/-- The writes of one register in several lanes. -/
theorem State.setVregs (s : State) (k n : Nat) (f : Nat → Word) (ls : List Nat) (h : ∀ l ∈ ls, l < 64) :
    let t := (ls.map (fun l => (l, f l))).foldl (fun s p => s.setVreg k n p.1 p.2) s
    VWrote s t k ∧ (t.rill k).uform = (s.rill k).uform ∧
    ∀ m j, j < 64 → t.vreg k m j = if m = n ∧ j ∈ ls then f j else s.vreg k m j := by
  induction ls generalizing s with
  | nil => exact ⟨VWrote.refl s k, rfl, fun m j _ => by simp⟩
  | cons a ls ih =>
    obtain ⟨h1, h2, h3⟩ := ih (s.setVreg k n a (f a)) (fun l hl => h l (by simp [hl]))
    refine ⟨(s.setVreg_wrote k n a (f a)).trans h1, h2.trans (s.setVreg_uform k n a (f a)), fun m j hj => ?_⟩
    refine (h3 m j hj).trans ?_
    rw [State.setVreg_vreg _ _ _ _ _ _ _ (h a (by simp)) hj]
    by_cases hm : m = n
    · subst hm
      by_cases hja : j = a
      · subst hja; by_cases hj : j ∈ ls <;> simp [hj]
      · simp [hja, Ne.symm hja]
    · simp [hm, Ne.symm hm]

/-- Clearing latches changes nothing else. -/
theorem State.clearLatches_frame (s : State) (c p : Nat) (q : Nat → Latch → Bool) :
    s.clearLatches c p q = { s with cores := (s.clearLatches c p q).cores } := by
  unfold State.clearLatches; split <;> rfl

theorem State.clearLatches_core (s : State) (c p d : Nat) (q : Nat → Latch → Bool) :
    ((s.clearLatches c p q).core d).others = (s.core d).others := by
  unfold State.clearLatches
  split
  · rfl
  · rw [State.core_modCore]; split
    · next e => subst e; rfl
    · rfl

theorem State.clearLatches_rill (s : State) (c p j : Nat) (q : Nat → Latch → Bool) : (s.clearLatches c p q).rill j = s.rill j := by
  rw [State.clearLatches_frame]; rfl

theorem State.clearLatches_vreg (s : State) (c p j n l : Nat) (q : Nat → Latch → Bool) :
    (s.clearLatches c p q).vreg j n l = s.vreg j n l := by
  rw [State.clearLatches_frame]; rfl

theorem State.clearLatches_cur (s : State) (c p : Nat) (q : Nat → Latch → Bool) : (s.clearLatches c p q).cur = s.cur := by
  rw [State.clearLatches_frame]

theorem State.clearLatches_wrote (s : State) (c p k : Nat) (q : Nat → Latch → Bool) : VWrote s (s.clearLatches c p q) k := by
  refine ⟨?_, fun j _ => s.clearLatches_rill c p j q, ?_, fun d => s.clearLatches_core c p d q,
    fun j n l _ => s.clearLatches_vreg c p j n l q⟩
  · rw [State.clearLatches_frame]; rfl
  · rw [s.clearLatches_rill]

/-- A write of vector register `n` of rill `k`: the lanes given hold their values, every other register is as
it was, and only the uniform form of `n` may change, and that only where a lane acts. -/
theorem State.vwrite_spec (s : State) (k n : Nat) (u : Bool) (f : Nat → Word) (ls : List Nat) (h : ∀ l ∈ ls, l < 64) :
    let t := s.vwrite k n u (ls.map (fun l => (l, f l)))
    VWrote s t k ∧ (∀ m j, j < 64 → t.vreg k m j = if m = n ∧ j ∈ ls then f j else s.vreg k m j) ∧
    (∀ m, m ∈ (t.rill k).uform ↔ if m = n ∧ ls ≠ [] then u = true else m ∈ (s.rill k).uform) := by
  intro t
  by_cases hls : ls = []
  · subst hls
    have ht : t = s := rfl
    rw [ht]
    exact ⟨VWrote.refl s k, by simp, by simp⟩
  obtain ⟨h1, h2, h3⟩ := s.setVregs k n f ls h
  let a := (ls.map (fun l => (l, f l))).foldl (fun s p => s.setVreg k n p.1 p.2) s
  let b := a.modRill k (fun r =>
    { r with uform := if u then n :: r.uform.filter (· != n) else r.uform.filter (· != n) })
  have hne : (ls.map (fun l => (l, f l))).isEmpty = false := by cases ls <;> simp_all
  have ht : t = b.clearLatches (keyCore k) (keyPart k) (fun _ h => h.rill == k && h.reg == n) := by
    show s.vwrite k n u _ = _
    unfold State.vwrite
    rw [hne]; rfl
  have hv : ∀ j m i, b.vreg j m i = a.vreg j m i := by
    intro j m i
    unfold State.vreg
    split
    · show ((a.modRill k _).rill j).v.get 0 _ = _
      rw [State.rill_modRill]; split
      · next e => subst e; rfl
      · rfl
    · rfl
  have hb : VWrote a b k := ⟨rfl, fun j hj => by
      show (a.modRill k _).rill j = _
      rw [State.rill_modRill, if_neg (Ne.symm hj)],
    by simp [b], fun _ => rfl, fun j m i _ => hv j m i⟩
  refine ⟨(h1.trans hb).trans (by rw [ht]; exact b.clearLatches_wrote ..), fun m j hj => ?_, fun m => ?_⟩
  · rw [ht, State.clearLatches_vreg, hv]; exact h3 m j hj
  · rw [ht, State.clearLatches_rill]
    show m ∈ ((a.modRill k _).rill k).uform ↔ _
    rw [State.rill_modRill_same]
    have h2' : (a.rill k).uform = (s.rill k).uform := h2
    by_cases hm : m = n <;> cases u <;> simp [hm, h2', hls]

/-- A write of uniform register `n`. -/
theorem State.kwrite_spec (s : State) (k n : Nat) (w : Word) :
    let t := s.kwrite k n w
    t.others = s.others ∧ (∀ j, j ≠ k → t.rill j = s.rill j) ∧
    t.rill k = { s.rill k with k := (s.rill k).k.set n w } ∧ (∀ c, (t.core c).others = (s.core c).others) ∧
    ∀ j m l, t.vreg j m l = s.vreg j m l := by
  intro t
  have ht : t = (s.modRill k (·.setK n w)).clearLatches (keyCore k) (keyPart k)
    (fun _ h => h.rill == k && h.reg == latchK n) := rfl
  refine ⟨?_, fun j hj => ?_, ?_, fun c => ?_, fun j m l => ?_⟩
  · rw [ht, State.clearLatches_frame]; rfl
  · rw [ht, State.clearLatches_rill, State.rill_modRill, if_neg (Ne.symm hj)]
  · rw [ht, State.clearLatches_rill, State.rill_modRill_same]; rfl
  · rw [ht, State.clearLatches_core]; rfl
  · rw [ht, State.clearLatches_vreg]
    unfold State.vreg
    split
    · rw [State.rill_modRill]; split
      · next e => subst e; rfl
      · rfl
    · rfl

/-! ## Whole register instructions -/

theorem MemKept.of_others {s t : State} (h : t.others = s.others) : MemKept s t := by
  have hd : t.dram = s.dram := (congrArg (fun x : State => x.dram) h : t.others.dram = s.others.dram)
  have hb : t.basin = s.basin := (congrArg (fun x : State => x.basin) h : t.others.basin = s.others.basin)
  have hh : t.hostMem = s.hostMem := (congrArg (fun x : State => x.hostMem) h : t.others.hostMem = s.others.hostMem)
  have hr : t.rooms = s.rooms := (congrArg (fun x : State => x.rooms) h : t.others.rooms = s.others.rooms)
  refine ⟨fun a => by rw [hd], fun a => by rw [hb], fun a => by rw [hh], fun r a => ?_⟩
  unfold State.room; rw [hr]

theorem State.cur_of_others {s t : State} (h : t.others = s.others) : t.cur = s.cur := by
  have : t.others.cur = s.others.cur := by rw [h]
  exact this

/-- Registers written, then threads changed: the shape of every register instruction. -/
theorem vecDone_of {s t : State} {dests lanes : List Nat} {val : Nat → Nat → Word} {fl : Nat → BitVec 5}
    (hc : s.cohortOk) (hw : VWrote s t s.cur.rill)
    (hv : ∀ n l, l < 64 → t.vreg s.cur.rill n l = if n ∈ dests ∧ l ∈ lanes then val n l else s.vreg s.cur.rill n l)
    (hu : ∀ n, n ∉ dests → (n ∈ (t.rill s.cur.rill).uform ↔ n ∈ s.curRill.uform))
    (hl : lanes.Nodup) :
    VecDone s (t.raiseFlags s.cur.rill lanes fl).advance dests lanes val fl := by
  have hcur : t.cur = s.cur := State.cur_of_others hw.state
  have e : (t.raiseFlags s.cur.rill lanes fl).advance =
      (t.mapThreads s.cur.rill lanes (fun l x => { x with flags := x.flags ||| fl l })).mapThreads s.cur.rill s.cur.lanes
        (fun _ x => { x with pc := s.cur.pc + 4 }) := by
    unfold State.advance State.moveTo State.raiseFlags
    rw [State.mapThreads_cur, hcur]
  rw [e]
  generalize hm : t.mapThreads s.cur.rill lanes (fun l x => { x with flags := x.flags ||| fl l }) = m
  generalize ha : m.mapThreads s.cur.rill s.cur.lanes (fun _ x => { x with pc := s.cur.pc + 4 }) = a
  have hmr : ∀ j, m.rill j = if s.cur.rill = j then (t.rill s.cur.rill).mapThreads lanes (fun l x => { x with flags := x.flags ||| fl l }) else t.rill j :=
    fun j => by rw [← hm, State.mapThreads_rill]
  have har : ∀ j, a.rill j = if s.cur.rill = j then (m.rill s.cur.rill).mapThreads s.cur.lanes (fun _ x => { x with pc := s.cur.pc + 4 }) else m.rill j :=
    fun j => by rw [← ha, State.mapThreads_rill]
  have hself : a.rill s.cur.rill = { s.curRill with v := (t.rill s.cur.rill).v, uform := (t.rill s.cur.rill).uform, th := (a.rill s.cur.rill).th } := by
    rw [har, if_pos rfl, Rill.mapThreads_frame, hmr, if_pos rfl, Rill.mapThreads_frame, hw.self]; rfl
  have hacur : a.cur = s.cur := by rw [← ha, ← hm]; exact hcur
  have hx : a.xblks = t.xblks := by rw [← ha, ← hm]; rfl
  have hco : a.cores = t.cores := by rw [← ha, ← hm]; rfl
  have hvr : ∀ j n l, a.vreg j n l = t.vreg j n l := by
    intro j n l
    have hjv : (a.rill j).v = (t.rill j).v := by
      by_cases hj : s.cur.rill = j
      · subst hj; rw [hself]
      · rw [har, if_neg hj, hmr, if_neg hj]
    unfold State.vreg State.xblk
    rw [hjv, hx]
  have hk : a.curRill = a.rill s.cur.rill := by unfold State.curRill; rw [hacur]
  have hoth : a.others = s.others := by rw [← ha, ← hm]; exact hw.state
  refine ⟨⟨hoth, fun j hj => ?_, fun c => ?_, ?_, MemKept.of_others hoth⟩, fun j n l hj => ?_, fun n => ?_, fun n l hl => ?_, fun n hn => ?_, fun l => ?_⟩
  · rw [har, if_neg (Ne.symm hj), hmr, if_neg (Ne.symm hj)]; exact hw.rills j hj
  · unfold State.core; rw [hco]; exact hw.cores c
  · rw [hk, hself]; rfl
  · rw [hvr]; exact hw.foreign j n l hj
  · rw [hk, hself]; rfl
  · rw [hvr]; exact hv n l hl
  · rw [hk, hself]; exact hu n hn
  · rw [hk, har, if_pos rfl, Rill.thread_mapThreads _ _ _ hc.1, hmr, if_pos rfl, Rill.thread_mapThreads _ _ _ hl]
    have ht : (t.rill s.cur.rill).thread l = s.curRill.thread l := by rw [hw.self]; rfl
    rw [ht]
    unfold State.moved
    by_cases h1 : l ∈ s.cur.lanes <;> by_cases h2 : l ∈ lanes <;> simp [h1, h2]

theorem State.raiseFlags_none (s : State) (k : Nat) : s.raiseFlags k [] (fun _ => 0) = s.setRill k (s.rill k) := rfl

/-- The same without flags. -/
theorem vecDone_of_quiet {s t : State} {dests lanes : List Nat} {val : Nat → Nat → Word}
    (hc : s.cohortOk) (hw : VWrote s t s.cur.rill)
    (hv : ∀ n l, l < 64 → t.vreg s.cur.rill n l = if n ∈ dests ∧ l ∈ lanes then val n l else s.vreg s.cur.rill n l)
    (hu : ∀ n, n ∉ dests → (n ∈ (t.rill s.cur.rill).uform ↔ n ∈ s.curRill.uform)) :
    VecDone s t.advance dests lanes val (fun _ => 0) := by
  have hcur : t.cur = s.cur := State.cur_of_others hw.state
  have e : t.advance = t.mapThreads s.cur.rill s.cur.lanes (fun _ x => { x with pc := s.cur.pc + 4 }) := by
    unfold State.advance State.moveTo; rw [hcur]
  rw [e]
  generalize ha : t.mapThreads s.cur.rill s.cur.lanes (fun _ x => { x with pc := s.cur.pc + 4 }) = a
  have har : ∀ j, a.rill j = if s.cur.rill = j then (t.rill s.cur.rill).mapThreads s.cur.lanes (fun _ x => { x with pc := s.cur.pc + 4 }) else t.rill j :=
    fun j => by rw [← ha, State.mapThreads_rill]
  have hself : a.rill s.cur.rill = { s.curRill with v := (t.rill s.cur.rill).v, uform := (t.rill s.cur.rill).uform, th := (a.rill s.cur.rill).th } := by
    rw [har, if_pos rfl, Rill.mapThreads_frame, hw.self]; rfl
  have hacur : a.cur = s.cur := by rw [← ha]; exact hcur
  have hx : a.xblks = t.xblks := by rw [← ha]; rfl
  have hco : a.cores = t.cores := by rw [← ha]; rfl
  have hvr : ∀ j n l, a.vreg j n l = t.vreg j n l := by
    intro j n l
    have hjv : (a.rill j).v = (t.rill j).v := by
      by_cases hj : s.cur.rill = j
      · subst hj; rw [hself]
      · rw [har, if_neg hj]
    unfold State.vreg State.xblk
    rw [hjv, hx]
  have hk : a.curRill = a.rill s.cur.rill := by unfold State.curRill; rw [hacur]
  have hoth : a.others = s.others := by rw [← ha]; exact hw.state
  refine ⟨⟨hoth, fun j hj => ?_, fun c => ?_, ?_, MemKept.of_others hoth⟩, fun j n l hj => ?_, fun n => ?_, fun n l hl => ?_, fun n hn => ?_, fun l => ?_⟩
  · rw [har, if_neg (Ne.symm hj)]; exact hw.rills j hj
  · unfold State.core; rw [hco]; exact hw.cores c
  · rw [hk, hself]; rfl
  · rw [hvr]; exact hw.foreign j n l hj
  · rw [hk, hself]; rfl
  · rw [hvr]; exact hv n l hl
  · rw [hk, hself]; exact hu n hn
  · rw [hk, har, if_pos rfl, Rill.thread_mapThreads _ _ _ hc.1]
    have ht : (t.rill s.cur.rill).thread l = s.curRill.thread l := by rw [hw.self]; rfl
    rw [ht]
    unfold State.moved
    by_cases h1 : l ∈ s.cur.lanes <;> simp [h1]

/-- A vector operation without flags. -/
theorem State.vop_done (s : State) (hc : s.cohortOk) (g d : Nat) (srcs : List Nat) (f : Nat → Word) :
    VecDone s (s.vop g d srcs f) [s.curRill.vname d] (s.acting g) (fun _ l => f l) (fun _ => 0) := by
  obtain ⟨h1, h2, h3⟩ := s.vwrite_spec s.cur.rill (s.curRill.vname d + 0)
    (((some srcs).map (s.uniformWrite (s.acting g))).getD false) f (s.acting g) (fun l hl => State.acting_lt hc hl)
  refine vecDone_of_quiet hc h1 (fun n l hl => ?_) (fun n hn => ?_)
  · rw [show (s.vdst d 0 (some srcs) (s.acting g) f).vreg s.cur.rill n l = _ from h2 n l hl]; simp
  · refine (h3 n).trans ?_
    have : n ≠ s.curRill.vname d := by simpa using hn
    rw [if_neg (fun hx => this (by simpa using hx.1))]; rfl

/-- A floating-point operation: values and flags; none with NF set. -/
theorem State.fop_done (s : State) (hc : s.cohortOk) (d : BitVec 7) (srcs : List Nat) (n : BitVec 1) (g : Nat) (f : Nat → FRes) :
    VecDone s (s.fop d srcs n g f) [s.curRill.vname d.toNat] (s.acting g) (fun _ l => BitVec.ofNat 32 (f l).1)
      (fun l => if n = 1 then 0 else (f l).2) := by
  obtain ⟨h1, h2, h3⟩ := s.vwrite_spec s.cur.rill (s.curRill.vname d.toNat + 0)
    (((some srcs).map (s.uniformWrite (s.acting g))).getD false) (fun l => BitVec.ofNat 32 (f l).1) (s.acting g)
    (fun l hl => State.acting_lt hc hl)
  have hv : ∀ n l, l < 64 → (s.vdst d.toNat 0 (some srcs) (s.acting g) (fun l => BitVec.ofNat 32 (f l).1)).vreg s.cur.rill n l
      = if n ∈ [s.curRill.vname d.toNat] ∧ l ∈ s.acting g then BitVec.ofNat 32 (f l).1 else s.vreg s.cur.rill n l :=
    fun n l hl => (h2 n l hl).trans (by simp)
  have hu : ∀ n, n ∉ [s.curRill.vname d.toNat] →
      (n ∈ ((s.vdst d.toNat 0 (some srcs) (s.acting g) (fun l => BitVec.ofNat 32 (f l).1)).rill s.cur.rill).uform ↔ n ∈ s.curRill.uform) := by
    intro n hn
    refine (h3 n).trans ?_
    have : n ≠ s.curRill.vname d.toNat := by simpa using hn
    rw [if_neg (fun hx => this (by simpa using hx.1))]; rfl
  unfold State.fop
  by_cases hn : n = 1
  · subst hn; exact vecDone_of_quiet hc h1 hv hu
  · have h := vecDone_of (fl := fun l => (f l).2) hc h1 hv hu (State.acting_nodup hc g)
    have e : (fun l => if n = 1 then (0 : BitVec 5) else (f l).2) = fun l => (f l).2 := by
      funext l; rw [if_neg hn]
    rw [e]
    simp only [if_neg hn]
    exact h

/-- A uniform operation. -/
theorem State.kop_done (s : State) (hc : s.cohortOk) (d : BitVec 7) (w : Word) :
    UniDone s (s.udst d.toNat 0 w).advance [s.curRill.kname d.toNat] (fun _ => w) := by
  obtain ⟨h1, h2, h3, h4, h5⟩ := s.kwrite_spec s.cur.rill (s.curRill.kname d.toNat + 0) w
  generalize ht : s.udst d.toNat 0 w = t
  have ht' : s.kwrite s.cur.rill (s.curRill.kname d.toNat + 0) w = t := ht
  rw [ht'] at h1 h2 h3 h4 h5
  have hcur : t.cur = s.cur := State.cur_of_others h1
  have e : t.advance = t.mapThreads s.cur.rill s.cur.lanes (fun _ x => { x with pc := s.cur.pc + 4 }) := by
    unfold State.advance State.moveTo; rw [hcur]
  rw [e]
  generalize ha : t.mapThreads s.cur.rill s.cur.lanes (fun _ x => { x with pc := s.cur.pc + 4 }) = a
  have har : ∀ j, a.rill j = if s.cur.rill = j then (t.rill s.cur.rill).mapThreads s.cur.lanes (fun _ x => { x with pc := s.cur.pc + 4 }) else t.rill j :=
    fun j => by rw [← ha, State.mapThreads_rill]
  have hself : a.rill s.cur.rill = { s.curRill with k := (s.curRill).k.set (s.curRill.kname d.toNat) w, th := (a.rill s.cur.rill).th } := by
    rw [har, if_pos rfl, Rill.mapThreads_frame, h3]; rfl
  have hacur : a.cur = s.cur := by rw [← ha]; exact hcur
  have hx : a.xblks = t.xblks := by rw [← ha]; rfl
  have hco : a.cores = t.cores := by rw [← ha]; rfl
  have hk : a.curRill = a.rill s.cur.rill := by unfold State.curRill; rw [hacur]
  have hoth : a.others = s.others := by rw [← ha]; exact h1
  refine ⟨⟨hoth, fun j hj => ?_, fun c => ?_, ?_, MemKept.of_others hoth⟩, fun j n l => ?_, ?_, fun n => ?_, fun l => ?_⟩
  · rw [har, if_neg (Ne.symm hj)]; exact h2 j hj
  · unfold State.core; rw [hco]; exact h4 c
  · rw [hk, hself]; rfl
  · have hjv : (a.rill j).v = (t.rill j).v := by
      by_cases hj : s.cur.rill = j
      · subst hj; rw [hself, h3]; rfl
      · rw [har, if_neg hj]
    rw [← h5 j n l]; unfold State.vreg State.xblk; rw [hjv, hx]
  · rw [hk, hself]
  · rw [hk, hself]
    show Tbl.get 0 (Tbl.set _ _ _) n = _
    rw [Tbl.get_set]
    by_cases e : n = s.curRill.kname d.toNat
    · subst e; simp
    · simp [e, Ne.symm e]; rfl
  · rw [hk, har, if_pos rfl, Rill.thread_mapThreads _ _ _ hc.1, h3]; rfl

end Sys2Proof.Machine
end

