-- ==== Sys2Proof/Tests/Slice0.lean ====
section
/-! SUPPORT. The author's tests: ill-formed words that are refused, words written out from the spec's encodings, worked
examples of the spec, and for every statement with hypotheses a concrete state that meets them. -/
namespace Sys2Proof.Tests
open Sys2Proof.Machine
set_option Elab.async false

/-! ## Well-formed words (R145): for each check a word that passes it and one that does not -/

def allWf (l : List Instr) : Bool := l.all (fun i => i.wf false)
def noneWf (l : List Instr) : Bool := l.all (fun i => !i.wf false)

theorem wf_branch_nibble : allWf [.bra 0 0, .bra 7 1, .call 3 0] = true ∧ noneWf [.bra 4 0, .bra 8 0, .call 4 0, .call 15 0] = true := by decide
theorem wf_waitc_tags : allWf [.waitc 1 15 15 0 15, .waitc 0 0 15 15 15] = true ∧ noneWf [.waitc 0 0 0 0 0, .waitc 1 0 0 15 0] = true := by decide
theorem wf_spawn_pair : allWf [.spawn 2 0 0 0] = true ∧ noneWf [.spawn 3 0 0 0] = true := by decide
theorem wf_vtok_lane : allWf [.vtok 5 1 63, .vtok 5 1 127] = true ∧ noneWf [.vtok 5 1 64, .vtok 5 1 126] = true := by decide
theorem wf_no_broadcast_destination : allWf [.iadd 95 96 127 1 0, .li 95 0] = true ∧
    noneWf [.iadd 96 0 0 0 0, .li 127 0, .fadd 96 0 0 0 0 0, .bfi 96 0 0, .st32 96 0 0 0 0 0, .vfrecv 96, .arrive 96 0 0, .tprog 96 0 0] = true := by decide
theorem wf_pairs : allWf [.iadd64 4 2 0 0 0, .ld64 10 96 0 0 0 0, .rcopy 0 0 0] = true ∧
    noneWf [.iadd64 3 2 0 0 0, .iadd64 4 1 0 0 0, .iadd64 4 2 1 0 0, .ld64 11 96 0 0 0 0, .ld32 4 1 0 0 0 0, .stk 5 2 0 0 0 1, .rcopy 1 0 0,
      .coll 3 0 0, .rop 5 0 0, .pint 1 0, .pref 1 0 0, .tmma 1 0 0 0, .acopy 0 0 1 0 0 0 0] = true := by decide
theorem wf_quads : allWf [.ld128 4 0 0 0 0 0, .tlda 0 0 4 0 0 0, .prefSc 4 0 0 0] = true ∧
    noneWf [.ld128 2 0 0 0 0 0, .st128 6 0 0 0 0 0, .tlda 0 0 2 0 0 0, .prefSc 2 0 0 0, .cctlClean 2, .cctlEvict 1, .tlbinvPage 6] = true := by decide
theorem wf_icmp_condition : allWf [.icmp 5 1 0 0 0 0 0] = true ∧ noneWf [.icmp 6 1 0 0 0 0 0, .icmp 7 1 0 0 0 0 0] = true := by decide
theorem wf_frnd_mode : allWf [.frnd 1 2 4 0 0 0] = true ∧ noneWf [.frnd 1 2 5 0 0 0] = true := by decide
theorem wf_conversion_types : allWf [.cvt 3 2 8 0 0, .cvtn 3 2 11 8 0, .cvt 3 2 8 14 7] = true ∧
    noneWf [.cvt 3 2 8 8 0, .cvt 3 2 13 8 0, .cvt 3 2 15 8 0, .cvt 3 2 8 15 0, .cvt 3 2 0 13 0, .cvtn 3 2 8 9 0] = true := by decide
theorem wf_conversion_places : allWf [.cvt 4 2 3 8 0, .cvt 3 2 8 9 1, .cvt 3 2 8 0 3] = true ∧
    noneWf [.cvt 3 2 3 8 0, .cvt 4 3 8 7 0, .cvt 3 2 8 9 2, .cvt 3 2 8 0 4, .cvt 3 2 9 8 1] = true := by decide
theorem wf_unpack : allWf [.unpack 4 2 8 0, .unpack 2 2 9 1, .unpack 2 2 10 0] = true ∧ noneWf [.unpack 2 2 8 0, .unpack 3 2 9 0, .unpack 4 2 11 0] = true := by decide
theorem wf_sfn_function : allWf [.sfn 3 4 9 0 0 0] = true ∧ noneWf [.sfn 3 4 10 0 0 0] = true := by decide
theorem wf_cross_lane : allWf [.vote 3 2 0 0, .vote 4 2 96 2, .shfl 1 2 3 3, .perm 1 2 63 2, .perm 1 2 0 3, .redx 1 2 126 7, .matchx 1 2 0 1] = true ∧
    noneWf [.vote 4 2 0 0, .vote 5 2 0 2, .vote 1 2 0 3, .vote 1 2 97 0, .vote 1 2 2 0, .shfl 1 2 3 4, .perm 1 2 1 3, .perm 1 2 0 4, .redx 1 2 0 8,
      .redx 1 2 95 0, .scanx 1 2 97 0, .matchx 1 2 0 2, .elect 1 1] = true := by decide
theorem wf_orders : allWf [.ld32 4 8 2 0 1 0, .st32 4 8 2 0 2 0, .atom32 4 8 2 0 3 0] = true ∧
    noneWf [.ld32 4 8 2 0 0 0, .ld32 4 8 2 0 2 0, .ld32 4 8 2 0 3 0, .st32 4 8 2 0 1 0, .ldk 4 8 0 0 2 0, .stk 4 8 0 0 3 0, .atom32 4 8 1 0 0 0,
      .red32 4 8 0 0 1 0] = true := by decide
theorem wf_local_sizes : allWf [.ldl 4 1 2 0 0, .stl 2 1 1 0 0] = true ∧ noneWf [.ldl 4 1 3 0 0, .ldl 3 1 1 0 0, .stl 2 1 2 0 0] = true := by decide
theorem wf_atomics : allWf [.atom32 5 8 0 12 0 0, .atom32 6 8 0 7 0 0, .atom64 4 8 0 9 0 0, .red32 5 8 0 10 0 0] = true ∧
    noneWf [.atom32 5 8 0 13 0 0, .atom32 5 8 0 7 0 0, .atom64 5 8 0 0 0 0, .atom64 6 8 0 7 0 0, .atom64 4 8 0 10 0 0, .red32 4 8 0 6 0 0, .red64 4 8 0 9 0 0] = true := by decide
theorem wf_fence : allWf [.fence 2 1] = true ∧ noneWf [.fence 3 1, .fence 0 0] = true := by decide
theorem wf_tile_slots : allWf [.tlda 3 15 4 0 0 0, .tsta 0 14 4 0 0 0, .tcvt 0 14 4 0 0 0] = true ∧
    noneWf [.tlda 0 15 4 0 0 0, .tsta 3 14 4 0 0 0, .tcvt 0 15 4 0 0 0] = true := by decide
theorem wf_window_bases : allWf [.wbase 10 8, .wbase 15 15] = true ∧ noneWf [.wbase 11 0, .wbase 0 9, .wbase 14 0] = true := by decide
theorem wf_special_registers : allWf [.mfs 0 0x012 0, .mfs 2 0x011 0, .mts 3 0x001 0] = true ∧
    noneWf [.mfs 0 0x003 0, .mfs 1 0x011 0, .mts 3 0x012 0, .mfs 96 0x012 0] = true ∧ Instr.wf true (.mfs 96 0x012 0) = true := by decide

/-! ## Words written out from the encodings of 06 to 18 -/

def reads (l : List (Nat × Instr)) : Bool := l.all (fun p => decode p.1 == some p.2)

theorem decode_control : reads [(0x02BFFFF0, .bra 5 0x1FFFF0), (0x069FFFFE, .kbra 0 4 0x1FFFFE), (0x0E000000, .exit 0), (0x10000000, .nop),
    (0x12000000, .yield), (0x1A23FC3C, .waitc 1 15 15 0 15)] = true := by decide
theorem decode_uniform : reads [(0x20142840, .kadd 5 5 4 0), (0x3A140000, .kli 5 0), (0x3A180001, .kli 6 1), (0x380C082F, .kcmp 3 1 2 1 1 3)] = true := by decide
theorem decode_vector : reads [(0x56180020, .ishl 6 0 2 0 0), (0x62140828, .idot4S8 5 1 2), (0x64080002, .li 2 2), (0x6E244640, .ffma 9 8 100 0 0 0),
    (0x74282050, .fcmp 2 2 4 5 0 0 0), (0x7E181030, .fadd2Bf16 6 2 3 0 0 0)] = true := by decide
theorem decode_convert : reads [(0x980C15C0, .cvt 3 2 11 8 0), (0xA0201880, .unpack 8 3 8 0), (0xA2142000, .qblk 5 4 0), (0xA80C2010, .sfn 3 4 1 0 0 0)] = true := by decide
theorem decode_cross_lane : reads [(0xB0041000, .vote 1 2 0 0), (0xBA201801, .matchx 8 3 0 1), (0xBC040000, .elect 1 0)] = true := by decide
theorem decode_memory : reads [(0xC4104224, .ld32 4 8 2 2 1 0), (0xC62B0000, .ld64 10 96 0 0 0 0), (0xCE245000, .st32 9 10 0 0 0 0),
    (0xD4141001, .stk 5 2 0 0 0 0), (0xD6181110, .ldl 6 2 1 1 0), (0xD6141400, .stl 5 2 0 0 0), (0xD8144080, .atom32 5 8 0 8 0 0),
    (0xDA10437C, .atom64 4 8 3 7 3 0), (0xDC144308, .red32 5 8 3 0 2 0), (0xE6000088, .fence 0 0x88)] = true := by decide
theorem decode_engines : reads [(0xE00C2065, .acopy 0 3 4 6 0 1 1), (0xE4004000, .rcopy 8 0 0), (0xE8004000, .tmma 8 0 0 0), (0xEAFC4020, .tsta 3 15 8 0 0 0),
    (0xF8004010, .rop 8 0 0), (0xF8004000, .coll 8 0 0)] = true := by decide
theorem decode_synchronisation : reads [(0xF0001030, .barInit 2 3), (0xF0101601, .arrive 4 2 96), (0xF2080000, .ringPost 2), (0xF41C0001, .vfrecv 7),
    (0xF6001022, .wbase 2 2), (0xF6000000, .xacq)] = true := by decide
theorem decode_system : reads [(0xFC000120, .mfs 0 0x012 0), (0xFC010200, .eretKill), (0xFC110120, .tlbinvCtx 4), (0xFC010030, .halt),
    (0xFA002060, .pint 4 6)] = true := by decide
theorem decode_refuses : [0x00000000, 0x10000001, 0x12000001, 0xFE000000].all (fun w => (decode w).isNone) = true := by decide

/-! ## Small states -/

/-- A rill of 16 lanes whose whole cohort is at an issue. -/
def base : State :=
  { ((State.reset.place 0x10000000).modDie 1 (fun d => { d with st := .active })) with
    grants := [], cur := { rill := placeKey false, pc := 0x10000, lanes := List.range 16, word := 0 } }

def modMe (s : State) (f : Rill → Rill) : State := s.modRill s.cur.rill f
def modTh (s : State) (f : Nat → Thread → Thread) : State := modMe s (fun r => r.mapThreads (List.range 16) f)
def withK (s : State) (l : List (Nat × Word)) : State := modMe s (fun r => { r with k := l.foldl (fun k p => k.set p.1 p.2) r.k })
/-- Vector register n of lane 0 for each pair. -/
def withV (s : State) (l : List (Nat × Word)) : State := modMe s (fun r => { r with v := l.foldl (fun v p => v.set (64 * p.1) p.2) r.v })
/-- Vector register n of lane l for each triple. -/
def withVs (s : State) (l : List (Nat × Nat × Word)) : State :=
  modMe s (fun r => { r with v := l.foldl (fun v p => v.set (64 * p.1 + p.2.1) p.2.2) r.v })
/-- Only lane 0 has guard 1. -/
def oneLane (s : State) : State := modTh s (fun l x => { x with g1 := l == 0 })

def after (s : State) (i : Instr) (p : State → Bool) : Bool :=
  match exec i s with
  | .next t => p t
  | _ => false

def reg (t : State) (n l : Nat) : Word := t.vreg t.cur.rill n l
def flag (t : State) (l : Nat) : BitVec 5 := (t.curRill.thread l).flags
def cause (t : State) : Option Nat := t.curRill.trap.map (·.cause)

theorem base_cohortOk : base.cohortOk := by unfold State.cohortOk; decide

theorem cohortOk_of {s : State} (h : s.cur = base.cur) : s.cohortOk := by unfold State.cohortOk; rw [h]; decide


/-! ## One step of one instruction, with results the spec gives or that its rules give by hand -/

/-- 07: KLI k5,0 and KLIH k5,0x710 load 0x1C40_0000; KCMP compares by the signedness of its m. -/
theorem test_klih : after (withK base [(5, 0)]) (.klih 5 0x710) (fun t => t.curRill.kreg 5 == 0x1C400000) = true := by decide
theorem test_kadd_wraps : after (withK base [(4, 0xFFFFFFFF), (5, 2)]) (.kadd 5 5 4 0) (fun t => t.curRill.kreg 5 == 1 && (t.curRill.thread 15).pc == 0x10004) = true := by decide
theorem test_ksub : after (withK base [(4, 3), (6, 5)]) (.ksub 5 4 6 0) (fun t => t.curRill.kreg 5 == 0xFFFFFFFE) = true := by decide
theorem test_kmul24_signed : after (withK base [(4, 0x00FFFFFF), (6, 3)]) (.kmul24 5 4 6 0 1) (fun t => t.curRill.kreg 5 == 0xFFFFFFFD) = true := by decide
theorem test_kmul32 : after (withK base [(4, 0x10001), (6, 0x10001)]) (.kmul32 5 4 6 0) (fun t => t.curRill.kreg 5 == 0x00020001) = true := by decide
theorem test_kcmp_unsigned : after (withK base [(2, 0xFFFFFFFF), (1, 5)]) (.kcmp 3 2 1 0 0 3) (fun t => t.curRill.kreg 3 == 0) = true := by decide
theorem test_kcmp_signed : after (withK base [(2, 0xFFFFFFFF), (1, 5)]) (.kcmp 3 2 1 0 1 3) (fun t => t.curRill.kreg 3 == 1) = true := by decide
theorem test_ksar_far : after (withK base [(2, 0x80000000), (1, 40)]) (.ksar 3 2 1 0) (fun t => t.curRill.kreg 3 == 0xFFFFFFFF) = true := by decide
theorem test_kshl_far : after (withK base [(2, 1), (1, 32)]) (.kshl 3 2 1 0) (fun t => t.curRill.kreg 3 == 0) = true := by decide
theorem test_ksel_old : after (withK base [(2, 7), (1, 9), (3, 0)]) (.ksel 3 2 1 0) (fun t => t.curRill.kreg 3 == 9) = true := by decide
theorem test_kmin_signed : after (withK base [(2, 0xFFFFFFFF), (1, 9)]) (.kmin 3 2 1 0 1) (fun t => t.curRill.kreg 3 == 0xFFFFFFFF) = true := by decide

/-- 08: 0x0080_0000 squared, signed, has high part 0x4000; the byte products of 1, 2, 3, −1 with 4 make 120 on 100, and 1,144 unsigned. -/
theorem test_imul24h : after (withV base [(1, 0x00800000)]) (.imul24h 5 1 1 0 1 0) (fun t => reg t 5 0 == 0x4000) = true := by decide
theorem test_idot4_s8 : after (withV base [(1, 0x010203FF), (2, 0x04040404), (5, 100)]) (.idot4S8 5 1 2) (fun t => reg t 5 0 == 120) = true := by decide
theorem test_idot4_z8 : after (withV base [(1, 0x010203FF), (2, 0x04040404), (5, 100)]) (.idot4Z8 5 1 2) (fun t => reg t 5 0 == 1144) = true := by decide
theorem test_bfe_signed : after (withV base [(1, 0x0F00), (2, 0x0408)]) (.bfeS32 5 1 2) (fun t => reg t 5 0 == 0xFFFFFFFF) = true := by decide
theorem test_bfi : after (withV base [(1, 0xAB), (2, 0x0808), (5, 0xFFFFFFFF)]) (.bfi 5 1 2) (fun t => reg t 5 0 == 0xFFFFABFF) = true := by decide
theorem test_iadd_lanes : after (withVs base [(1, 0, 3), (1, 15, 0xFFFFFFFF), (2, 0, 4), (2, 15, 1)]) (.iadd 1 1 2 0 0)
    (fun t => reg t 1 0 == 7 && reg t 1 15 == 0) = true := by decide
theorem test_iadd64_carry : after (withV base [(2, 0xFFFFFFFF), (3, 1), (4, 1)]) (.iadd64 6 2 4 0 0) (fun t => reg t 6 0 == 0 && reg t 7 0 == 2) = true := by decide
theorem test_guarded_lane : after (oneLane (withVs base [(1, 0, 3), (1, 1, 5)])) (.iadd 2 1 1 0 1) (fun t => reg t 2 0 == 6 && reg t 2 1 == 0) = true := by decide
theorem test_irot : after (withV base [(1, 0x80000001), (2, 33)]) (.irot 3 1 2 0 0) (fun t => reg t 3 0 == 3) = true := by decide
theorem test_isar_far : after (withV base [(1, 0x80000000), (2, 63)]) (.isar 3 1 2 0 0) (fun t => reg t 3 0 == 0xFFFFFFFF) = true := by decide
theorem test_imulh_signed : after (withV base [(1, 0xFFFFFFFF), (2, 2)]) (.imulh 3 1 2 0 1 0) (fun t => reg t 3 0 == 0xFFFFFFFF) = true := by decide
theorem test_imad24 : after (withV base [(1, 5), (2, 7), (3, 100)]) (.imad24 3 1 2 0 0 0) (fun t => reg t 3 0 == 135) = true := by decide
theorem test_iabs_least : after (withV base [(1, 0x80000000)]) (.iabs 3 1) (fun t => reg t 3 0 == 0x80000000) = true := by decide
theorem test_clz_zero : after base (.clz 3 1) (fun t => reg t 3 0 == 32) = true := by decide
theorem test_popc : after (withV base [(1, 0xF0F1)]) (.popc 3 1) (fun t => reg t 3 0 == 9) = true := by decide
theorem test_brev : after (withV base [(1, 1)]) (.brev 3 1) (fun t => reg t 3 0 == 0x80000000) = true := by decide +kernel
theorem test_icmp_guard : after (withV base [(1, 0xFFFFFFFF)]) (.icmp 2 2 1 0 0 1 0) (fun t => (t.curRill.thread 0).g2 && !(t.curRill.thread 1).g2) = true := by decide
theorem test_imax_unsigned : after (withV base [(1, 0xFFFFFFFF), (2, 1)]) (.imax 3 1 2 0 0 0) (fun t => reg t 3 0 == 0xFFFFFFFF) = true := by decide

/-- Formats: 1 + 2⁻²⁴ is a tie to even and inexact; 0 × ∞ is invalid; the largest FP32 doubled overflows. -/
theorem test_fadd_tie : after (withV base [(1, 0x3F800000), (2, 0x33800000)]) (.fadd 3 1 2 0 0 0) (fun t => reg t 3 0 == 0x3F800000 && flag t 0 == fNX) = true := by decide
theorem test_fmul_invalid : after (withV base [(2, 0x7F800000)]) (.fmul 3 1 2 0 0 0) (fun t => reg t 3 0 == 0x7FC00000 && flag t 0 == fNV) = true := by decide +kernel
theorem test_fadd_overflow : after (withV base [(1, 0x7F7FFFFF)]) (.fadd 3 1 1 0 0 0) (fun t => reg t 3 0 == 0x7F800000 && flag t 0 == (fOF ||| fNX)) = true := by decide
theorem test_ffma : after (withV base [(1, 0x40000000), (2, 0x40400000), (3, 0x3F800000)]) (.ffma 3 1 2 0 0 0) (fun t => reg t 3 0 == 0x40E00000) = true := by decide
theorem test_fsub_no_flags : after (withV base [(1, 0x3F800000), (2, 0x33000000)]) (.fsub 3 1 2 0 1 0) (fun t => flag t 0 == 0) = true := by decide
theorem test_fmin_zeros : after (withV base [(1, 0x80000000)]) (.fmin 3 1 2 0 0 0) (fun t => reg t 3 0 == 0x80000000) = true := by decide
theorem test_fmax_number : after (withV base [(1, 0x7FC00000), (2, 0x3F800000)]) (.fmax 3 1 2 0 0 0) (fun t => reg t 3 0 == 0x3F800000) = true := by decide
theorem test_fclass : after (withV base [(1, 0x00000001)]) (.fclass 3 1 0 0) (fun t => reg t 3 0 == 32) = true := by decide
theorem test_frnd : after (withV base [(1, 0x40200000)]) (.frnd 3 1 0 0 0 0) (fun t => reg t 3 0 == 0x40000000) = true := by decide +kernel
theorem test_fscale : after (withV base [(1, 0x3F800000), (2, 0xFFFFFFFF)]) (.fscale 3 1 2 0 0 0) (fun t => reg t 3 0 == 0x3F000000) = true := by decide
/-- 08: an ordered compare with a quiet NaN is false and raises NV. -/
theorem test_fcmp_nan : after (withV base [(4, 0xFFC00000)]) (.fcmp 2 2 4 5 0 0 0) (fun t => !(t.curRill.thread 0).g2 && flag t 0 == fNV) = true := by decide
theorem test_fadd2_bf16 : after (withV base [(2, 0x3F803F80), (3, 0x3B813B80)]) (.fadd2Bf16 6 2 3 0 0 0) (fun t => reg t 6 0 == 0x3F813F80 && flag t 0 == fNX) = true := by decide
theorem test_cvt_saturates_none : after (withV base [(2, 0x43960000)]) (.cvt 3 2 11 8 0) (fun t => reg t 3 0 == 0x79 && flag t 0 == fNX) = true := by decide
theorem test_cvt_nan_to_int : after (withV base [(2, 0x7FC00000)]) (.cvt 3 2 2 8 0) (fun t => reg t 3 0 == 0 && flag t 0 == fNV) = true := by decide
theorem test_cvtn_clamps : after (withV base [(2, 300)]) (.cvtn 3 2 0 2 0) (fun t => reg t 3 0 == 127 && flag t 0 == 0) = true := by decide
theorem test_pack_keeps_half : after (withV base [(1, 0x3F800000), (2, 0x40000000), (3, 0xAAAAAAAA)]) (.packF8e4 3 1 2 0 1 0) (fun t => reg t 3 0 == 0x4038AAAA) = true := by decide
theorem test_unpack : after (withV base [(3, 0x00004038)]) (.unpack 8 3 8 0) (fun t => reg t 8 0 == 0x3F800000 && reg t 9 0 == 0x40000000) = true := by decide
theorem test_sfn_rcp_zero : after base (.sfn 3 4 0 0 0 0) (fun t => reg t 3 0 == 0x7F800000 && flag t 0 == fDZ) = true := by decide

/-! Cross-lane instructions. -/

theorem test_vote_any : after (withVs base [(2, 7, 1)]) (.vote 1 2 0 0) (fun t => (t.curRill.thread 0).g1) = true := by decide
theorem test_ballot : after (withVs base [(2, 7, 1), (2, 0, 5)]) (.vote 4 2 0 2) (fun t => reg t 4 9 == 0x81 && reg t 5 9 == 0) = true := by decide
theorem test_shfl : after (withVs base [(1, 3, 9), (2, 0, 3)]) (.shfl 4 1 2 0) (fun t => reg t 4 0 == 9) = true := by decide
theorem test_perm_mirror : after (withVs base [(1, 15, 9)]) (.perm 4 1 0 3) (fun t => reg t 4 0 == 9 && reg t 4 15 == 0) = true := by decide
theorem test_redx_sum : after (withVs base [(1, 3, 9), (1, 4, 8)]) (.redx 4 1 0 0) (fun t => reg t 4 0 == 17 && reg t 4 15 == 17) = true := by decide
theorem test_scanx_sum : after (withVs base [(1, 3, 9), (1, 4, 8)]) (.scanx 4 1 0 0) (fun t => reg t 4 2 == 0 && reg t 4 3 == 9 && reg t 4 15 == 17) = true := by decide
theorem test_match_rank : after (withVs base [(3, 5, 7), (3, 9, 7)]) (.matchx 8 3 0 1) (fun t => reg t 8 5 == 0x00020000 && reg t 8 9 == 0x00020001) = true := by decide
theorem test_elect : after base (.elect 1 0) (fun t => (t.curRill.thread 0).g1 && !(t.curRill.thread 1).g1) = true := by decide
theorem test_qblk_width : after base (.qblk 5 4 0) (fun t => cause t == some 0x0D) = true := by decide

/-! Control, traps, synchronisation, special registers. -/

theorem test_bra : after (oneLane base) (.bra 1 8) (fun t => (t.curRill.thread 0).pc == 0x10020 && (t.curRill.thread 1).pc == 0x10004) = true := by decide
theorem test_bra_outside : after base (.bra 0 0x1FBFFF) (fun t => cause t == some 5) = true := by decide
theorem test_bra_to_kcode : after base (.bra 0 0x1FC000) (fun t => (t.curRill.thread 0).pc == 0) = true := by decide
theorem test_call_ret : after (oneLane base) (.call 1 8) (fun t => (t.curRill.thread 0).stack == [0x10004] && (t.curRill.thread 0).pc == 0x10020) = true := by decide
theorem test_ret_empty : after base (.ret 0) (fun t => cause t == some 7) = true := by decide
theorem test_kbra : after (withK base [(4, 1)]) (.kbra 0 4 0x1FFFFE) (fun t => (t.curRill.thread 9).pc == 0xFFF8) = true := by decide
theorem test_exit : after (oneLane base) (.exit 1) (fun t => (t.curRill.thread 0).exited && !(t.curRill.thread 1).exited) = true := by decide
theorem test_trap : after base (.trap 5) (fun t => cause t == some 8 && (t.curRill.trap.map (fun x => (x.pc, x.resume, x.aux))) == some (0x10000, 0x10004, 5)) = true := by decide
theorem test_waitc_holds : after (modMe base (fun r => { r with nld := 1 })) (.waitc 0 0 15 0 15) (fun t => t.curRill.waits.length == 1) = true := by decide
theorem test_mfs_tid : after (modMe base (fun r => { r with rid := 2 })) (.mfs 0 0x012 0) (fun t => reg t 0 3 == 35) = true := by decide
theorem test_mfs_cohort : after base (.mfs 4 0x011 0) (fun t => reg t 4 0 == 0xFFFF && reg t 5 0 == 0) = true := by decide
theorem test_wbase : after base (.wbase 2 2) (fun t => t.curRill.wb == 96 && t.curRill.kb == 128) = true := by decide
theorem test_xacq_without_block : after base .xacq (fun t => cause t == some 4) = true := by decide
/-- R400: the object 0x8000_0000_0001_0001, of one arrival of one, flips with it. -/
theorem test_barrier_flip : ((Barrier.ofNat 0x8000000000010001).counted 1).toNat = 0xA000000000010001 := by decide
theorem test_crc32 : crc32 ("123456789".toList.map (fun c => BitVec.ofNat 8 c.toNat)) = 0xCBF43926 := by decide +kernel
/-- R63: residues 12, 20 and 24 stand for −1,000. -/
theorem test_crt : crt (tmPack 12 20 24) = -1000 := by decide
theorem test_step_nop : (match step (State.reset.withFetchWord 32 0x10000000) with
    | .next t => (t.curRill.thread 3).pc == 0x10004
    | _ => false) = true := by decide

/-! ## Statements with hypotheses: states that meet them -/

theorem witness_EncodedWordsDecodeToThemselves : Instr.isWord (.iadd64 94 94 126 1 3) = true ∧ Instr.isWord (.mfs 127 0xFFF 3) = true := by decide

theorem witness_DecodedWordsEncodeBack : 0xFFFFFFFF < 2 ^ 32 ∧ 0xF6001022 < 2 ^ 32 ∧ decode 0xF6001022 = some (.wbase 2 2) := by decide

def vtokState : State := modMe base (fun r => { r with vtoks := [{ dst := 5, val := 9 }, { dst := 6, val := 1 }] })

/-- The last lane of the rill, the first above it, and the cohort's own lane. -/
theorem witness_UniformInstructionsWriteTheirResult : base.cohortOk ∧
    base.vtokLane 15 < base.curRill.width ∧ ¬base.vtokLane 16 < base.curRill.width ∧ base.vtokLane 127 < base.curRill.width ∧
    (vtokState.rill vtokState.cur.rill).vtoks = { dst := 5, val := 9 } :: [{ dst := 6, val := 1 }] :=
  ⟨base_cohortOk, by decide⟩

theorem witness_VectorIntegerInstructionsWriteTheirResult : base.cohortOk ∧ base.acting 0 ≠ [] := ⟨base_cohortOk, by decide⟩

theorem witness_VectorBitInstructionsWriteTheirResult : base.cohortOk := base_cohortOk

theorem witness_FloatArithmeticSettlesTheExactResult : base.cohortOk := base_cohortOk

/-- A NaN and an infinity, a signalling NaN with a number, two numbers; the last modes and conditions. -/
theorem witness_FloatSelectionScalingAndCompares : base.cohortOk ∧
    nan32 0x7F800001 = true ∧ snan32 0x7F800001 = true ∧ nan32 0x7FC00000 = true ∧ snan32 0x7FC00000 = false ∧ nan32 0x7F800000 = false ∧
    nan32 0x7F7FFFFF = false ∧ (0x80000000 : Word).toNat % 2 ^ 31 = 0 ∧ (4 : BitVec 7).toNat < 5 ∧ (5 : BitVec 3).toNat < 6 := ⟨base_cohortOk, by decide⟩

theorem witness_PackedFloatArithmeticSettlesEachElement : base.cohortOk := base_cohortOk

/-- One legal pair of types for each row of Table 2-5, with an element of each kind. -/
theorem witness_ConversionsFollowTheirTable : base.cohortOk ∧
    [(NumTy.f32, NumTy.s64), (.s64, .z8), (.z8, .f32), (.f8e4, .f32), (.f32, .sbi4), (.f16, .sbi8)].all (fun p => cvtLegal false p.1 p.2) = true ∧
    [(NumTy.z8, NumTy.s16), (.s32, .f8e5), (.f8e5, .f32), (.bf16, .sbi8)].all (fun p => cvtLegal true p.1 p.2) = true ∧
    ((tyFmt .f32).decode 0x7FC00000).isNan = true ∧ (tyFmt .f16).decode 0x7C00 = .inf false ∧ ((tyFmt .f8e4).decode 0x7F).isNan = true ∧
    (tyFmt .f8e4).decode 0x01 = .fin false 1 (-9) ∧ ((8 : BitVec 7).toNat = 8 ∧ (9 : BitVec 7).toNat = 9 ∧ (10 : BitVec 7).toNat = 10) :=
  ⟨base_cohortOk, by decide⟩

theorem witness_RoundingDeliversAClosestElement :
    [fp32, fp16, bf16, f8e5].all (fun f => (List.range 4).all (fun mode => [false, true].all (fun neg =>
      match f.decode (f.round mode neg 3 (-1)).1 with
      | .fin .. => true
      | _ => false))) = true := by decide +kernel

/-- 3.5 in FP16: the largest number does not round to an infinity, a sticky tail rounds to an element. -/
theorem witness_rounding_edges : (match fp16.decode (fp16.round 0 false 65519 0).1 with
    | .fin .. => true
    | _ => false) = true ∧ (match fp16.decode (fp16.round 1 true 1 (-40)).1 with
    | .fin .. => true
    | _ => false) = true := by decide +kernel

theorem witness_SpecialFunctionsKeepTheirTable : base.cohortOk ∧ (9 : BitVec 7).toNat < 10 ∧ nan32 0xFFC00000 = true ∧
    ((0x80000001 : Word).msb = true ∧ zero32 0x80000001 = false ∧ nan32 0x80000001 = false) ∧ zero32 0x80000000 = true :=
  ⟨base_cohortOk, by decide⟩

/-- A rill of `w` lanes whose whole cohort is at its issue. -/
def wide (w : Nat) : State :=
  let s := modMe base (fun r => { r with width := w, th := (List.range w).map (fun i => (i, { pc := 0x10000, region := 0x10000 })) })
  { s with cur := { s.cur with lanes := List.range w } }

/-- Four lanes are left, and stand in the cohort. -/
def fourLeft : State := { modTh base (fun l x => { x with exited := decide (4 ≤ l) }) with cur := { base.cur with lanes := [0, 1, 2, 3] } }

theorem allHere_of {s : State} (hn : s.cur.lanes.Nodup) (hl : ∀ l ∈ s.cur.lanes, l < 64) (hw : s.curRill.width ≤ 64)
    (ha : ∀ l ∈ s.cur.lanes, l ∈ s.curRill.liveLanes) (hm : ∀ l ∈ s.curRill.liveLanes, l ∈ s.cur.lanes) (hf : s.curRill.waits = [])
    (mask : Nat) : AllHere s mask where
  cohort := ⟨hn, hl⟩
  width := hw
  live := ha
  members := fun l h => hm l (List.mem_filter.1 h).1
  fresh := fun w h => by rw [hf] at h; exact absurd h List.not_mem_nil

theorem allHere_base (mask : Nat) : AllHere base mask :=
  allHere_of (by decide) (by decide) (by decide) (by decide) (by decide) (by decide) mask
theorem allHere_fourLeft (mask : Nat) : AllHere fourLeft mask :=
  allHere_of (by decide) (by decide) (by decide) (by decide) (by decide) (by decide) mask
theorem allHere_wide32 (mask : Nat) : AllHere (wide 32) mask :=
  allHere_of (by decide) (by decide) (by decide) (by decide) (by decide) (by decide) mask
theorem allHere_wide64 (mask : Nat) : AllHere (wide 64) mask :=
  allHere_of (by decide +kernel) (by decide +kernel) (by decide +kernel) (by decide +kernel) (by decide +kernel) (by decide +kernel) mask

def voteWait (lanes : List Nat) (pc : DWord) : Wait := { ins := .vote 1 2 0 0, pc := pc, lanes := lanes, vals := [64, allLanes] }
/-- Every lane is held by one wait; lanes 0 to 7 are held and the others stand in the cohort; two waits of which neither is satisfied. -/
def heldState (lanes : List Nat) (pc : DWord) : State := modMe base (fun r => { r with waits := [voteWait lanes pc] })
def mismatch : State := { heldState (List.range 8) 0x20000 with cur := { base.cur with lanes := [8, 9, 10, 11, 12, 13, 14, 15] } }

theorem witness_CrossLaneInstructionsCompleteOrTrap : AllHere base (base.memberMask 0) ∧ AllHere base allLanes ∧ AllHere fourLeft (fourLeft.memberMask 0) ∧
    (let s := heldState (List.range 16) 0x20000
     (s.rill s.cur.rill).waits.find? (fun w => isCross w.ins && w.pc == 0x20000) = some (voteWait (List.range 16) 0x20000) ∧
       (voteWait (List.range 16) 0x20000).lanes.Nodup ∧ (s.runs s.cur.rill && crossReady s s.cur.rill (voteWait (List.range 16) 0x20000)) = true) ∧
    (let s := heldState (List.range 15) 0x20000
     (s.rill s.cur.rill).waits.find? (fun w => isCross w.ins && w.pc == 0x20000) = some (voteWait (List.range 15) 0x20000) ∧
       (s.runs s.cur.rill && crossReady s s.cur.rill (voteWait (List.range 15) 0x20000)) = false) ∧
    mismatch.cohortOk ∧
    (∀ l ∈ mismatch.cur.lanes, l < mismatch.curRill.width) ∧
    (∀ w ∈ mismatch.curRill.waits, isCross w.ins = true → w.pc ≠ mismatch.cur.pc ∧ crossReady mismatch mismatch.cur.rill w = false) ∧
    (∀ l ∈ mismatch.curRill.liveLanes, l ∈ mismatch.cur.lanes ∨ ∃ w ∈ mismatch.curRill.waits, isCross w.ins = true ∧ l ∈ w.lanes) ∧
    (∃ l ∈ mismatch.curRill.liveMembers (mismatch.memberMask 0), l ∉ mismatch.cur.lanes) :=
  ⟨allHere_base _, allHere_base _, allHere_fourLeft _, by decide, by decide, by unfold State.cohortOk; decide, by decide⟩

/-- Widths 16, 32 and 64. -/
theorem witness_QblkQuantisesItsBlocks : base.curRill.width = 16 ∧ AllHere (wide 32) allLanes ∧ (wide 32).curRill.width = 32 ∧
    AllHere (wide 64) allLanes ∧ (wide 64).curRill.width = 64 := ⟨by decide, allHere_wide32 _, by decide, allHere_wide64 _, by decide⟩

/-- A rill whose code begins at 0x10000, with a return offset on each stack, or 31 or 32 of them. -/
def stacked (n : Nat) : State :=
  modTh (modMe base (fun r => { r with kcode := 0x10000 })) (fun _ x => { x with stack := List.replicate n 8 })

/-- A branch into the span and one below it; a full stack, one short of it, an empty one; offsets at the end of the span, beyond it
and not of a word, for a branch and for a return. -/
theorem witness_BranchesCallsAndReturnsMoveTheLanesTaken : (stacked 0).cohortOk ∧ (4 : BitVec 4).toNat < 8 ∧
    (let s := stacked 0
     let take := fun (c : Nat) => s.cur.lanes.filter (fun l => (s.curRill.thread l).guard (c % 4) == decide (c < 4))
     let inside := fun (o : BitVec 21) => (s.curRill.kcode : Int) ≤ s.cur.pc.toNat + 4 * o.toInt ∧ s.cur.pc.toNat + 4 * o.toInt ≤ s.curRill.kcode + 0x00FFFFFC
     take 1 = [] ∧ take 5 ≠ [] ∧ inside 0 ∧ ¬inside 0x1FFFFF ∧ inside 0x0FFFFF) ∧
    (∃ l ∈ (stacked 32).acting 0, 32 ≤ ((stacked 32).curRill.thread l).stack.length) ∧
    (¬∃ l ∈ (stacked 31).acting 0, 32 ≤ ((stacked 31).curRill.thread l).stack.length) ∧
    (∀ l ∈ (stacked 31).acting 0, ((stacked 31).curRill.thread l).stack ≠ []) ∧
    (∃ l ∈ (stacked 0).acting 0, ((stacked 0).curRill.thread l).stack = []) ∧
    (let off := fun w l => ((withK base [(0, w)]).src 96 0 l).toNat
     let good := fun w => ∀ l ∈ base.acting 0, off w l ≤ 0x00FFFFFC ∧ off w l % 4 = 0
     good 0x00FFFFFC ∧ ¬good 0x01000000 ∧ ¬good 2) ∧
    ([0x00FFFFFC, 0x01000000, 2].all (fun (w : Word) =>
       (base.acting 0).all (fun l => ((modTh base (fun _ x => { x with stack := [w] })).curRill.thread l).stack.head? == some w)) = true ∧
     (0x00FFFFFC : Word).toNat ≤ 0x00FFFFFC ∧ ¬(0x01000000 : Word).toNat ≤ 0x00FFFFFC ∧ (2 : Word).toNat % 4 ≠ 0) :=
  ⟨cohortOk_of (by decide), by decide, by decide, by decide, by decide, by decide, by decide, by decide, by decide⟩

def counters (n : Nat) : State := modMe base (fun r => { r with nld := n, nst := n, ntl := n, ncp := [(0, n)] })
def waitcAt (s : State) : Wait := s.mkWait (.waitc 1 2 2 2 2) [1, 2, 2, 2, 2]
def waitcHeld (n : Nat) : State := modMe (counters n) (fun r => { r with waits := [waitcAt (counters n)] })

/-- Counters at the limit and above it, for an issue and for a wait. -/
theorem witness_KbraExitYieldRegnAndWaitc : base.cohortOk ∧ isCp base.cur.rill = false ∧ (∀ w ∈ base.curRill.waits, isCross w.ins = false) ∧
    (let below := fun (r : Rill) => r.nld ≤ 2 ∧ r.nst ≤ 2 ∧ (∀ t, t < 4 → (1 : BitVec 4).getLsbD t = true → r.ncp.get 0 t ≤ 2) ∧ r.ntl ≤ 2
     below (counters 2).curRill ∧ ¬below (counters 3).curRill ∧
     ((waitcHeld 2).rill (waitcHeld 2).cur.rill).waits[0]? = some (waitcAt (counters 2)) ∧ (waitcHeld 2).runs (waitcHeld 2).cur.rill = true ∧
     below ((waitcHeld 2).rill (waitcHeld 2).cur.rill) ∧ ¬below ((waitcHeld 3).rill (waitcHeld 3).cur.rill)) ∧
    (let inside := fun (o : BitVec 21) => (base.curRill.kcode : Int) ≤ base.cur.pc.toNat + 4 * o.toInt ∧
       base.cur.pc.toNat + 4 * o.toInt ≤ base.curRill.kcode + 0x00FFFFFC
     inside 0x1FC000 ∧ ¬inside 0x1FBFFF ∧ base.curRill.kreg 0 = 0 ∧ (withK base [(0, 1)]).curRill.kreg 0 ≠ 0) :=
  ⟨base_cohortOk, by decide⟩

theorem witness_TrapAndBrkParkTheirRill : base.cohortOk ∧ isCp base.cur.rill = false ∧ base.curRill.agent = false := ⟨base_cohortOk, by decide⟩

/-! Memory. -/

def okay {ε α : Type} (p : Except ε α × State) : Bool :=
  match p.1 with
  | .ok _ => true
  | .error _ => false

def fails {ε α : Type} (p : Except ε α × State) : Bool := !okay p

def dataPage : TlbEntry := { ctx := 0, base := 0x20000, size := 65536, leaf := { tgt := 0, addr := 0x20000, w := true } }

/-- The page at 0x20000 may be written, and the slices of the rill's tower hold the tokens of its first lines. -/
def memBase : State :=
  let s := base.modCore (keyCore base.cur.rill) (fun c => { c with tlb := dataPage :: c.tlb })
  { s with towerTlb := [(0, [dataPage])], coh := { s.coh with lines := [0x400, 0x401, 0x402, 0x403].map (fun l => (l, { hs := [⟨64, true, true, false, 0⟩, {}, {}, {}, {}] })) } }

theorem memBase_cohortOk : memBase.cohortOk := cohortOk_of (by decide)

/-- Lane 0 alone acts, under guard 1, on the address in v8. -/
def lane0 (a : Word) : State := oneLane (withV memBase [(8, a)])

theorem lane0_cohortOk (a : Word) : (lane0 a).cohortOk := cohortOk_of rfl

/-- No lane, one lane at an aligned address of a page that translates for reading and writing, the uniform form. -/
theorem witness_LoadsAndStoresIssueTheirAccess : (lane0 0x20010).cohortOk ∧ (lane0 0x20010).acting 2 = [] ∧
    (let s := lane0 0x20010
     let addrs := (s.acting 1).map (fun l => (l, (s.srcPair 8 l + BitVec.ofInt 64 ((15 : BitVec 4).toInt * 16)).toNat))
     addrs = [(0, 0x20000)] ∧ (∀ p ∈ addrs, p.2 % 16 = 0) ∧ okay (s.translateLanes .read addrs) = true ∧ okay (s.translateLanes .write addrs) = true) ∧
    (let s := withK memBase [(0, 0x20000)]
     (s.usrcPair 0 + BitVec.ofInt 64 ((1 : BitVec 4).toInt * 8)).toNat = 0x20008 ∧ okay (s.translateLanes .write [(0, 0x20008)]) = true) :=
  ⟨lane0_cohortOk _, by decide⟩

/-- A local store of 64 bytes, with lane 0 at offset `a` of it. -/
def localState (a : Word) : State := (lane0 a).setRoom 0 { live := true, core := keyCore base.cur.rill, lsize := 64 }

/-- A member of a span whose partner owns 64 bytes as well. -/
def spanState (a : Word) : State :=
  let s := (localState a).setRoom 1 { live := true, core := 300, lsize := 64 }
  (s.setGroup 0 { room := 0, span := true, partner := 1, st := .running, filled := true }).setGroup 1
    { room := 1, span := true, partner := 0, st := .running, filled := true }

/-- The last place of each size that fits, the first that does not, and the pair pool. -/
theorem witness_LocalAccessesIssueTheirAccess : (localState 60).cohortOk ∧
    (let fits := fun (s : State) (n : Nat) =>
       let x := (s.src 8 0 0 + BitVec.ofInt 32 0).toNat
       let g := s.group s.curRill.group
       x % n = 0 ∧ x < 2 ^ 19 ∧ (if 2 ^ 18 ≤ x then (g.span && s.curRill.room == g.room) = true ∧ x % 2 ^ 18 + n ≤ (s.room s.curRill.room).lsize
         else x + n ≤ (s.room s.curRill.room).lsize)
     fits (localState 60) 4 ∧ fits (localState 56) 8 ∧ fits (localState 48) 16 ∧ ¬fits (localState 64) 4 ∧ ¬fits (localState 0x40000) 4 ∧
       fits (spanState 0x4003C) 4 ∧ ¬fits (spanState 0x40040) 4 ∧ ¬fits (spanState 0x80000) 4) ∧
    (localState 60).acting 1 = [0] ∧ (localState 60).acting 2 = [] ∧ (2 : BitVec 2).toNat < 3 := ⟨cohortOk_of rfl, by decide⟩

theorem witness_AtomicsIssueTheirAccess : (lane0 0x20008).cohortOk ∧ (lane0 0x20008).acting 1 ≠ [] ∧ (lane0 0x20008).acting 2 = [] ∧
    (∀ p ∈ [(0, ((lane0 0x20008).srcPair 8 0).toNat)], p.2 % 8 = 0) ∧ okay ((lane0 0x20008).translateLanes .atomic [(0, 0x20008)]) = true :=
  ⟨lane0_cohortOk _, by decide⟩

/-- A misaligned lane, and an aligned lane on a page that is not mapped, with its cause. -/
theorem witness_MemoryInstructionsTrapOnTheirFaults :
    (let s := lane0 0x20002
     ((s.acting 1).map (fun l => (l, (s.srcPair 8 l).toNat))).find? (fun p => p.2 % 4 != 0) = some (0, 0x20002)) ∧
    (let s := lane0 0x10000000
     (∀ p ∈ (s.acting 1).map (fun l => (l, (s.srcPair 8 l).toNat)), p.2 % 16 = 0) ∧ fails (s.translateLanes .read [(0, 0x10000000)]) = true) ∧
    fails ((lane0 0x10000).translateLanes .write [(0, 0x10000)]) = true := by decide

/-- A rill with one access, of a store that is not visible or of a load that is not bound, before place 5. -/
def withAccess (s : State) (a : Access) : State := modMe s (fun r => { r with accs := [a], seq := 5, nld := 1, nst := 1 })

def ldAccess : Access := { seq := 3, dst := 4, nreg := 1, size := 4, reqs := [{ lane := 0, tgt := 0, pa := 0x20000, va := 0x20000 }] }
/-- A load of a peer's memory. -/
def farAccess : Access := { ldAccess with reqs := [{ lane := 0, tgt := 2, pa := 0x20000, va := 0x20000 }] }
def stAccess : Access := { seq := 3, kind := .st, size := 4, reqs := [{ lane := 0, tgt := 0, pa := 0x20000, va := 0x20000, data := 7 }] }

/-- The page is in no TLB, and the line of its table lies at a slice: the walk has not ended. -/
def notWalked : State := { lane0 0x20000 with towerTlb := [], cores := [], roots := [(0, (0x20000, true))] }

theorem witness_PrefetchesObserverSlotsAndFences : (lane0 0x20000).cohortOk ∧ (lane0 0x20000).acting 1 = [0] ∧ (lane0 0x20000).acting 2 = [] ∧
    okay ((lane0 0x20000).translate (.core (keyCore base.cur.rill)) (lane0 0x20000).curRill.ctx 0x20000 .read false) = true ∧
    (lane0 0x20000).canRead (0x20200 / 128) (sliceTower base.cur.rill (0x20200 / 128)) = false ∧
    ((lane0 0x20000).coh.trans.filter (fun q => q.holder == 0)).length < 32 ∧ (lane0 0x20000).curRill.obsm.length = 8 ∧
    okay ((lane0 0x20000).translateLanes .read [(0, 0x20000)]) = true ∧ (2 : BitVec 2).toNat < 3 ∧
    (let earlier := fun (s : State) => s.curRill.accs.filter (fun a => decide (a.seq < s.curRill.seq))
     let written := fun (s : State) (m : Nat) => ∀ a ∈ earlier s, ∀ q ∈ a.reqs, q.done = true ∨ maskWaits m q.tgt = false
     let bound := fun (s : State) => ∀ a ∈ earlier s, a.kind = .ld ∨ a.kind = .sidecar ∨ a.kind = .atom → ∀ q ∈ a.reqs, q.done = true
     ¬written (withAccess memBase stAccess) 0xFF ∧ bound (withAccess memBase stAccess) ∧ ¬bound (withAccess memBase ldAccess) ∧
       ¬written (withAccess memBase ldAccess) 0xFF ∧ written (withAccess memBase farAccess) 0x01 ∧ written memBase 0xFF ∧ bound memBase) ∧
    ((lane0 0x20000).quietPlaces 8 1).1.isSome = true ∧ (notWalked.quietPlaces 8 1).1.isNone = true ∧ notWalked.cohortOk :=
  ⟨lane0_cohortOk _, by decide, by decide, by decide, by decide, by decide, by decide, by decide, by decide, by decide, by decide, by decide,
    cohortOk_of rfl⟩

theorem memoriesOk_of {s : State} (hd : memWf s.dram = true) (hb : memWf s.basin = true) (hh : memWf s.hostMem = true)
    (hr : ∀ p ∈ s.rooms, memWf p.2.mem = true) : s.memoriesOk := by
  refine ⟨hd, hb, hh, fun r => ?_⟩
  have : ∀ (t : Tbl Room), (∀ p ∈ t, memWf p.2.mem = true) → memWf (t.get {} r).mem = true := by
    intro t ht
    induction t with
    | nil => rfl
    | cons p t ih =>
      obtain ⟨j, x⟩ := p
      by_cases h : j = r
      · simpa [Tbl.get, Tbl.find, h] using ht (j, x) List.mem_cons_self
      · simpa [Tbl.get, Tbl.find, h] using ih (fun q hq => ht q (List.mem_cons_of_mem _ hq))
  exact this s.rooms hr

theorem sound_of {a : Access} (h : a.poison = false ∧ a.refused = [] ∧ a.lost = false) : a.sound := h

/-- A load of a line whose tokens the slice holds, with and without a copy in the L1; a store there; each in a store of the rill. -/
theorem witness_LoadsReturnAndStoresBecomeVisible :
    (let s := withAccess memBase ldAccess
     let k := s.cur.rill
     let q : LaneReq := { lane := 0, tgt := 0, pa := 0x20000, va := 0x20000 }
     s.access k 3 = some ldAccess ∧ ldAccess.kind = .ld ∧ ldAccess.reqs.find? (fun p => p.key == 0 && !p.done) = some q ∧
       (s.rill k).mayPerform ldAccess q = true ∧ (∀ p ∈ ldAccess.reqs, p.lane < 64) ∧ ldAccess.sound ∧ s.poisoned (sliceTower k (q.pa / 128)) q.tgt q.pa q.n = false ∧
       s.reachable k q false ∧ (s.rill k).live = true ∧ k < leftBase) ∧
    (let s := withAccess memBase stAccess
     let k := s.cur.rill
     let q : LaneReq := { lane := 0, tgt := 0, pa := 0x20000, va := 0x20000, data := 7 }
     s.access k 3 = some stAccess ∧ stAccess.kind = .st ∧ stAccess.reqs.find? (fun p => p.key == 0 && !p.done) = some q ∧
       (s.rill k).inOrder stAccess q = true ∧ stAccess.sound ∧ s.reachable k q true ∧ s.memoriesOk) ∧
    ((((memBase.modCore (keyCore memBase.cur.rill) (fun c => { c with l1 := [(0x400, { bytes := List.replicate 128 1, psn := 2 })] })).core
      (keyCore memBase.cur.rill)).l1.find (0x20000 / 128)).map (fun x => x.psn &&& halfBits 0x20000 4)) = some 0 :=
  ⟨⟨by decide, by decide, by decide, by decide, by decide, ⟨by decide, by decide, by decide⟩, by decide, ⟨fun _ => by decide, Or.inl ⟨by decide, by decide⟩⟩, by decide, by decide⟩,
   ⟨by decide, by decide, by decide, by decide, ⟨by decide, by decide, by decide⟩, ⟨fun _ => by decide, Or.inl ⟨by decide, by decide⟩⟩,
     memoriesOk_of (by decide) (by decide) (by decide) (by decide)⟩, by decide⟩

def atomAccess (kind : AccKind) (sub : Nat) : Access :=
  { seq := 3, kind := kind, dst := 4, nreg := if kind = .atom then 1 else 0, size := 4, sub := sub, guard := 1
    reqs := [{ lane := 0, tgt := 0, pa := 0x20000, va := 0x20000, data := 1, data2 := 2 }] }

/-- The slice of the rill's tower holds the line with its lower half poisoned. -/
def rotten : State :=
  let s := withAccess memBase (atomAccess .atom 0)
  { s with coh := { s.coh with lines := [(0x400, { hs := [⟨64, true, true, false, 1⟩, {}, {}, {}, {}] })] } }

def allToHand (s : State) (a : Access) : Prop :=
  ∀ p ∈ a.reqs, p.done = false →
    (p.tgt = 0 → s.canRead (p.pa / 128) (sliceTower s.cur.rill (p.pa / 128)) = true) ∧ (p.tgt = 1 → s.bnext.get none (p.pa / 2 ^ 21) = none)

/-- An atomic of one lane, on a clean and on a poisoned half and on a line whose tokens are away; sub-operations 0 and 12, and
FADDB under guard 1; a lane that found every line clean before. -/
theorem witness_AtomicsPerformTheirTable : (0 < 13 ∧ 0 ≠ 10 ∧ 12 < 13 ∧ 12 ≠ 10 ∧ 0 < 32 ∧ 2 ^ 32 - 1 < 2 ^ 32) ∧
    (let a := atomAccess .atom 9
     let s := withAccess memBase a
     let k := s.cur.rill
     let q : LaneReq := { lane := 0, tgt := 0, pa := 0x20000, va := 0x20000, data := 1, data2 := 2 }
     s.access k 3 = some a ∧ (a.kind = .atom ∨ a.kind = .red) ∧ a.reqs.find? (fun p => p.key == 0 && !p.done) = some q ∧
       (s.rill k).inOrder a q = true ∧ a.sound ∧ s.memoriesOk ∧ (∀ p ∈ a.reqs, p.lane < 64 ∧ p.off = 0) ∧ (a.reqs.map (·.lane)).Nodup ∧ q.tgt < 2 ∧
       a.uni = false ∧ s.gone q = false ∧ a.clear = false ∧ allToHand s a ∧
       a.reqs.any (fun p => !p.done && s.poisoned (sliceTower k (p.pa / 128)) p.tgt p.pa p.n) = false ∧ s.reachable k q true ∧
       0 < a.guard ∧ a.guard < 4 ∧ (s.rill k).live = true ∧ k < leftBase ∧ ∀ p ∈ a.reqs, p.done = false → p.tgt ≠ 2) ∧
    (rotten.access rotten.cur.rill 3 = some (atomAccess .atom 0) ∧ allToHand rotten (atomAccess .atom 0) ∧
      (atomAccess .atom 0).reqs.any (fun p => !p.done && rotten.poisoned (sliceTower rotten.cur.rill (p.pa / 128)) p.tgt p.pa p.n) = true ∧
      isCp rotten.cur.rill = false ∧ (rotten.rill rotten.cur.rill).trap = none ∧ rotten.reaches (keyCore rotten.cur.rill) = true ∧
      (rotten.rill rotten.cur.rill).dropped = false) ∧
    ¬allToHand { rotten with coh := {} } (atomAccess .atom 0) ∧
    (let a := { atomAccess .atom 0 with clear := true }
     (withAccess memBase a).access base.cur.rill 3 = some a ∧ (withAccess memBase a).reachable base.cur.rill { tgt := 0, pa := 0x20000 } true) ∧
    (withAccess memBase (atomAccess .red 12)).access base.cur.rill 3 = some (atomAccess .red 12) :=
  ⟨by decide, ⟨by decide, by decide, by decide, by decide, ⟨by decide, by decide, by decide⟩, memoriesOk_of (by decide) (by decide) (by decide) (by decide),
    by decide, by decide, by decide, by decide, by decide, by decide, by unfold allToHand; decide, by decide, ⟨fun _ => by decide, Or.inl ⟨by decide, by decide⟩⟩, by decide, by decide, by decide, by decide, by decide⟩,
    ⟨by decide, by unfold allToHand; decide, by decide, by decide, by decide, by decide, by decide⟩, by unfold allToHand; decide,
    ⟨by decide, ⟨fun _ => by decide, Or.inl ⟨by decide, by decide⟩⟩⟩, by decide⟩

/-! Copies, remote operations and collectives. -/

/-- The words of a block at 0x20100, and lane 0 that names it. -/
def withBlock (words : List Nat) : State :=
  let s := lane0 0x20100
  { s with dram := memWrite s.dram 0x20100 ((words.map (toBytes 8)).flatten) }

def rcopyWords (src : Nat) : List Nat := [0x00010102, 0, 0, src, 0x20080, 0x40, 0, 0]
def ropWords (prog : Nat) : List Nat := [0x00020104, 0, 0, 0x50000, 0x20000, prog + 8 * 2 ^ 40] ++ List.replicate 10 0
def collWords (n : Nat) : List Nat :=
  [0x00030103, 0, 0, 0x20000, 0x20080, 0, 0, 64 + n * 2 ^ 48, 0, 0, 0, 0, 0, 0, 0, 0, 0x0100, 0, 0, 0, 0, 0, 0, 0]

/-- A page of a peer at 0x50000. -/
def withPeerPage (s : State) : State :=
  (s.modCore (keyCore s.cur.rill) (fun c => { c with
    tlb := { ctx := 0, base := 0x50000, size := 65536, leaf := { tgt := 2, peer := 5, addr := 0x50000, w := true } } :: c.tlb })).setPeer 5 { sess := true, live := 3 }

/-- An ACOPY of lane 0 from 0x20000 with control word `c` to offset `d` of a local store of 64 bytes. -/
def acopyState (d c : Word) : State := (withV (localState 0) [(3, d), (4, 0x20000), (6, c)])

def acopyFits (s : State) (i : Nat) : Prop :=
  let ctl := (s.src 6 0 i).toNat
  let size := 4 * 2 ^ (ctl / 256 % 8)
  let dst := (s.src 3 0 i).toNat
  ctl / 256 % 8 < 6 ∧ dst % size = 0 ∧ (s.srcPair 4 i).toNat % size = 0 ∧ dst + size ≤ (s.room s.curRill.room).lsize

def copyLane : CopyLane := { lane := 0, dst := 0, src := 0x20000, size := 16, valid := 16 }
def lineCmd (src : Nat) : CopyCmd := { id := 2, seq := 2, tag := 1, lanes := [{ copyLane with src := src }, { copyLane with lane := 1, dst := 128, src := src }] }
def copying (c : CopyCmd) : State := modMe (localState 0) (fun r => { r with copies := [c], ncp := [(1, 1)], seq := 5 })

/-- The last place that fits, a size code of 6, a misaligned and an unfitting lane; a line write that is ready, and one that faults. -/
theorem witness_CopiesJoinAndFillLocalStore : (acopyState 48 0x0210).cohortOk ∧
    (acopyState 48 0x0210).acting 2 = [] ∧ (acopyState 48 0x0210).acting 1 = [0] ∧
    (acopyFits (acopyState 48 0x0210) 0 ∧ acopyFits (acopyState 60 0x0004) 0 ∧ ¬acopyFits (acopyState 64 0x0004) 0) ∧
    (acopyState 48 0x0210).overCap 0x840 = false ∧
    ([0].find? (fun i => decide (6 ≤ ((acopyState 0 0x0600).src 6 0 i).toNat / 256 % 8)) = some 0 ∧ ((acopyState 0 0x0500).src 6 0 0).toNat / 256 % 8 = 5) ∧
    ((acopyState 8 0x0210).src 3 0 0).toNat % 16 ≠ 0 ∧
    (let s := copying (lineCmd 0x20000)
     let k := s.cur.rill
     (s.rill k).oldestOf 1 = some (lineCmd 0x20000) ∧ s.memoriesOk ∧
       ((s.copyPrep k (lineCmd 0x20000)).1 ≠ [] ∧ ∀ x ∈ (s.copyPrep k (lineCmd 0x20000)).1, x.poisoned = false ∧ bitOf 18 x.lane.dst = false) ∧
       (lineCmd 0x20000).held = none ∧ (s.rill k).engineMayRead 2 = true ∧ (lineCmd 0x20000).nextLine = [copyLane] ∧ copyLane.buf = none ∧
       okay (s.translate (.engine (s.coreOf k)) 0 0x20000 .read false) = true ∧ s.canRead (0x20000 / 128) (coreTower (s.coreOf k)) = true) ∧
    (let s := copying (lineCmd 0x10000000)
     (s.copyPrep s.cur.rill (lineCmd 0x10000000)).1.isEmpty = true ∧ fails (s.translate (.engine (s.coreOf s.cur.rill)) 0 0x10000000 .read false) = true) :=
  ⟨cohortOk_of rfl, by decide, by decide, by unfold acopyFits; decide, by decide, by decide, by decide,
   ⟨by decide, memoriesOk_of (by decide) (by decide) (by decide) (by decide), ⟨by decide, by decide⟩, by decide, by decide, by decide, by decide,
     by decide, by decide⟩, by decide⟩

def captured (s : State) (len : Nat) : Option (List Nat) :=
  match s.capture 0x20100 len with
  | .ok (b, _) => some b
  | .error _ => none

/-- A block of each kind that passes its checks and one that breaks them, a misaligned address, places that translate. -/
theorem witness_BlockInstructionsPlaceOneCommand : (withBlock (rcopyWords 0x20000)).cohortOk ∧
    (withBlock (rcopyWords 0x20000)).acting 1 = 0 :: [] ∧ (withBlock (rcopyWords 0x20000)).acting 2 = [] ∧
    ((withBlock (rcopyWords 0x20000)).srcPair 8 0).toNat = 0x20100 ∧ ((lane0 0x20020).srcPair 8 0).toNat % 64 ≠ 0 ∧
    (captured (withBlock (rcopyWords 0x20000)) 1 = some (rcopyWords 0x20000) ∧ rcopyBad (rcopyWords 0x20000) = false ∧
      (withBlock (rcopyWords 0x20000)).overCap 0x841 = false ∧ rcopyBad (rcopyWords 0x20060) = true ∧
      captured (withBlock (rcopyWords 0x200C0)) 1 = some (rcopyWords 0x200C0) ∧ rcopyBad (rcopyWords 0x200C0) = false ∧
      rcopyBad (rcopyWords 0x20080) = true) ∧
    (captured (withBlock (ropWords 1)) 2 = some (ropWords 1) ∧ ropBad (ropWords 1) = false ∧ ropBad (ropWords 6) = true ∧
      okay ((withPeerPage (withBlock (ropWords 1))).ropPlaces (ropWords 1)) = true ∧ fails ((withBlock (ropWords 1)).ropPlaces (ropWords 1)) = true) ∧
    (captured (withBlock (collWords 2)) 3 = some (collWords 2) ∧ collBad (withBlock (collWords 2)).fab.devno (collWords 2) = false ∧
      collBad 0 (collWords 1) = true) := ⟨cohortOk_of rfl, by decide +kernel⟩

def engine (c : CopyCmd) : State := modMe memBase (fun r => { r with copies := [c], seq := 5 })
def rcopyCmd : CopyCmd := { id := 2, seq := 2, kind := .rcopy, block := rcopyWords 0x20000 }
def rcopyRead : CopyCmd := { rcopyCmd with begun := true, pos := 1, lanes := [{ lane := 0, size := 64, valid := 64, buf := some (List.replicate 64 7) }] }
def ropCmd : CopyCmd := { id := 2, seq := 2, kind := .rop, block := ropWords 1 ++ [5, 0x50000] }
def collCmd : CopyCmd := { id := 2, seq := 2, kind := .coll, block := collWords 2 }

/-- A copy that is to read its unit, one whose unit is read, an ROP and a collective before they begin and after. -/
theorem witness_RemoteCopyMovesWholeUnits :
    (let s := engine { rcopyCmd with begun := true }
     let k := s.cur.rill
     s.copyCmd k 2 = some { rcopyCmd with begun := true } ∧ 64 * 0 < word64 rcopyCmd.block 5 ∧ s.inFlight k { rcopyCmd with begun := true } < 256 ∧
       okay (s.translate (.engine (s.coreOf k)) 0 (word64 rcopyCmd.block 3) .read false) = true ∧
       rcopyCmd.redo = [] ∧ s.canRead (0x20000 / 128) (coreTower (s.coreOf k)) = true ∧ s.poisoned (coreTower (s.coreOf k)) 0 0x20000 64 = false) ∧
    (let s := engine rcopyRead
     s.copyCmd s.cur.rill 2 = some rcopyRead ∧ s.memoriesOk ∧ (s.rcopyReady s.cur.rill 2).map (·.2.2.tgt) = some 0) ∧
    (engine rcopyCmd).rcopyReady base.cur.rill 2 = none ∧
    (let s := engine ropCmd
     s.copyCmd s.cur.rill 2 = some ropCmd ∧ ropCmd.begun = false ∧ ropCmd.held = none ∧ ropCmd.redo = [] ∧ (s.rill s.cur.rill).engineMayRead ropCmd.seq = true) ∧
    (let s := engine collCmd
     s.copyCmd s.cur.rill 2 = some collCmd ∧ (s.rill s.cur.rill).engineMayRead collCmd.seq = true ∧ s.fab.colls.length < 64) ∧
    (engine { ropCmd with begun := true }).copyCmd base.cur.rill 2 = some { ropCmd with begun := true } ∧
    (let s := engine collCmd
     64 ≤ ({ s with fab := { s.fab with colls := List.replicate 64 {} } } : State).fab.colls.length) :=
  ⟨by decide, ⟨by decide, memoriesOk_of (by decide) (by decide) (by decide) (by decide), by decide⟩, by decide, by decide, by decide, by decide, by decide⟩

def rcopyDone (cmode : Nat) : CopyCmd :=
  { rcopyCmd with begun := true, pos := 1, block := [0x00010102 + cmode * 2 ^ 42, 0x20000, 9, 0x20000, 0x20080, 0x40, 0, 0] }
def ropDone : CopyCmd := { ropCmd with begun := true, result := List.replicate 64 3 }

/-- A copy that is finished, with each completion action, and one that is not; an ROP with its result and without. -/
theorem witness_RemoteCopyEndsWithItsCompletionAction :
    ([0, 1, 2].all (fun m =>
      let s := engine (rcopyDone m)
      s.copyCmd s.cur.rill 2 == some (rcopyDone m) && hCmode (rcopyDone m).block == m && (rcopyDone m).nextUnit == none &&
        s.inFlight s.cur.rill (rcopyDone m) == 0 && (rcopyDone m).held == none && (rcopyDone m).begun) = true) ∧
    (engine (rcopyDone 0)).memoriesOk ∧
    (let s := engine (rcopyDone 2)
     okay (s.translate (.engine (s.coreOf s.cur.rill)) 0 (word64 (rcopyDone 2).block 1) .write false) = true ∧
       s.canWrite (0x20000 / 128) (coreTower (s.coreOf s.cur.rill)) = true) ∧
    rcopyCmd.nextUnit = some 0 ∧ ((engine rcopyCmd).copyCmd base.cur.rill 2 = some rcopyCmd ∧ rcopyCmd.held = none) ∧
    ((engine ropDone).copyCmd base.cur.rill 2 = some ropDone ∧ ropDone.result ≠ [] ∧ ropDone.pos ≠ 1 ∧ hCmode ropDone.block = 0 ∧
      okay ((engine ropDone).translate (.engine 144) 0 (word64 ropDone.block 4) .write false) = true) ∧ ropCmd.result = [] :=
  ⟨by decide, memoriesOk_of (by decide) (by decide) (by decide) (by decide), by decide⟩

/-- A collective of two ranks on one bucket, in its first exchange; on two buckets that wait for signals; one that is ending. -/
def coll (c : Coll) : State :=
  let s := engine { collCmd with begun := true }
  { s with fab := { s.fab with colls := [{ c with tag := 7 }] } }
/-- The slice of the home's tower holds the tokens of a line. -/
def atHomeSlice (l : Nat) : Nat × LineState :=
  (l, { hs := (List.range 5).map (fun i => if i = homeBd l then ⟨64, true, true, false, 0⟩ else {}) })

/-- Page tables of context 0 that map the first GiB to itself; the slices at the homes hold the tokens of the tables' lines and of
lines 0x400 to 0x403. -/
def mapped (s : State) : State :=
  { s with
    roots := [(0, (0x40000, true))]
    coh := { s.coh with lines := [0x400, 0x401, 0x402, 0x403, 0x800, 0x820, 0x840].map atHomeSlice }
    dram := memWrite (memWrite (memWrite s.dram 0x40000 (toBytes 8 0x41001)) 0x41000 (toBytes 8 0x42001)) 0x42000 (toBytes 8 7) }
def twoBuckets : List Nat := [0x00030103, 0, 0, 0x20000, 0x20080, 0, 0, 64 + 2 * 2 ^ 48, 2 * 2 ^ 32, 0x20100, 0, 32, 0, 0, 0, 0, 0x0100, 0, 0, 0, 0, 0, 0, 0]
def statusWords : List Nat := [0x00030103, 0, 0, 0x20000, 0x20080, 0, 0x20000, 64 + 2 * 2 ^ 48, 0, 0, 0, 0, 0, 0, 0, 0, 0x0100, 0, 0, 0, 0, 0, 0, 0]

def collBase : Coll := { block := collWords 2 }
def wasRead : Except (Nat × Nat) Unit × List (Byte × Nat) × State → Bool
  | (.ok _, _) => true
  | _ => false

theorem witness_CollectivesAdvanceAndEnd :
    (let s := mapped (coll collBase)
     let c : Coll := { collBase with tag := 7 }
     s.fab.colls[0]? = some c ∧ c.susp = false ∧ c.status = none ∧ 0 = c.started ∧ 0 < cBuckets c.block ∧ ¬1 < cBuckets c.block ∧ cNbkt c.block = 0 ∧
       (s.collSignal 0 c 0).1 = some true ∧
       wasRead (s.collRead c (word64 c.block 3) ((cOwn c.block 0).2 * 4) ((cOwn c.block 0).2 * 4 + 2) c.got) = true ∧
       ¬2 < cNrank c.block ∧ (s.peer ((collRanks c.block).getD 1 0)).sess = false ∧
       ((s.setPeer ((collRanks c.block).getD 1 0) { sess := true }).peer ((collRanks c.block).getD 1 0)).sess = true ∧
       1 < cNrank c.block ∧ 1 ≠ s.collRank c.block ∧ collHeader c.block ≠ [] ∧ c.data.find 1 = none ∧ (List.replicate 256 (0 : Byte)).length = (cOwn c.block 0).2 * cSize c.block) ∧
    (let s := mapped (coll { collBase with block := twoBuckets })
     let c : Coll := { collBase with block := twoBuckets, tag := 7 }
     s.fab.colls[0]? = some c ∧ cNbkt c.block = 2 ∧ c.got = [] ∧ okay (s.vread .direct c.party c.ctx (word64 c.block 9) 8 false) = true ∧
       (s.collSignal 0 c 0).1 = some false) ∧
    (let c : Coll := { collBase with data := [(1, [])] }
     c.data.find (64 * 0 + 1) ≠ none ∧ bitsOf 15 0 (word64 c.block 8) = 0 ∧ bitsOf 15 0 (word64 c.block 8) ≠ 1 ∧ collBase.data.find (64 * 0 + 1) = none) ∧
    (let s := mapped (coll { collBase with block := statusWords, status := some (2, 1) })
     let c : Coll := { collBase with block := statusWords, status := some (2, 1), tag := 7 }
     s.fab.colls[0]? = some c ∧ c.told = false ∧ hCmode c.block = 0 ∧ word64 c.block 6 ≠ 0 ∧ s.collStoring c 0 = false ∧ s.collStoring c 3 = false ∧
       (match (withPeerPage s).translate (.core (keyCore s.cur.rill)) 0 0x50000 .write false with
         | (.ok p, _) => p.tgt == 2
         | _ => false) = true ∧
       okay (s.translate .direct 0 (word64 c.block 6) .write false) = true ∧ memWf s.dram = true ∧ s.canWrite (0x20000 / 128) (homeBd (0x20000 / 128)) = true) ∧
    word64 (collWords 2) 6 = 0 := by decide +kernel

theorem witness_SbiReductionFollowsItsPhases : 0 < 2 ∧ (∀ r, (fun r : Nat => if r = 1 then 255 else 128) r ≤ 255) := by
  refine ⟨by decide, fun r => ?_⟩
  show (if r = 1 then 255 else 128) ≤ 255
  split <;> decide

def winState (w : SluiceWin) : State :=
  let s := (mapped memBase).setPeer 5 { sess := true }
  { s with fab := { s.fab with wins := [(winKey 0 5 0, w), (winKey 0 5 1, w)] }
           coh := { s.coh with lines := [atHomeSlice 0] } }

/-- The last number inside the window and the first outside it, and the last before it; a number applied and one that is next; a line at
home, and the entry of the result cache. -/
theorem witness_SluicesApplyEachRequestOnce : (0 < 12 ∧ 5 < 64 ∧ 1 < 2 ∧ 65535 < 65536 ∧ 8 < 2 ^ 40 ∧ 8 / 4096 % 12 = 0) ∧
    ((decide ((1023 + 65536 - 0) % 65536 < 1024)) = true ∧ (decide ((1024 + 65536 - 0) % 65536 < 1024)) = false ∧
      decide (0 < (0 + 65536 - 65535) % 65536 ∧ (0 + 65536 - 65535) % 65536 < 32768) = true ∧
      decide (0 < (0 + 65536 - 1024) % 65536 ∧ (0 + 65536 - 1024) % 65536 < 32768) = false) ∧
    ((memBase.peer 5).sess = false ∧ ((winState {}).peer 5).sess = true ∧ (winState {}).homeOpen (cacheEntry (winKey 0 5 1) 6) 8 true = true) ∧
    (let w : SluiceWin := { applied := [4], last := 4 }
     let s := winState w
     s.fab.wins.get {} (winKey 0 5 1) = w ∧ w.applied.contains 4 = true ∧ w.applied.contains 6 = false ∧ 6 ≠ (w.last + 1) % 65536 ∧ w.held = [] ∧
       memWf s.dram = true ∧ s.canWrite (8 / 128) (homeBd (8 / 128)) = true ∧ s.canRead (8 / 128) (homeBd (8 / 128)) = true ∧
       s.poisoned (homeBd (8 / 128)) 0 8 8 = false) := by
  decide +kernel

def remAccess (kind : AccKind) : Access :=
  { seq := 3, kind := kind, dst := 4, nreg := 1, size := 4, reqs := [{ lane := 0, tgt := 2, peer := 5, pa := 0x50000 }] }
def remReq (kind : ReqKind) : RemReq := { id := 1, kind := kind, peer := 5, rill := base.cur.rill, acc := 3, lane := 0, size := 4, sent := true }
def waitingFor (a : Access) (r : RemReq) (now : DWord) : State :=
  let s := withAccess memBase a
  { (s.modDie 1 (fun d => { d with ltime := now })) with fab := { s.fab with reqs := [r] } }

/-- A load and a store of one lane that wait for their answer, a load of two of which one is answered, a request just before and at its
limit, an ROP that may be abandoned. -/
theorem witness_ResponsesReachTheirRequester :
    ([(AccKind.ld, ReqKind.load), (.st, .store)].all (fun p =>
      let a := remAccess p.1
      let s := waitingFor a (remReq p.2) 0
      (remReq p.2).kind.isLane && s.access base.cur.rill 3 == some a && s.fab.reqs.find? (fun r => r.id == 1 && r.sent) == some (remReq p.2) &&
        a.reqs.all (fun q => decide (q.lane < 64)) && !a.acq && !a.uni && (s.rill base.cur.rill).trap == none && (s.rill base.cur.rill).live && !(s.rill base.cur.rill).dropped &&
        (a.mapReqs (fun q => if q.key = 0 then { q with done := true } else q)).performed) = true) ∧ (remAccess .ld).sound ∧ (remAccess .st).sound ∧
    (remReq .load).rill < 0x10000 ∧
    ({ remAccess .ld with reqs := [{ lane := 0, tgt := 2 }, { lane := 1, tgt := 2 }] }.mapReqs (fun q => if q.key = 0 then { q with done := true } else q)).performed = false ∧
    ((waitingFor (remAccess .ld) { remReq .load with since := some 0 } 99999999).abandonable { remReq .load with since := some 0 } = false ∧
      (waitingFor (remAccess .ld) { remReq .load with since := some 0 } 100000000).abandonable { remReq .load with since := some 0 } = true) ∧
    (engine ropCmd).copyCmd base.cur.rill 2 = some ropCmd ∧ ropCmd.kind = .rop :=
  ⟨by decide, ⟨by decide, by decide, by decide⟩, ⟨by decide, by decide, by decide⟩, by decide⟩

/-! Tile units. -/

/-- A TMMA block of one cell: types, K, slot, its first operand at 0x20000 and its second at 0x20080. -/
def tmmaWords (at_ bt k : Nat) (cmode : Nat := 0) : List Nat :=
  [0x00010101 + cmode * 2 ^ 42, 0, 0, 0x20000, 0x20080, 0, at_ * 2 ^ 44 + bt * 2 ^ 48 + (k - 1), 0]

/-- Lane 0 with the words of v8 to v11, in a room that holds unit TM0. -/
def tileState (a stride : Word) : State :=
  (withV (withBlock (tmmaWords 9 9 16)) [(8, a), (10, stride)]).setRoom 0 { live := true, core := keyCore base.cur.rill, units := [0] }

theorem witness_TileInstructionsQueueTheirOperation : (tileState 0x20100 128).cohortOk ∧ (tileState 0x20100 128).acting 2 = [] ∧
    (tileState 0x20100 128).acting 1 = 0 :: [] ∧
    (let s := tileState 0x20100 128
     let room := s.room s.curRill.room
     room.units[(0 : BitVec 1).toNat]? = some 0 ∧ room.units[(1 : BitVec 1).toNat]? = none ∧ [0x820, 0x821, 0x822, 0x809].all (fun i => !s.overCap i) = true ∧
       (s.src 8 0 0).toNat % 128 = 0 ∧ (s.src 8 2 0).toNat % 128 = 0) ∧
    ((tileState 0x20140 128).src 8 0 0).toNat % 128 ≠ 0 ∧ ((tileState 0x20100 64).src 8 2 0).toNat % 128 ≠ 0 ∧
    captured (tileState 0x20100 128) 1 = some (tmmaWords 9 9 16) ∧ tmmaBad (tmmaWords 9 9 16) = false ∧ tmmaBad (tmmaWords 13 13 32) = false ∧
    tmmaBad (tmmaWords 9 10 16) = true := ⟨cohortOk_of rfl, by decide +kernel⟩

/-- Unit TM0 of the rill's core with one operation at its head. -/
def tileQueue (o : TileOp) : State :=
  let s := (lane0 0).setRoom 0 { live := true, core := 144, units := [0] }
  (s.setTile 288 { queue := [{ o with rill := base.cur.rill }] })

def running (at_ bt k : Nat) (cmode : Nat := 0) : TileOp := { kind := .tmma, block := tmmaWords at_ bt k cmode, begun := true, rill := base.cur.rill }
def fedLines : Tbl OpLine := [(lineKey false 0x20000, { data := List.replicate 128 0 }), (lineKey true 0x20080, { data := List.replicate 128 0 })]
def unmapped : TileOp := { running 9 9 16 with block := [0x00010101, 0, 0, 0x10000000, 0x20080, 0, 9 * 2 ^ 44 + 9 * 2 ^ 48 + 15, 0] }

def lineOf (o : TileOp) (isB : Bool) : Option (Nat × Nat) := o.missing isB o.needs

/-- An empty queue and one that holds a rill's operation; lines that are missing, on a page that is mapped and on one that is not; an
operation that is done, with no action and with a post. -/
theorem witness_TileUnitsReadWaitAndComplete : (tileQueue (running 9 9 16)).cohortOk ∧
    (let s := tileQueue (running 9 9 16)
     s.acting 1 = 0 :: [] ∧ (s.room s.curRill.room).units[(0 : BitVec 1).toNat]? = some 0 ∧
       (s.tile 288).queue.filter (fun o => o.rill == s.cur.rill) ≠ [] ∧ ((lane0 0).tile 288).queue = [] ∧
       (∀ w ∈ (lane0 0).curRill.waits, w.held = none) ∧ (running 9 9 16).counted = true ∧
       (s.tile 288).queue.head? = some (running 9 9 16) ∧ lineOf (running 9 9 16) false = some (0, 0x20000) ∧
       (s.tile 288).settled (running 9 9 16) false = none ∧ (running 9 9 16).lines.length < bufferLines ∧
       okay (s.useFree.tilePlace 288 0 0x20000 .read) = true ∧ s.canRead (0x20000 / 128) (coreTower (288 / 2)) = true) ∧
    (let s := tileQueue unmapped
     (s.tile 288).queue.head? = some unmapped ∧ (s.tile 288).settled unmapped false = none ∧ lineOf unmapped false = some (0, 0x10000000) ∧ fails (s.useFree.tilePlace 288 0 0x10000000 .read) = true) ∧
    (running 9 9 16).left = true ∧ { running 9 9 16 with steps := 16 }.left = false ∧ { running 9 9 16 1 with steps := 16 }.left = false ∧
    hCmode (running 9 9 16).block = 0 ∧ hCmode (running 9 9 16 1).block = 1 := ⟨cohortOk_of rfl, by decide +kernel⟩

/-- A step inside its group and the one that ends it; an SBI step inside its segment and the last one; TZERO of a slot and of the carry
plane; a TLDA, a TSTA and a TCVT in
their second row, of a slot and of the carry plane. -/
theorem witness_TileStepsComputeTheirCells :
    (let o := { running 9 9 32 with lines := fedLines }
     let s := tileQueue o
     (s.tile 288).queue.head? = some o ∧ o.left = true ∧ (running 9 9 16).fed = false ∧ o.fed = true ∧ 0 < tStep 9 9 ∧ tM o.block ≤ 64 ∧ tNc o.block ≤ 64 ∧
       tSlot o.block < 15 ∧ isSbiCode (tAt o.block) = false ∧ tCplx o.block = false) ∧
    (¬((0 + 1) % 16 = 0 ∨ 0 + 1 = 32) ∧ { running 9 9 32 with steps := 15 }.pos + tStep 9 9 = 16) ∧
    (let o := { running 13 13 32 with lines := fedLines, steps := 4 }
     let p := tStep 13 13
     o.fed = true ∧ 0 < o.pos ∧ o.pos + p < tK o.block ∧ (tKorg o.block + o.pos) % 256 ≠ 0 ∧ o.before.exps 0 0 (o.pos - 1) = o.exps 0 0 o.pos ∧
       (o.exps 0 0 o.pos).1 ≠ 255 ∧ tmValid (({} : TileUnit).triple 0 0) = true) ∧
    (let o := { running 13 13 32 with lines := fedLines, steps := 7 }
     o.fed = true ∧ o.pos + tStep 13 13 = tK o.block ∧ tmValid (tmAdd 0 (o.ssum 0 0 ((List.range (tStep 13 13)).map (o.pos + ·)))) = true) ∧
    ({ kind := .tzero, begun := true, slot := 14 } : TileOp).left = true ∧ ({ kind := .tzero, begun := true, slot := 15 } : TileOp).left = true ∧
    ([(TileKind.tlda, 14, 0), (.tlda, 15, 3), (.tsta, 14, 1), (.tsta, 15, 3), (.tcvt, 14, 2), (.tcvt, 14, 3)].all (fun p =>
      let o : TileOp := { kind := p.1, begun := true, slot := p.2.1, ty := p.2.2, addr := 0x20000, addr2 := 0x20100, stride := 0x100, steps := 1, rill := base.cur.rill }
      match (tileQueue o).unitPrep 288 with
      | (some (x, ps), _) => x == o && !ps.isEmpty && ps.all (fun p => p.1.tgt == 0) && decide (o.rowsAt o.steps < 64)
      | _ => false) = true) := by decide +kernel

/-! Synchronisation. -/

/-- Lane 0 with an offset in v8 and a second operand in v9, and an object there. -/
def barState (addr v : Word) (o : Barrier) : State :=
  let s := withV (localState 0) [(8, addr), (9, v)]
  s.setRoom 0 { live := true, core := 144, lsize := 64, mem := memSetNat [] 56 8 o.toNat }

def anObject : Barrier := { init := true, expect := 2, pend := 2 }

/-- What the statement on barriers asks of a state: the object placed, live, idle. -/
def objectAt (s : State) : Barrier := Barrier.ofNat (memNat (s.room s.curRill.room).mem (s.src 8 0 0).toNat 8)
def placedAt (s : State) : Prop :=
  let a := (s.src 8 0 0).toNat
  a % 8 = 0 ∧ a < 2 ^ 18 ∧ a + 8 ≤ (s.room s.curRill.room).lsize
def idleAt (s : State) : Prop :=
  let o := objectAt s
  o.init = false ∨ (o.pend = o.expect ∧ o.odone = false ∧ o.pdone = false ∧ s.objectBusy s.curRill.room (s.src 8 0 0).toNat = false)

def deferred (n : Nat) : State :=
  modMe (barState 56 n anObject) (fun r => { r with seq := 5, arrivals := [{ seq := 1, addr := 56, n := n, tag := some 1 }], copies := [] })

/-- A span's half whose partner has reported its end. -/
def spanHalf : State :=
  let s := (spanState 0).modRoom 0 (fun x => { x with mem := memSetNat [] 56 8 ({ anObject with span := true } : Barrier).toNat })
  s.modGroup 0 (fun g => { g with doneMsgs := [56] })

/-- The last place of an object and one not of 8 bytes; an object set up, in use and absent; all its arrivals and one more; a copy that an
arrival waits for; the phase equal to the token and different. -/
theorem witness_BarriersCountTheirArrivals : (barState 56 1 anObject).cohortOk ∧ (barState 56 1 anObject).memoriesOk ∧
    (barState 60 1 anObject).cohortOk ∧ ((barState 60 1 anObject).src 8 0 0).toNat % 8 ≠ 0 ∧
    (placedAt (barState 56 1 anObject) ∧ idleAt (barState 56 1 anObject) ∧ idleAt (barState 56 1 {}) ∧ ¬idleAt (barState 56 1 { anObject with pend := 1 }) ∧
      ((barState 56 65535 {}).src 9 0 0).toNat % 65536 ≠ 0 ∧ ((barState 56 0x10000 {}).src 9 0 0).toNat % 65536 = 0) ∧
    ((objectAt (barState 56 2 anObject)).init = true ∧ 2 ≤ (objectAt (barState 56 2 anObject)).pend ∧ (objectAt (barState 56 3 anObject)).pend < 3 ∧
      (objectAt (barState 56 1 {})).init = false ∧ (barState 56 2 anObject).curRill.waits = [] ∧ (barState 56 2 anObject).curRill.accs = [] ∧ (barState 56 2 anObject).curRill.arrivals = []) ∧
    (∃ c ∈ (copying (lineCmd 0x20000)).curRill.copies, c.kind = .acopy ∧ c.tag = (1 : BitVec 2).toNat ∧ c.seq < (copying (lineCmd 0x20000)).curRill.seq) ∧
    (let s := deferred 1
     ∃ x, (s.rill s.cur.rill).arrivals[0]? = some x ∧ x.ring = none ∧ (s.rill s.cur.rill).arrivals.Nodup ∧ s.arrivalReady s.cur.rill x = true ∧
       (modMe s (fun r => { r with copies := [{ lineCmd 0 with seq := 0 }] })).arrivalReady s.cur.rill x = false) ∧
    ((spanHalf.group 0).resident = true ∧ (spanHalf.group 0).doneMsgs.find? (fun off => (spanHalf.barrier (spanHalf.group 0).room off).init) = some 56 ∧
      spanHalf.spanMember base.cur.rill = true ∧
      ((spanHalf.die (spanHalf.group 0).die).halted || (spanHalf.die (spanHalf.group (spanHalf.group 0).partner).die).halted) = false ∧
      ((spanHalf.modDie (spanHalf.group 0).die (fun d => { d with halted := true })).die (spanHalf.group 0).die).halted = true) ∧
    ((objectAt (barState 56 0 anObject)).ph.toNat = 0 % 2 ∧ (objectAt (barState 56 1 anObject)).ph.toNat ≠ 1 % 2) := by
  refine ⟨cohortOk_of rfl, memoriesOk_of (by decide) (by decide) (by decide) (by decide), cohortOk_of rfl, by decide, ?_, by decide +kernel, by decide, ?_, by decide +kernel, by decide +kernel⟩
  · unfold placedAt idleAt; decide +kernel
  · exact ⟨{ seq := 1, addr := 56, n := 1, tag := some 1 }, by decide +kernel⟩

/-- A span member with a full and an empty send channel, with an entry delivered and with entries and credits in flight. -/
def flume (c : Chan) : State := ((spanState 0).modGroup 0 (fun g => { g with chans := [(0, c)] })).modGroup 1 (fun g => { g with chans := [(0, c)] })
def xState (mine other : Bool) : State :=
  (modMe base (fun r => { r with xregs := true, holdsX := mine })).modRill (pairSlot base.cur.rill) (fun r => { r with holdsX := other })

theorem witness_RingsFlumeAndExtendedBlocks : base.cohortOk ∧ base.curRill.waits = [] ∧ base.curRill.accs = [] ∧ base.curRill.arrivals = [] ∧
    (let s := modMe base (fun r => { r with arrivals := [{ ring := some 15 }] })
     (s.rill s.cur.rill).arrivals[0]? = some { ring := some 15 } ∧ s.arrivalReady s.cur.rill { ring := some 15 } = true) ∧
    (let ring := fun (n : Nat) => { size := n : Ring }
     (ring 16).size > 15 % 16 ∧ (ring 15).size ≤ 15 % 16 ∧ ((ring 16).phases.getD 15 false).toNat = 0 / 16 % 2 ∧ ((ring 16).phases.getD 15 false).toNat ≠ 31 / 16 % 2) ∧
    base.spanMember base.cur.rill = false ∧
    (let s := flume { flight := [[7]], credits := 1, ready := [[9]] }
     s.spanMember s.cur.rill = true ∧ ((s.group (s.group s.curRill.group).partner).resident = true ∨ (s.group (s.group s.curRill.group).partner).st = .retired) ∧
       (s.die (s.group (s.group s.curRill.group).partner).die).halted = false ∧
       ((s.group s.curRill.group).chans.get {} 0).sfree ≠ 0 ∧ ((s.group 1).chans.get {} 0).ready = [9] :: [] ∧
       s.flumeOpen 0 = true ∧ ((s.group 0).chans.get {} 0).flight = [7] :: [] ∧ ((s.group 0).chans.get {} 0).credits ≠ 0) ∧
    (let s := flume { sfree := 0 }
     ((s.group s.curRill.group).chans.get {} 0).sfree = 0 ∧ ((s.group 1).chans.get {} 0).ready = []) ∧
    base.flumeOpen 0 = false ∧ 127 < 128 ∧ base.curRill.xregs = false ∧
    ((xState true false).curRill.xregs = true ∧ ((xState false false).rill (pairSlot base.cur.rill)).holdsX = false ∧ base.cur.rill % 2 = 0 ∧
      (xState false true).curRill.holdsX = false ∧ ((xState false true).rill (pairSlot base.cur.rill)).holdsX = true) :=
  ⟨base_cohortOk, by decide⟩

/-! Special registers and the privileged instructions. -/

/-- The firmware agent of the core at an issue, with %tsel on the rill at slot 0. -/
def agentBase : State :=
  let k := agentKey (coreKey 6 0)
  let s := base.setRill k { placedRill with agent := true, width := 16 }
  { s with cur := { s.cur with rill := k } }

def aTrap : TrapRec := { cause := 0x11, fcause := 1, pc := 0x10000, resume := 0x10000, addr := 0x30000, cohort := [0, 1] }
def trapped (tr : TrapRec) : State := agentBase.modRill base.cur.rill (fun r => { r with trap := some tr, launch := 3 })

theorem bit_below {n w l : Nat} (h : n < 2 ^ w) (hl : w ≤ l) : n.testBit l = false :=
  Nat.testBit_lt_two_pow (Nat.lt_of_lt_of_le h (Nat.pow_le_pow_right (by decide) hl))

/-- A bit map that agrees with a decision below `w`, and is below 2^w, agrees with it everywhere. -/
theorem bits_of {n w : Nat} {p : Nat → Prop} [DecidablePred p] (h : n < 2 ^ w) (hw : ∀ l, p l → l < w)
    (hb : ∀ l, l < w → n.testBit l = decide (p l)) (l : Nat) : n.testBit l = decide (p l) := by
  by_cases hl : l < w
  · exact hb l hl
  · rw [bit_below h (Nat.le_of_not_lt hl)]; exact (decide_eq_false (fun hp => hl (hw l hp))).symm

/-- A work rill and the agent, with and without a pending trap on the rill %tsel names; a register with an index and one with none; the
maps of the cohort. -/
theorem witness_SpecialRegistersReadAndWrite : base.cohortOk ∧ agentBase.cohortOk ∧ base.curRill.agent = false ∧ agentBase.curRill.agent = true ∧
    base.acting 0 = 0 :: (List.range 15).map (· + 1) ∧ (oneLane base).acting 2 = [] ∧ base.curRill.obsm.length = 8 ∧
    specialInfo 0x003 = none ∧ specialInfo 0xFFF = none ∧
    ((base.die (keyDie base.cur.rill)).gated = false ∧ (base.die (otherLayer (keyDie base.cur.rill))).gated = false) ∧
    (∀ l, (0xFFFF).testBit l = decide (l ∈ base.cur.lanes ∧ (base.curRill.thread l).exited = false)) ∧
    ((trapped aTrap).rill (slotKey (keyCore (trapped aTrap).cur.rill) 0 0)).trap = some aTrap ∧
    (∀ l, (3).testBit l = decide (l ∈ aTrap.cohort)) ∧ aTrap.cohort.Nodup := by
  refine ⟨base_cohortOk, by unfold State.cohortOk; decide, by decide, by decide, by decide, by decide, by decide, by decide, by decide, by decide, ?_, by decide, ?_, by decide⟩
  · exact bits_of (w := 16) (by decide) (fun l h => by have : l ∈ List.range 16 := h.1; exact List.mem_range.1 this) (by decide)
  · exact bits_of (w := 2) (by decide) (fun l h => by revert h; simp [aTrap]; omega) (by decide)

/-- The events of the statement: one that waits with room in the ring, with none, one that is to be resolved. -/
def eventful (tr : TrapRec) (rhead : Nat) : State :=
  let s := trapped { tr with waiting := true }
  let s := s.setRill (slotKey 144 0 15) { placedRill with agent := true, trap := none }
  { s with traps := { s.traps with rhead := rhead, waiting := [.rill base.cur.rill] } }
def resolving (e : EventOf) : State :=
  let s := trapped { aTrap with event := 6 }
  { s with
    traps := { s.traps with events := [(6, e)] }
    launches := [(3, { st := .running })]
    tiles := [(288, { queue := [{ running 9 9 16 with id := 4, susp := true, event := 6 }] })] }

theorem witness_EventsAreRecordedAndResolved :
    (let s := eventful aTrap 255
     memWf s.dram = true ∧ (s.rill base.cur.rill).trap = some { aTrap with waiting := true } ∧ ¬(255 + 65536 - s.traps.rtail) % 65536 = 2 ^ s.traps.rlog2 % 65536 ∧
       s.canWrite 63 (coreTower (keyCore base.cur.rill)) = false ∧
       ({ s with coh := { s.coh with lines := [(63, { hs := [⟨64, true, true, false, 0⟩, {}, {}, {}, {}] })] } }).canWrite
         ((s.traps.rbase + 32 * (255 % 2 ^ s.traps.rlog2)) / 128) (coreTower (keyCore base.cur.rill)) = true ∧
       s.traps.waiting = .rill base.cur.rill :: [] ∧ s.runs (slotKey (keyCore base.cur.rill) 0 15) = true ∧ 0 < s.traps.nextId ∧ s.traps.nextId < 65536 ∧
       s.traps.events = []) ∧
    (let s := eventful aTrap 256
     (s.traps.rhead + 65536 - s.traps.rtail) % 65536 = 2 ^ s.traps.rlog2 % 65536 ∧ ∀ e ∈ s.traps.waiting, (s.eventInfo e).isSome = true) ∧
    (let s := resolving (.rill base.cur.rill)
     s.traps.events.find? (fun p => p.1 == 6) = some (6, .rill base.cur.rill) ∧ (0x80000006).testBit 31 = true ∧ 0x80000006 / 65536 % 4 = 0 ∧
       0x80010006 / 65536 % 4 = 1 ∧ 0x80020006 / 65536 % 4 = 2 ∧ aTrap.restart = false ∧ (s.launch ((s.rill base.cur.rill).launch)).st = .running) ∧
    (let s := modMe (resolving (.copy agentBase.cur.rill 2)) (fun r => { r with copies := [{ ropCmd with held := some 6 }] })
     s.traps.events.find? (fun p => p.1 == 6) = some (6, .copy s.cur.rill 2) ∧ s.copyCmd s.cur.rill 2 = some { ropCmd with held := some 6 }) ∧
    (let s := resolving (.tile 288 4)
     s.traps.events.find? (fun p => p.1 == 6) = some (6, .tile 288 4) ∧ ((s.tile 288).queue.head?).map (·.id) = some 4) ∧
    (trapped aTrap).cohortOk ∧
    (let s := trapped { aTrap with cause := 8 }
     let j := slotKey (keyCore s.cur.rill) ((s.core (keyCore s.cur.rill)).tsel.toNat / 16 % 8) ((s.core (keyCore s.cur.rill)).tsel.toNat % 16)
     j ≠ s.cur.rill ∧ s.cur.rill < 0x10000 ∧ s.curRill.agent = true ∧ (s.rill j).trap = some { aTrap with cause := 8 } ∧ s.groups = [] ∧ s.cards = []) ∧
    (agentBase.rill base.cur.rill).trap = none := by
  refine ⟨by decide +kernel, by decide +kernel, by decide +kernel, by decide +kernel, by decide +kernel, by unfold State.cohortOk; decide, by decide, by decide⟩

/-- The agent with the range or page of a CCTL or TLBINV in k8 to k11. -/
def sysState (a0 a1 a2 : Word) : State := withK agentBase [(8, a0), (9, a1), (10, a2)]

theorem sysState_cohortOk (a0 a1 a2 : Word) : (sysState a0 a1 a2).cohortOk := by
  unfold State.cohortOk; rw [show (sysState a0 a1 a2).cur = agentBase.cur from rfl]; decide

def lineHome (n : Nat) (dirty : Bool) : LineState := { hs := [if n = 64 then {} else ⟨64 - n, false, true, false, 0⟩, {}, {}, {}, ⟨n, true, true, dirty, 0⟩] }
/-- Line 0x400 with 64 or 63 tokens at its home. -/
def rangeState (l : LineState) : State := { sysState 0x20000 0 128 with coh := { base.coh with lines := [(0x400, l)] } }

theorem inside_range {l : Nat} (h : 0x20000 ≤ 128 * l ∧ 128 * l < 0x20000 + 128) : l = 0x400 := by omega

/-- A range of one line, one past the end of memory, one that is not of lines; the line home, and not; the last context and page, and the
first that do not exist; an access that is outstanding; a task posted and none. -/
theorem witness_SystemInstructionsKeepTheCore : (rangeState (lineHome 64 true)).cohortOk ∧
    (let s := rangeState (lineHome 64 true)
     (s.usrc 8 0).toNat + (s.usrc 9 0).toNat % 256 * 2 ^ 32 = 0x20000 ∧ (s.usrc 10 0).toNat = 128 ∧ (s.coh.lines.map (·.1)).Nodup ∧
       (s.rills.map (·.1)).Nodup ∧
       (∀ l, (0x20000 ≤ 128 * l ∧ 128 * l < 0x20000 + 128 ∧ (s.line l).lent = 0) →
         (s.line l).hs = [{}, {}, {}, {}, (s.line l).holder 4] ∧ ((s.line l).holder 4).cnt = 64) ∧
       (∀ l b, (0x20000 ≤ 128 * l ∧ 128 * l < 0x20000 + 128 ∧ (s.line l).lent = 0) → s.persFor b l = none)) ∧
    (let s := rangeState (lineHome 63 true)
     let coming := fun (t : State) => ∃ m ∈ t.coh.msgs ++ t.coh.resend, m.kind = .tok ∧ m.dirty = true ∧ 0x20000 ≤ 128 * m.line ∧ 128 * m.line < 0x20000 + 128
     ¬coming s ∧ coming { s with coh := { s.coh with msgs := [{ kind := .tok, line := 0x400, cnt := 1, dirty := true }] } }) ∧
    ((0x20001 % 128 ≠ 0) ∧ 0xC000000000 < 0xC000000000 + 128 ∧ 0xBFFFFFFF80 + 128 ≤ 0xC000000000) ∧
    (let s := rangeState (lineHome 63 true)
     (∀ l, (0x20000 ≤ 128 * l ∧ 128 * l < 0x20000 + 128 ∧ (s.line l).lent = 0) → ((s.line l).holder 4).cnt ≠ 64) ∧
       (let w : Wait := { ins := .cctlEvict 8, vals := [0x20000, 128] }
        let t := modMe s (fun r => { r with waits := [w] })
        t.curRill.waits.head? = some w ∧ w.held = none ∧ t.runs t.cur.rill = true ∧ t.persFor 0 0x400 = none ∧ ((t.line 0x400).holder 4).cnt ≠ 64 ∧
          ((t.line 0x400).holder 0).cnt ≠ 0 ∧ (t.line 0x400).hs.length = 5)) ∧
    (((sysState 4095 0 0).usrc 8 0).toNat ≤ 4095 ∧ 4095 < ((sysState 4096 0 0).usrc 8 0).toNat) ∧
    (((sysState 0 0x01FFFFFF 4095).usrcPair 8).toNat < 2 ^ 57 ∧ ((sysState 0 0x01FFFFFF 4095).usrc 10 0).toNat ≤ 4095 ∧
      2 ^ 57 ≤ ((sysState 0 0x02000000 0).usrcPair 8).toNat ∧ 4095 < ((sysState 0 0 4096).usrc 10 0).toNat) ∧
    (agentBase.fab.reqs = [] ∧ ∀ x ∈ agentBase.rills, x.2.accs = [] ∧ x.2.copies = []) ∧
    (let s := agentBase.modRill base.cur.rill (fun r => { r with accs := [ldAccess] })
     ldAccess ∈ (s.rill base.cur.rill).accs ∧ ∃ q ∈ ldAccess.reqs, q.done = false ∧ q.tgt < 4) ∧
    ((agentBase.modCore 144 (fun c => { c with agentTask := true })).core (keyCore agentBase.cur.rill)).agentTask = true ∧
    (∃ p q, p < 8 ∧ q < 16 ∧ ((trapped aTrap).rill (slotKey (keyCore (trapped aTrap).cur.rill) p q)).trap.isSome = true) ∧
    (¬((agentBase.core (keyCore agentBase.cur.rill)).agentTask = true ∨
      ∃ p q, p < 8 ∧ q < 16 ∧ (agentBase.rill (slotKey (keyCore agentBase.cur.rill) p q)).trap.isSome = true)) := by
  refine ⟨sysState_cohortOk 0x20000 0 128, ⟨by decide, by decide, by decide, by decide, fun l h => ?_, fun l b h => ?_⟩, by decide, by decide, ⟨fun l h => ?_, by decide⟩,
    by decide, by decide, by decide, by decide, by decide, ⟨0, 0, by decide⟩, ?_⟩
  · cases inside_range ⟨h.1, h.2.1⟩; decide
  · exact rfl
  · cases inside_range ⟨h.1, h.2.1⟩; decide
  · have : ∀ p, p < 8 → ∀ q, q < 16 → (agentBase.rill (slotKey (keyCore agentBase.cur.rill) p q)).trap.isSome = false := by decide
    rintro (h | ⟨p, q, hp, hq, h⟩)
    · exact absurd h (by decide)
    · rw [this p hp q hq] at h; exact absurd h (by decide)

/-- A rill with a card at 0x20100 and a target in k2. -/
def cardState (w0 tw : Word) (jobs : Nat) : State :=
  let s := withK (withBlock [w0.toNat, 0, 0, 0, 0, 0, 0, 0]) [(0, 0x20100), (2, tw)]
  (s.modCore (keyCore s.cur.rill) (fun c => { c with jobs := List.replicate jobs {} }))

/-- The hypothesis of the clauses on PINT. -/
def badIntent (w p : Nat) : Prop :=
  2 ^ 28 ≤ w ∨ 6 < w / 2 ^ 24 % 16 ∨ (w / 2 ^ 24 % 16 = 0 ∧ w / 2 ^ 20 % 16 ≠ 0) ∨
    (w / 2 ^ 24 % 16 ≠ 0 ∧ w / 2 ^ 20 % 16 = 0) ∨ (w % 2 ^ 16 ≠ 0 ∧ (p % 4096 ≠ 0 ∨ 2 ^ 57 ≤ p))

theorem witness_CardsIntentsAndReservesArePosted : (cardState 0 0x80000000 0).cohortOk ∧
    (cardState 0 0x80000000 0).acting 2 = [] ∧ (cardState 0 0x80000000 0).acting 1 ≠ [] ∧
    (let s := cardState 0 0x80000000 63
     (s.usrcPair 0).toNat = 0x20100 ∧ (s.usrc 2 0).toNat = 2 ^ 31 ∧ badCard (s.launch s.curRill.launch).lr 0 true (List.replicate 8 0) = false ∧
       (s.core (keyCore s.cur.rill)).jobs.length < 64 ∧
       (match s.vread (viaOf s.cur.rill) s.cur.rill s.curRill.ctx 0x20100 64 s.curRill.agent with
         | (.ok bytes, _) => words64 bytes == List.replicate 8 0
         | _ => false) = true) ∧
    64 ≤ ((cardState 0 0x80000000 64).core (keyCore base.cur.rill)).jobs.length ∧
    ((base.die (keyDie base.cur.rill)).enm.testBit 23 = true ∧ (base.die (keyDie base.cur.rill)).gated = false) ∧
    badCard {} 0 true (0x40 :: List.replicate 7 0) = true ∧
    (¬badIntent 0x06F0FFFF 0x1000 ∧ badIntent 0x07F00000 0 ∧ ¬badIntent 0 0 ∧ badIntent 0x06000000 0 ∧ badIntent 0x06F00001 0x1001) :=
  ⟨cohortOk_of rfl, by decide, by decide, ⟨by decide, by decide, by decide, by decide, by decide +kernel⟩, by decide, by decide, by decide,
   by unfold badIntent; decide⟩

/-- A core at the first clock of an epoch that has begun, with the balance `b`. -/
def bucket (b clk denials : Nat) : State :=
  let s := (modMe base (fun r => { r with denials := denials })).modCore 144 (fun c => { c with bal := b, clk := clk })
  s.modDom 0 (fun d => { d with epoch := 1 })
/-- The core's firmware agent lives, and waits in HALT. -/
def halting (s : State) : State :=
  s.setRill (agentKey 144) { placedRill with agent := true, waits := [{ ins := .halt, pc := BitVec.ofNat 64 placeAt, lanes := List.range 16 }] }
def liveKeys (s : State) : List Nat := (s.rills.filter (fun p => p.2.live && decide (p.1 < 0x10000) && keyCore p.1 == 144)).map (·.1)
def notedCore (s : State) : State := s.modCore 144 (fun y => { y with eqbal := min y.bal 65535 + (if y.rsv.isEmpty then 0 else 65536) })

/-- The candidate of the one rill of the core that is not its agent, which the balance just pays for, and one that it falls short of; the last clock of an epoch and the first of the next;
seven denials and eight; cores at their capacity and above it. -/
theorem witness_BucketsPayForIssuesAndRefill :
    ((base.clockRuns 0 = false ∧ 32 * ((bucket 0 32 0).dom (coreDom 144)).epoch ≤ ((bucket 0 32 0).core 144).clk) ∧
     (let s := halting (bucket 100 31 7)
      s.clockRuns 144 = true ∧ (s.core 144).clk < 32 * (s.dom (coreDom 144)).epoch ∧ (s.rill base.cur.rill).live = true ∧ keyCore base.cur.rill = 144 ∧
        (s.rills.map (·.1)).Nodup ∧ (s.tile 288).queue = [] ∧ (s.tile 289).queue = [] ∧ s.engineWork 144 = [] ∧ (s.core 144).rsv = [] ∧
        (s.dom (coreDom 144)).vlim = 0xFFFF ∧
        liveKeys s ≠ [base.cur.rill] ∧
        (match ((liveKeys s).foldl State.warm (notedCore s)).cand base.cur.rill with
          | some x => x.eligible && !x.free && decide (x.price - (s.rill base.cur.rill).reserve + x.more ≤ 100)
          | none => false) = true)) ∧
    (let s := halting (bucket 100 31 7)
     ∀ j ∈ liveKeys s, j ≠ base.cur.rill → ((liveKeys s).foldl State.warm (notedCore s)).cand j = none) ∧
    (match ((notedCore (bucket 0 0 0)).warm base.cur.rill).cand base.cur.rill with
      | some x => x.eligible && !x.free && decide (0 < x.price - 0 + x.more)
      | none => false) = true ∧
    (8 ≤ ((bucket 0 0 8).rill base.cur.rill).denials ∧ base.cur.rill ∉ ((bucket 0 0 8).core 144).rsv ∧ 7 < 8) := by
  refine ⟨⟨by decide, by decide +kernel⟩, by decide +kernel, by decide +kernel, by decide +kernel⟩

/-- A die of one core, at the end of its first epoch, within its capacity and above it. -/
def refill (b : Nat) : State :=
  let s := bucket b 32 0
  (s.modDie 6 (fun d => { d with enm := 1 })).modDom 0 (fun d => { d with dbal := 1000, ccapNext := 500, crefNext := 100 })

theorem witness_refill_and_prices :
    (let s := refill 500
     s.domCores 0 = [144] ∧ (∀ i ∈ s.domCores 0, 32 * (s.dom 0).epoch ≤ (s.core i).clk) ∧ (∀ i ∈ s.domCores 0, (s.core i).bal + s.reserves i ≤ (s.dom 0).ccapNext)) ∧
    (let s := refill 501
     s.domCores 0 = [144] ∧ (s.dom 0).ccapNext < (s.core 144).bal + s.reserves 144 ∧ (s.core 144).bal + s.reserves 144 - (s.dom 0).ccapNext ≤ (s.core 144).bal) ∧
    (base.prwait = [] ∧ 0x80000003 / 2 ^ 31 % 2 = 1 ∧ 3 / 2 ^ 31 % 2 = 0 ∧ 7 < 8 ∧ 0xFFFFFF % 2 ^ 24 ≠ 0) ∧
    (let s := { base with prwait := [335], prnew := 2, prsent := [(8192, 7), (12287, 1)] }
     335 ∈ s.prwait ∧ ∀ p ∈ s.prsent, p.1 / 4096 = s.prnew) := by
  refine ⟨by decide +kernel, by decide +kernel, by decide, by decide⟩

/-! Queues, launches and placement. -/

/-- The FED runs, and context 0 is mapped to itself; queue 0 has its ring of 16 entries at 0x20000. -/
def fed : State := (mapped memBase).modDie 0 (fun d => { d with st := .active })
def withQueue (x : Queue) (entry : List Nat) : State :=
  let s := fed.setQueue 0 { x with qbase := 0x20000 }
  { s with dram := memWrite s.dram 0x20000 ((entry.map (toBytes 8)).flatten) }

def headOf (words : List Nat) : HeadCmd := { words := words }
/-- A NOP entry that waits for an object at 0x20080 to reach 5, one without fences, a SIGNAL and a launch. -/
def nopEntry : List Nat := [3, 0, 0, 0, 0, 0, 0, 0]
def fencedEntry (a : Nat) : List Nat := [0x103, a, 5, 0, 0, 0, 0, 0]
def signalEntry (a : Nat) : List Nat := [2, 0, 0, 0, 0, a, 9, 0]
def launchEntry : List Nat := [1, 0, 0, 0, 0, 0x20040, 0, 0]

def ready (words : List Nat) : State :=
  (withQueue { en := true, qtail := 1, head := some (headOf words) } words).setQueue 1 { prio := 0 }

/-- The launch's record, at 0x20040, has its prologue at 0x30000. -/
def launching : State := { ready launchEntry with dram := memWrite (ready launchEntry).dram 0x20070 (toBytes 8 0x30000) }

theorem not_eligible {s : State} {j : Nat} (h : (s.queue j).en = false) : s.eligible j = false := by
  unfold State.eligible; simp [h]

theorem ready_eligible (words : List Nat) (j : Nat) (h : (ready words).eligible j = true) : j = 0 := by
  by_cases hj : j = 0
  · exact hj
  · have he : ((ready words).queue j).en = false := by
      show (Tbl.get ({} : Queue) [(0, _), (1, _)] j).en = false
      by_cases h1 : j = 1
      · subst h1; rfl
      · simp [Tbl.get, Ne.symm hj, Ne.symm h1]
    rw [not_eligible he] at h; exact absurd h (by decide)

/-- The read met a fault, or has to come again. -/
def faulted {α : Type} : Except (Nat × Nat) α × State → Bool
  | (.error (c, _), _) => c != waitCode
  | _ => false
def waits {α : Type} : Except (Nat × Nat) α × State → Bool
  | (.error (c, _), _) => c == waitCode
  | _ => false

/-- The fence object at `va` is placed in memory, and its line can be read. -/
def readable (s : State) (va : Nat) : Bool :=
  match s.translate .direct 0 va .read false with
  | (.ok p, u) => p.tgt == 0 && okay (u.readAt .direct (queueWho 0 0) 0 va p 8)
  | _ => false

/-- The last tail that the ring holds and the first that overruns it; entries that can be read, are bad, cannot be read; a fence object
that is placed, misaligned, out of the map; a NOP, a SIGNAL and a launch at the head of the only eligible queue. -/
theorem witness_QueuesRunTheirCommands : 63 < 64 ∧ 3 < 4 ∧
    (let s := withQueue { en := true } nopEntry
     (16 + 2 ^ 32 - (s.queue 0).qhead) % 2 ^ 32 ≤ 2 ^ (s.queue 0).log2sz ∧ 2 ^ (s.queue 0).log2sz < (17 + 2 ^ 32 - (s.queue 0).qhead) % 2 ^ 32 ∧
       s.fedUp = true ∧ (s.queue 0).halt = false ∧ (s.queue 0).en = true ∧ (s.queue 0).head = none ∧ (s.queue 0).held = false ∧
       waits (({ s with coh := { s.coh with lines := [] } }).vread .direct (queueWho 0 2) 0 0x20000 64 false) = true ∧
       (match (s.setQueue 0 { s.queue 0 with qtail := 1 }).vread .direct (queueWho 0 2) 0 0x20000 64 false with
         | (.ok bytes, _) => words64 bytes == nopEntry && !badEntry { words := words64 bytes }
         | _ => false) = true ∧
       badEntry { words := [4, 0, 0, 0, 0, 0, 0, 0] } = true ∧ faulted (s.vread .direct (queueWho 0 2) 0 0x40000000 64 false) = true) ∧
    (let s := withQueue { en := true, qtail := 1, head := some (headOf (fencedEntry 0x20080)) } []
     (headOf (fencedEntry 0x20080)).waits 0 = true ∧ (headOf (fencedEntry 0x20080)).sat 0 = false ∧ (headOf (fencedEntry 0x20080)).faddr 0 % 8 = 0 ∧
       readable s 0x20080 = true ∧ (headOf (fencedEntry 0x20084)).faddr 0 % 8 ≠ 0 ∧
       (match s.translate .direct 0 0x40000000 .read false with
         | (.error c, _) => c != waitCode
         | _ => false) = true) ∧
    (let x : Queue := { halt := true }
     x.pending ≤ 2 ^ x.log2sz ∧ (x.head = none ∨ x.held = true) ∧ (x.en = false ∨ x.qtail = x.qhead ∨ x.held = true) ∧ 2 ^ x.log2sz < { x with qtail := 17 }.pending ∧ 1 ≠ x.qhead) ∧
    (let s := ready nopEntry
     let x := s.queue 0
     s.fedUp = true ∧ (s.cp 3).busy = false ∧ x.head = some (headOf nopEntry) ∧ x.prio < 4 ∧ x.en = true ∧ x.halt = false ∧ x.qtail ≠ x.qhead ∧
       (x.held = false ∨ x.again = true) ∧ x.waitw = false ∧ (∀ i, i < 2 → (headOf nopEntry).waits i = true → (headOf nopEntry).sat i = true) ∧
       (headOf nopEntry).ty = 3 ∧ s.running = [] ∧ (s.setCp 3 { busy := true, stage := .prologue }).fedUp = true) ∧
    (∀ j, j < 64 → (ready nopEntry).eligible j = true → ((ready nopEntry).queue j).prio ≤ ((ready nopEntry).queue 0).prio ∧ j = 0) ∧
    (let h := headOf (signalEntry 0x20000)
     h.ty = 2 ∧ h.arg0 % 8 = 0 ∧ (headOf (signalEntry 0x20004)).arg0 % 8 ≠ 0 ∧ okay ((ready (signalEntry 0x20000)).translate .direct 0 h.arg0 .write false) = true ∧
       memWf (ready (signalEntry 0x20000)).dram = true ∧ (ready (signalEntry 0x20000)).canWrite 0x400 (homeBd 0x400) = true ∧
       ({ ready (signalEntry 0x20000) with coh := {} }).canWrite 0x400 (homeBd 0x400) = false) ∧
    ((headOf launchEntry).ty = 1 ∧ (match (launching.vread .direct (cpKey 3) 0 0x20040 64 false) with
        | (.ok bytes, _) => word64 (words64 bytes) 6 == 0x30000
        | _ => false) = true ∧
      faulted ((ready launchEntry).vread .direct (cpKey 3) 0 0x40000000 64 false) = true ∧ 0x30000 % 4 = 0 ∧ 0x30000 < 2 ^ 57) ∧
    (let s := (fed.setRill (cpKey 3) { live := true }).setCp 3 { busy := true, count := 4096 }
     (s.rill (cpKey 3)).live = true ∧ 4096 ≤ (s.cp 3).count ∧ (s.rill (cpKey 3)).accs = [] ∧ (s.queue (s.cp 3).queue).halt = false) ∧
    (let s := { fed with launches := [(3, { st := .running, total := 1 }), (4, { st := .windows }), (5, { queue := 1 })] }
     (s.launches.map (·.1)).Nodup ∧ (s.launch 3).queue = 0 ∧ (s.launch 3).st = .running ∧ s.launchOver 3 = false ∧ (s.launch 4).st = .windows ∧ (s.launch 5).queue ≠ 0) := by
  refine ⟨by decide, by decide, by decide +kernel, by decide +kernel, by decide, by decide +kernel, fun j _ h => ?_, by decide +kernel, by decide +kernel, by decide, by decide +kernel⟩
  cases ready_eligible nopEntry j h; decide +kernel

def aWin (tid : Nat) : WinDesc := { tid := tid, fmt := 1, base := 0x100000 * tid, limit := 0x100000 * tid + 0x1000, statva := 0x20000 }
def waiting (inst ws : List WinDesc) : State :=
  { fed with windows := inst.map (fun d => { desc := d, refs := 1 }), launches := [(3, { st := .windows, lr := { wins := ws } })] }
def overLaunch (l : Launch) : State := { fed with launches := [(3, { l with st := .running })], windows := [{ desc := aWin 1, refs := 1 }] }

/-- The second GiB begins with 2 MiB of basin store, the third is host memory. -/
def otherTargets (s : State) : State :=
  { s with dram := memWrite (memWrite s.dram 0x42008 (toBytes 8 0x20001 ++ toBytes 8 (7 + 3 * 2 ^ 48))) 0x20000 (toBytes 8 (7 + 2 ^ 48)) }
def placeOf (s : State) (va : Nat) : Option Place :=
  match s.translate .direct 0 va .write false with
  | (.ok p, _) => some p
  | _ => none
def outOfMap (s : State) : Bool :=
  match s.translate .direct 0 0x40000000 .write false with
  | (.error c, _) => c != waitCode
  | _ => false

/-- A launch whose windows fit, are one too many, or conflict; one with its window still to be written out, in device memory, in basin
store, in host memory and at no mapped address;
its last store; a die's new completions. -/
theorem witness_LaunchesStartAndRetire : fed.fedUp = true ∧
    ((waiting [] [aWin 1]).windowWaiters = [3] ∧ winConflict [] [aWin 1] = false ∧ winConflict [aWin 1] [{ aWin 2 with tid := 1 }] = true ∧
      ((waiting [] [aWin 1]).queue 0).halt = false ∧ (waiting [] [aWin 1]).atHead 0 0 = false ∧
      ((waiting [] [aWin 1]).setQueue 0 { held := true }).atHead 0 0 = true ∧ 255 + 1 ≤ 256 ∧ 256 < 256 + 1) ∧
    (let s := overLaunch { lr := { wins := [aWin 1] } }
     s.launchOver 3 = true ∧ (s.launches.map (·.1)).Nodup ∧ (overLaunch { total := 1 }).launchOver 3 = false ∧ memWf s.dram = true ∧ (s.launch 3).lr.wins[(s.launch 3).wrote]? = some (aWin 1) ∧
       s.windows.findIdx? (fun w => w.desc.tid == (aWin 1).tid) = some 0 ∧ okay (s.translate .direct 0 (aWin 1).statva .write false) = true ∧
       outOfMap s = true ∧ s.canWrite 0x400 (homeBd 0x400) = true ∧ ({ s with coh := {} }).canWrite 0x400 (homeBd 0x400) = false ∧
       (placeOf (otherTargets s) 0x40010000).map (·.tgt) = some 1 ∧ (placeOf (otherTargets s) 0x80000000).map (·.tgt) = some 3 ∧ memWf s.basin = true ∧
       s.basinBusy 0 = false) ∧
    (let s := overLaunch {}
     s.launchOver 3 = true ∧ (s.launch 3).lr.wins = [] ∧ (s.launch 3).code = 0 ∧ (s.launch 3).again = false ∧ (s.launch 3).lr.donef = 0) ∧
    (let s := overLaunch { code := 0x10 }
     s.launchOver 3 = true ∧ (s.launch 3).lr.wins.length ≤ (s.launch 3).wrote ∧ (s.launch 3).code ≠ 0) ∧
    (let s := (overLaunch { again := true }).setQueue 0 { held := true }
     s.launchOver 3 = true ∧ (s.launch 3).again = true ∧ s.atHead (s.launch 3).queue (s.launch 3).cmd = true ∧ s.windowWaiters = [] ∧
       (s.queue (s.launch 3).queue).grant = (s.launch 3).grant) ∧
    (let s := overLaunch { lr := { donef := 0x20000, donev := 7 } }
     s.launchOver 3 = true ∧ (s.launch 3).lr.donef ≠ 0 ∧ outOfMap s = true ∧ okay (s.translate .direct 0 0x20000 .write false) = true ∧
       s.canWrite 0x400 (homeBd 0x400) = true) ∧
    (let s := overLaunch { total := 9, ranges := [(6, { retired := 2, reported := 1 })] }
     (s.sweep.launch 3).st = .running ∧ (s.sweep.die 0).st = .active ∧ ((s.sweep.launch 3).ranges.get {} 6).reported < ((s.sweep.launch 3).ranges.get {} 6).retired) := by
  decide +kernel

/-- A launch of groups of one rill, one of which die 6 may place, and die 7 the next. -/
def placing (r : LaunchRec) : State :=
  let s : State := { State.reset with launches := [(3, { st := .running, lr := r, total := 2, ranges := [(6, { count := 1 }), (7, { first := 1, count := 1 })] })], running := [3] }
  let act := fun (d : Die) => { d with st := .active, enm := 0xFFFFFF, rmask := 0xFFFFFF, evaluate := true }
  ((s.modDie 0 act).modDie 6 act).modDie 7 act

def quietDie (s : State) : State := s.modDie 6 (fun x => { x with evaluate := false })
def seatsAt (s : State) : Option (List (List Seat)) :=
  (Space.fitsAll ((s.startPart 144)) none [((s.launch 3).lr.need, 0)] (s.spaceOf 144)).map (·.1)

/-- A launch of spans (level 3), with a request of the lower die for its first pair at position 0. -/
def spanning (answer : Option Bool) (launch : Nat) : State :=
  let s := placing { lvlp := 8, lv := [(0, 0), (0, 0), (0, 0), (1, 0)] }
  { s with spanReqs := [(0, some { launch := launch, index := 0, pos := 0, start := 0, choice := 0, slots := [0], answer := answer })] }

/-- The upper group of a span is placed, and the lower one's request is granted. -/
def grantedSpan : State :=
  let s := spanning (some true) 3
  { s with groups := [(1, { launch := 3, index := 1, die := 7, st := .placed, room := 1 })], active := [1], fresh := 2 }

def placedGroup (fillAt : Nat) : State :=
  { (placing {}) with
    groups := [(1, { launch := 3, die := 6, room := 1, st := .placed, liveRills := [base.cur.rill], fillAt := fillAt })], active := [1]
    rills := [(base.cur.rill, { live := true })], rooms := [(1, { live := true, core := 144 })] }
/-- The line's tokens are at a slice. -/
def someHolder : LineState := { hs := [⟨64, true, true, false, 0⟩, {}, {}, {}, {}] }
/-- The group comes back with a rill whose registers lie in frame 0. -/
def returning : State :=
  let s := placedGroup 0
  { s with
    groups := s.groups.map (fun p => (p.1, { p.2 with frame := some 0, layout := [{ uni := 0x200000, vec := 0x201000 }] }))
    rills := [(base.cur.rill, { live := true, width := 16, nuni := 4, nvec := 4 })], rooms := [(1, { live := true, core := 144, lsize := 64 })]
    traps := { s.traps with cxpbase := 0x1000000, cxpn := 1, frames := [0] } }
def placedCard (fillAt : Nat) (st : GroupState) : State :=
  { (placedGroup 0) with
    groups := [(1, { launch := 3, die := 6, room := 1, st := st, filled := true })]
    cards := [(2, { live := true, launch := 3, group := 1, room := 2, st := .placed, fillAt := fillAt, liveRills := [base.cur.rill] })] }

/-- A candidate that fits at its first choice; one that has waited 100 µs and one just short of it; a request that is granted, one that is
refused, and both answers; a group and a card at the end of their fill and before it. -/
theorem witness_GroupsArePlacedAndStarted :
    (let s := placing {}
     s.sweep = s ∧ isCompute 6 = true ∧ (s.die 6).evaluate = true ∧ s.mayPlace 6 = true ∧ s.spanBusy 6 = false ∧ (((quietDie s).noteCands 6).tryCards 6).isNone = true ∧
       ((quietDie s).noteCands 6).cands 6 = [⟨3, 0, none⟩] ∧ (s.launch 3).lr.has 3 = false ∧ (s.launch 3).lr.has 4 = false ∧ (s.launch 3).lr.has 5 = false ∧
       (s.die 6).enm.testBit 0 = true ∧ seatsAt ((quietDie s).noteCands 6) = some [[⟨0, 0, 0⟩]] ∧ (quietDie s).sweep = quietDie s ∧ ((quietDie s).die 6).evaluate = false) ∧
    (let s := (placing {}).noteCands 6
     s.candOf 6 3 = some ⟨3, 0, none⟩ ∧ ((s.launch 3).ranges.get {} 6).since = some 0 ∧ ((s.launch 3).ranges.get {} 6).blocks = false ∧
       ((placing {}).launch 3).ranges.get {} 6 = { count := 1 } ∧ (s.modDie 6 (fun d => { d with ltime := 99999 })).now 6 < 0 + 100000 ∧
       0 + 100000 ≤ (s.modDie 6 (fun d => { d with ltime := 100000 })).now 6) ∧
    (let s := spanning none 3
     let q : SpanReq := { launch := 3, index := 0, pos := 0, start := 0, choice := 0, slots := [0] }
     s.spanReqs.get none 0 = some q ∧ q.choice < 192 ∧ s.mayPlace 7 = true ∧ (s.pairmOf 7).testBit q.pos = true ∧ s.unitMay 3 1 7 = true ∧
       s.upperSeats 7 q = some [[⟨0, 0, 0⟩]] ∧ s.savedGroup 3 1 = none ∧ (s.queue (s.launch 3).queue).pheld = false ∧
       ((s.setQueue 0 { pheld := true }).queue (s.launch 3).queue).pheld = true ∧ (s.modDie 7 (fun d => { d with gated := true })).mayPlace 7 = false) ∧
    (grantedSpan.savedGroup 3 0 = none ∧ 1 ≠ grantedSpan.fresh ∧ 1 ∈ grantedSpan.active ∧ (grantedSpan.group 1).launch = 3 ∧ (grantedSpan.group 1).index = 0 + 1 ∧
      (∀ j ∈ grantedSpan.active, j = 1) ∧ grantedSpan.fresh ∉ grantedSpan.active) ∧
    (((spanning (some false) 3).requestSpan 6 ⟨3, 0, none⟩ 1).isSome = true ∧
      (((spanning (some false) 3).modDie 7 (fun d => { d with rmask := 0, enm := 0 })).requestSpan 6 ⟨3, 0, none⟩ 1).isNone = true) ∧
    (let q : SpanReq := { launch := 3, index := 0, pos := 0, start := 0, choice := 0, slots := [0], answer := some true, upperOnly := true }
     ({ placing {} with spanReqs := [(0, some q)] }).spanReqs.get none 0 = some q) ∧
    ((placing { lvlp := 32 }).launch 3).lr.has 5 = true ∧
    (((placedGroup 0).group 1).room = 1 ∧ ((placedGroup 0).group 1).st = .placed ∧ (placedGroup 0).mayStart 1 = true ∧ (placedGroup 1).mayStart 1 = false ∧
      ((placedGroup 0).rill base.cur.rill).trap = none ∧ ((placedGroup 0).room 1).unitKeys = [] ∧ ((placedGroup 0).group 1).frame = none ∧
      ((placedGroup 0).group 1).span = false) ∧
    (let s := returning
     let x := s.group 1
     let at_ := s.traps.cxpbase + 0x400000 * x.frame.getD 0
     x.room = 1 ∧ x.st = .placed ∧ s.mayStart 1 = true ∧ x.frame = some 0 ∧ x.layout = [{ uni := 0x200000, vec := 0x201000 }] ∧ x.span = false ∧
       s.homeOpen at_ frameBytes false = true ∧
       ({ s with coh := { s.coh with lines := [(at_ / 128 + 1, someHolder)] } } : State).homeOpen at_ frameBytes false = false ∧
       x.liveRills.getD 0 noRill = base.cur.rill ∧ base.cur.rill ∈ x.liveRills ∧ (s.rill base.cur.rill).width ≤ 64 ∧ 0 < (s.room 1).lsize ∧ 0 < (s.rill base.cur.rill).nuni ∧
       0 < (s.rill base.cur.rill).nvec) ∧
    (((placedCard 0 .running).group 2).room ≠ 2 ∧ ((placedCard 0 .running).card 2).live = true ∧ ((placedCard 0 .running).card 2).st = .placed ∧
      ((placedCard 0 .running).card 2).fillAt ≤ ((placedCard 0 .running).core 144).clk ∧ ((placedCard 0 .running).group 1).resident = true ∧
      ((placedCard 1 .running).core 0).clk < ((placedCard 1 .running).card 2).fillAt ∧ ((placedCard 0 .saved).group 1).resident = false) := by
  refine ⟨by decide +kernel, by decide +kernel, by decide +kernel, by decide, by decide +kernel, by decide, by decide, by decide +kernel, by decide +kernel, by decide +kernel⟩

/-- A rill of group 1, which its die placed, all of whose threads have exited, and what else the group has; a card and a group that
have none left. -/
def gone (rills : List Nat) : State :=
  let s := (modTh base (fun _ x => { x with exited := true }))
  let s := modMe s (fun r => { r with group := 1, launch := 3, room := 1 })
  { s with
    groups := [(1, { launch := 3, die := 6, room := 1, st := .running, liveRills := base.cur.rill :: rills })], active := [1]
    rooms := [(1, { live := true, core := 144 })]
    launches := [(3, { st := .running, total := 2, ranges := [(6, { count := 2 })] })] }
def cardLeft (donec : Nat) (own : Bool := true) : State :=
  { fed with
    cards := [(2, { live := true, launch := 3, room := 2, own := own, group := 1, st := .running, words := [0, 0, 0, 0, 0, 0, 0, donec] })]
    rooms := [(2, { live := true, core := 144 })], launches := [(3, { st := .running })], active := [1]
    groups := [(1, { launch := 3, die := 6, room := 1, st := .running, liveRills := [base.cur.rill], cards := [2] })] }
def groupLeft : State :=
  { fed with
    groups := [(1, { launch := 3, die := 6, room := 1, st := .running })], active := [1], cards := []
    rooms := [(1, { live := true, core := 144 })], launches := [(3, { st := .running, total := 2, ranges := [(6, { count := 2 })] })] }

theorem no_jobs_for {s : State} {g : Nat} (h : ∀ p ∈ s.cores, p.2.jobs = []) (c : Nat) : ∀ j ∈ (s.core c).jobs, j.group ≠ g := by
  have : ∀ (t : Tbl Core), (∀ p ∈ t, p.2.jobs = []) → (t.get {} c).jobs = [] := by
    intro t ht
    induction t with
    | nil => rfl
    | cons p t ih =>
      obtain ⟨j, x⟩ := p
      by_cases h : j = c
      · simpa [Tbl.get, h] using ht (j, x) List.mem_cons_self
      · simpa [Tbl.get, h] using ih (fun q hq => ht q (List.mem_cons_of_mem _ hq))
  intro j hj
  have e : (s.core c).jobs = [] := this s.cores h
  rw [e] at hj; exact absurd hj List.not_mem_nil

theorem witness_RillsCardsAndGroupsRetire :
    (let s := gone []
     let r := s.rill base.cur.rill
     let x := s.group r.group
     memWf s.dram = true ∧ r.live = true ∧ r.started = true ∧ r.dropped = false ∧ r.agent = false ∧ base.cur.rill < 0x10000 ∧
       (∀ l, l < r.width → (r.thread l).exited = true) ∧ r.nld = 0 ∧ r.nst = 0 ∧ r.ntl = 0 ∧ (∀ t, t < 4 → r.ncp.get 0 t = 0) ∧ r.copies = [] ∧ r.accs = [] ∧
       r.arrivals = [] ∧ r.vtoks = [] ∧ r.trap = none ∧ r.pend = none ∧ s.cards = [] ∧ r.group ∈ s.active ∧ s.active = [r.group] ∧ x.st = .running ∧
       (∀ j ∈ x.liveRills, j = base.cur.rill) ∧ x.cards = [] ∧ (∀ q ∈ s.cores, ∀ j ∈ q.2.jobs, j.group ≠ r.group) ∧ s.fab.reqs = [] ∧
       (s.room x.room).unitKeys = [] ∧ (s.launch x.launch).ranges.find x.die = some { count := 2 }) ∧
    (let s := gone [base.cur.rill + 1]
     ∃ j ∈ (s.group (s.rill base.cur.rill).group).liveRills, j ≠ base.cur.rill) ∧
    ((base.rill base.cur.rill).thread 0).exited = false ∧
    (let s := cardLeft 0
     (s.cards.map (·.1)).Nodup ∧ s.cards.map (·.1) = [2] ∧ (s.card 2).live = true ∧ (s.card 2).st = .running ∧ (s.card 2).liveRills = [] ∧
       (s.card 2).counted = false ∧ isCompute 5 = false ∧ (s.card 2).own = true ∧ word64 (s.card 2).words 7 = 0) ∧
    (let s := (cardLeft 0 false).modCore 144 (fun c => { c with jobs := [{ own := true, room := 2 }] })
     (s.card 2).own = false ∧ (∃ q ∈ s.cores, ∃ j ∈ q.2.jobs, j.own = true ∧ j.room = (s.card 2).room) ∧
       ¬(∃ q ∈ (cardLeft 0 false).cores, ∃ j ∈ q.2.jobs, j.own = true ∧ j.room = 2) ∧ ¬(∃ p ∈ (cardLeft 0 false).cards, p.2.own = true)) ∧
    (let s := cardLeft 0x20000
     word64 (s.card 2).words 7 ≠ 0 ∧ okay (s.translate (.engine 144) 0 0x20000 .atomic false) = true ∧ s.canWrite (0x20000 / 128) (coreTower 144) = false ∧
       ({ s with coh := memBase.coh } : State).canWrite (0x20000 / 128) (coreTower 144) = true ∧
       ({ s with coh := memBase.coh } : State).poisoned (coreTower 144) 0 0x20000 4 = false ∧
       fails ((cardLeft 0x40000000).translate (.engine 144) 0 0x40000000 .atomic false) = true) ∧
    (let s := groupLeft
     let x := s.group 1
     s.active = [1] ∧ s.cards = [] ∧ x.st = .running ∧ x.liveRills = [] ∧ x.cards = [] ∧ (s.room x.room).units = [] ∧ (s.cores.map (·.1)).Nodup ∧
       (s.launch x.launch).st = .running ∧ (s.die 0).st = .active ∧ (s.launch x.launch).ranges.find x.die = some { count := 2 } ∧ s.fab.reqs = []) ∧
    (∀ c, ∀ j ∈ (groupLeft.core c).jobs, j.group ≠ 1) := by
  refine ⟨by decide +kernel, by decide, by decide, by decide +kernel, by decide +kernel, by decide +kernel, by decide +kernel, fun c => no_jobs_for (by decide) c⟩

/-! Pre-emption, gating and debug. -/

/-- Group 1 of queue 5 on its core, with two context frames, of which the first is in use or both are. -/
def preempting (frames : List Nat) (st : GroupState) : State :=
  let s := placedGroup 0
  { s with
    launches := [(3, { st := .running, queue := 5 })]
    groups := [(1, { launch := 3, die := 6, room := 1, st := st, frame := if st = .saving then some 1 else none, liveRills := [base.cur.rill], filled := true })]
    rills := [(base.cur.rill, { placedRill with group := 1, room := 1, launch := 3, dropped := st == .saving })]
    traps := { s.traps with cxpn := 2, cxpbase := 0x1000000, frames := frames } }

def gateState (busy : Nat) (gated : Bool) (st : GroupState) : State :=
  let s := placing {}
  let s := s.modDie 7 (fun d => { d with gated := gated })
  { s with
    gbusy := [(0, busy)], greq := [(0, busy == 1)], traps := { s.traps with cxpn := 2, frames := [0] }
    groups := if st = .retired then [] else [(1, { launch := 3, die := 7, room := 1, st := st, filled := true })]
    active := if st = .retired then [] else [1], rooms := [(1, { live := true, core := 168 })] }

/-- A group that finds the last frame free, and none; one that is saving and has drained, with its launch at work or ending; the requests of
a layer in each phase; a die that runs, is to halt, and is halted. -/
theorem witness_PreemptionGatingAndDebugHalt :
    ((0x80000005).testBit 31 = true ∧ (0x5).testBit 31 = false ∧ (0x40000005).testBit 30 = true ∧ (0x80000005).testBit 30 = false ∧ 0x80000005 % 64 = 5) ∧
    (let s := preempting [0] .running
     s.spanReqs = [] ∧ s.queueGroups 5 = [1] ∧ (s.group 1).onCore = true ∧ (s.group 1).cards = [] ∧ (s.rills.map (·.1)).Nodup ∧ (s.group 1).frame = none ∧
       (s.rill base.cur.rill).agent = false ∧
       (∀ k ∈ s.roomKeys (s.group 1).room, (s.rill k).dropped = false) ∧ 1 < s.traps.cxpn ∧ 1 ∉ s.traps.frames ∧ (∀ j, j < 1 → j ∈ s.traps.frames) ∧
       s.traps.frames.length < s.traps.cxpn) ∧
    (let s := (preempting [0] .running).modGroup 1 (fun x => { x with frame := some 0 })
     s.queueGroups 5 = [1] ∧ (s.group 1).onCore = true ∧ (s.group 1).frame = some 0) ∧
    (let q : SpanReq := { launch := 3, index := 0, pos := 0, start := 0, choice := 0, slots := [0] }
     let s := { preempting [0] .running with spanReqs := [(0, some q)] }
     s.spanReqs.get none 0 = some q ∧ (s.launch q.launch).queue = 5) ∧
    (let s := preempting [0, 1] .running
     (∀ j, j < s.traps.cxpn → j ∈ s.traps.frames) ∧ 2 * 1 ∉ s.traps.deferred ∧ s.traps.cxpn ≤ s.traps.frames.length ∧ s.traps.deferred = []) ∧
    (let s := preempting [0, 1] .saving
     (s.group 1).room = 1 ∧ (s.group 1).st = .saving ∧ s.roomDrained 1 = true ∧ (s.launch (s.group 1).launch).st ≠ .ending ∧ (s.group 1).frame = some 1 ∧ (s.group 1).layout = [] ∧
       s.homeOpen (s.traps.cxpbase + 0x400000) frameBytes true = true ∧
       ({ s with coh := { s.coh with lines := [((s.traps.cxpbase + 0x400000) / 128, someHolder)] } } : State).homeOpen (s.traps.cxpbase + 0x400000) frameBytes true = false ∧
       (s.group 1).span = false ∧ memWf s.dram = true ∧ (s.roomKeys (s.group 1).room).Nodup ∧ (∀ k ∈ s.roomKeys (s.group 1).room, (s.rill k).copies = []) ∧
       (s.room 1).units.length ≤ 2 ∧
       ({ s with launches := [(3, { st := .ending, queue := 5 })] } : State).roomDrained 1 = true ∧
       (s.modRill base.cur.rill (fun r => { r with accs := [stAccess], nst := 1 })).roomDrained 1 = false) ∧
    (let s := gateState 0 false .retired
     3 < 4 ∧ s.gbusy.get 0 0 = 0 ∧ (s.die 7).st = .active ∧ (s.die 7).gated = false ∧ s.dieCards 7 = [] ∧ s.dieGroups 7 = [] ∧ (s.die 9).st ≠ .active) ∧
    (let s := gateState 0 false .running
     s.dieGroups 7 = [1] ∧ (s.group 1).onCore = true ∧ (s.group 1).frame = none ∧ (∀ k ∈ s.roomKeys (s.group 1).room, (s.rill k).undo = []) ∧ 1 < s.traps.cxpn ∧ 1 ∉ s.traps.frames ∧ (∀ j, j < 1 → j ∈ s.traps.frames)) ∧
    (let s := gateState 1 false .saved
     s.gbusy.get 0 0 = 1 ∧ (∀ g ∈ s.dieGroups 7, (s.group g).st ≠ .placed ∧ (s.group g).st ≠ .running ∧ (s.group g).st ≠ .saving) ∧ s.dieCards 7 = [] ∧
       s.dieOrphans 7 = false ∧ (∀ c ∈ (List.range 24).map (fun i => 24 * 7 + i), s.agentIdle c = true) ∧ s.greq.get false 0 = true) ∧
    (let s := gateState 2 true .retired
     s.gbusy.get 0 0 = 2 ∧ s.greq.get false 0 = false ∧ (s.die 7).gated = true) ∧
    ((gateState 0 true .retired).die 7).gated = true ∧
    (let s := withAccess (base.modDie 6 (fun d => { d with hreq := true })) ldAccess
     (base.die 6).st = .active ∧ (base.die 6).halted = false ∧ (base.die 6).hreq = false ∧ (s.die 6).hreq = true ∧
       (∀ p ∈ (base.modDie 6 (fun d => { d with hreq := true })).rills, p.2.accs = [] ∧ p.2.waits = []) ∧ base.fab.reqs = [] ∧
       (∃ r ∈ (waitingFor (remAccess .ld) (remReq .load) 0).fab.reqs, r.rill ≠ noRill ∧ coreDie ((waitingFor (remAccess .ld) (remReq .load) 0).coreOf r.rill) = 6) ∧
       (∃ p ∈ (modMe base (fun r => { r with waits := [{ ins := .nop, held := some {} }] })).rills, p.1 < 0x10000 ∧ keyDie p.1 = 6 ∧ ∃ w ∈ p.2.waits, w.held ≠ none) ∧
       (∃ p ∈ s.rills, p.1 < 0x10000 ∧ keyDie p.1 = 6 ∧ ∃ a ∈ p.2.accs, ∃ q ∈ a.reqs, q.done = false ∧ q.tgt ≠ 5) ∧
       ((base.modDie 6 (fun d => { d with halted := true })).die 6).halted = true) := by
  refine ⟨by decide, by decide +kernel, by decide +kernel, by decide, by decide, by decide +kernel, by decide +kernel, by decide +kernel, by decide +kernel, by decide, by decide, by decide⟩

/-! Dies, links, boot, power, saves. -/

/-- Die 6 in a state at a boot step, the FED and the IOD in a state, and die 7 OFF. -/
def dieState (st : DieState) (step : Nat) : State :=
  let s := (State.reset.modDie 6 (fun d => { d with st := st })).modDie 1 (fun d => { d with st := .keyed })
  { s with boot := { s.boot with step := step } }

/-- Link 9 joins die 2 and die 6: its directions with the keys and rollover given, both ends in session. -/
def linkState (x : LinkDir) : State :=
  let s := (State.reset.modDie 2 (fun d => { d with st := .active })).modDie 6 (fun d => { d with st := .active })
  { s with links := [(18, x), (19, { senderKey := true, receiverKey := true })] }
def opened (roll fails : Nat) : LinkDir := { senderKey := true, receiverKey := true, roll := roll, fails := List.replicate fails 0 }

/-- A rill of die 6 has a load under way, which the watchdog of link 9 has seen wait. -/
def watched (asked : Option (Nat × Nat × Nat)) (now : Nat) : State :=
  let s := (withAccess memBase ldAccess).modDie 2 (fun d => { d with st := .active, ltime := BitVec.ofNat 64 now })
  { s with links := [(18, { (opened 0 0) with asked := asked }), (19, opened 0 0)] }

def peering : State :=
  let s := ((State.reset.modDie 0 (fun d => { d with st := .active })).modDie 1 (fun d => { d with st := .active })).setPeer 5 { live := 3 }
  { s with fab := { s.fab with en := true } }

/-- Die 6 in its attestation, `n` exchanges into the attempt that began at 0, at local time `t` of the FED. -/
def attesting (n t : Nat) : State :=
  let s := (dieState .quarantine 11).modDie 6 (fun d => { d with exch := n, tryAt := 0 })
  s.modDie 0 (fun d => { d with ltime := BitVec.ofNat 64 t })
/-- Every link of die 6 has its keys, or its first one wants the sender's. -/
def allKeyed (st : DieState) (first : Bool) : State :=
  let s := dieState st 11
  { s with links := (dieLinks 6).zipIdx.flatMap (fun p =>
      [(2 * p.1, { senderKey := first || p.2 != 0, receiverKey := true }), (2 * p.1 + 1, { senderKey := true, receiverKey := true })]) }

/-- A die that may attest and one that may not; each exchange of an attempt, in time and late, with a right answer, a failure and one that the
exchange cannot show; each phase of a rollover; the last link and the first number past it, the last path and past it; a draining die at its
limit and before it, drained and not; fifteen failures and sixteen. -/
theorem witness_DiesAttestResetAndKeyTheirLinks :
    ((dieState .quarantine 11).mayAttest 6 = true ∧ (dieState .quarantine 2).mayAttest 6 = false ∧ 10 < (dieState .quarantine 11).boot.step) ∧
    ((attesting 3 199999999).mayAttest 6 = true ∧ 0 + 200000000 ≤ (attesting 3 200000000).now 0 ∧ (attesting 3 199999999).now 0 < 0 + 200000000 ∧
      5 ∈ attestCodes 5 ∧ 7 ∉ attestCodes 5 ∧ 0 + 1 ≤ 6 ∧ (attesting 3 0).measureCode 6 = 0 ∧
      ({ attesting 3 0 with boot := { (attesting 3 0).boot with revoked := [((attesting 3 0).die 6).dieid] } } : State).measureCode 6 ≠ 0) ∧
    (let sess := fun (s : State) (e : Nat) => (s.die e).st = .keyed ∨ (s.die e).st = .active
     18 < 34 ∧ 33 < 34 ∧ 161 < 162 ∧ linkEnds 9 = (2, 6) ∧ sess (linkState {}) 2 ∧ sess (linkState {}) 6 ∧ ¬sess (linkState {}) 7 ∧
       ¬(((linkState {}).link 18).senderKey = true ∧ ((linkState {}).link 18).receiverKey = true) ∧
       [0, 1, 2, 3].all (fun n => ((linkState (opened n 0)).link 18).open && ((linkState (opened n 0)).link 18).roll == n) = true) ∧
    ((peering.setPeer 5 { sess := true }).peer (44 / 2 - 17)).sess = true ∧
    (((linkState {}).die 6).st = .active ∧ ((linkState {}).die 7).st ≠ .active) ∧
    (((allKeyed .keyed true).die 6).st = .keyed ∧
      (∀ i ∈ dieLinks 6, (((allKeyed .keyed true).link (2 * i)).senderKey = true ∧ ((allKeyed .keyed true).link (2 * i)).receiverKey = true) ∧
        ((allKeyed .keyed true).link (2 * i + 1)).senderKey = true ∧ ((allKeyed .keyed true).link (2 * i + 1)).receiverKey = true) ∧
      (∃ i ∈ dieLinks 6, ((allKeyed .keyed false).link (2 * i)).senderKey = false) ∧
      (linkEnds 9).1 = 2 ∧ isCompute (farEnd 9 2) = true ∧ (State.reset.die (farEnd 9 2)).st = .off ∧
      ((State.reset.modDie 6 (fun d => { d with st := .quarantine, held := true })).die (farEnd 9 2)).held = true) ∧
    ((State.reset.die 1).st = .off ∧ (peering.die 1).st ≠ .off) ∧
    (5 < 64 ∧ 5 ≠ peering.fab.devno ∧ peering.fab.en = true ∧ (peering.nextHop 5 3).isSome = true ∧ (peering.die 0).st = .active ∧
      (peering.die 1).st = .active) ∧
    (let s := (dieState .quarantine 11).modDie 6 (fun d => { d with held := true })
     (s.die 6).st = .quarantine ∧ (s.die 6).held = true) ∧
    (let s := (dieState .draining 11).modDie 6 (fun d => { d with ltime := 100000 })
     (s.die 6).st = .draining ∧ s.dieDrained 6 = true ∧ (s.die 6).since.toNat + 100000 ≤ (s.die 6).ltime.toNat ∧
       ((dieState .draining 11).die 6).ltime.toNat < ((dieState .draining 11).die 6).since.toNat + 100000 ∧
       ({ (withAccess memBase ldAccess) with dies := s.dies } : State).dieDrained 6 = false) ∧
    (((dieState .resetting 11).die 6).st = .resetting ∧ ((dieState .fuseCheck 11).die 6).st = .fuseCheck) ∧
    (let s := linkState (opened 0 15)
     (s.link 18).open = true ∧ s.linkOpen 9 = true ∧ ((s.link 18).fails.filter (fun t => decide (0 < t + 1000000))).length = 15 ∧
       linkVictim 9 = 6 ∧ (s.die 6).st = .active ∧ ((linkState (opened 0 14)).link 18).fails.length = 14 ∧ 1 ≤ 4 ∧ 4 < 5) ∧
    (let s := watched none 0
     s.linkOpen 9 = true ∧ s.linkWaits 9 = [(base.cur.rill, 1024 * 3)] ∧ (s.link 18).asked = none ∧ ((s.die 2).halted || (s.die 6).halted) = false ∧
       (watched (some (base.cur.rill, 1024 * 3, 0)) 9999999).now 2 < 0 + 10000000 ∧ 0 + 10000000 ≤ (watched (some (base.cur.rill, 1024 * 3, 0)) 10000000).now 2 ∧
       ((watched (some (base.cur.rill, 1024 * 3, 0)) 0).link 18).asked = some (base.cur.rill, 1024 * 3, 0) ∧
       ((s.modDie 6 (fun d => { d with halted := true })).die 6).halted = true ∧ (s.die (linkVictim 9)).st = .active) ∧
    (markerOk (memWrite [] regionBase (sealed 1 0)) = true ∧ markerOk [] = false) ∧
    (let s := { (placing {}) with boot := { State.reset.boot with step := 11 } }
     3 ∈ s.running ∧ (s.launch 3).st = .running ∧ ((s.launch 3).ranges.get ({} : Range) 6).retired < ((s.launch 3).ranges.get ({} : Range) 6).count) ∧
    (let s := fed.setCp 3 { busy := true }
     (s.cp 3).busy = true ∧ (s.queue (s.cp 3).queue).halt = false) := by
  refine ⟨by decide, by decide, by decide, by decide, by decide, by decide, by decide, by decide, by decide, by decide +kernel, by decide, by decide, by decide,
    by decide +kernel, by decide, by decide⟩

/-- The FED ACTIVE at 1 ms of its local time, with the power registers given. -/
def powered (p : Power) : State := { (base.modDie 0 (fun d => { d with st := .active, ltime := 1000000 })) with power := p }
def drooping (inj : List Nat) (stretched : Option Nat) (busy : Bool) : State := (powered {}).modDom 0 (fun d => { d with inj := inj, stretched := stretched, busy := busy })

/-- The pin at both levels; GO and a register write alone; a clock that is busy and not; a window with 63 injections and with 64; a peer
with a session; due times reached and not; temperatures at each threshold and below it; a dwell over and not. -/
theorem witness_PowerCommandsAndSamples : ((powered {}).die 0).st = .active ∧
    ((powered {}).power.pin = false ∧ (powered { pin := true }).power.pin = true) ∧
    ((0x80000AF0).testBit 31 = true ∧ 0x80000AF0 % 2 ^ 12 = 2800 ∧ (0xAF0).testBit 31 = false ∧ 900 ≤ 2800) ∧
    (7 < 8 ∧ 5 < 6 ∧ 6 ≤ 6 ∧ ((powered {}).dom 7).busy = false ∧ ((drooping [] none true).dom 0).busy = true) ∧
    (let s := drooping (List.replicate 64 0) (some 0) false
     s.domCores 0 ≠ [] ∧ s.domClock 0 = 0 ∧ 64 ≤ (((s.dom 0).inj).filter (fun t => decide (s.domClock 0 < t + 1024))).length ∧ s.domClock 0 < 0 + 1024 ∧
       (((drooping (List.replicate 63 0) none false).dom 0).inj.filter (fun t => decide (0 < t + 1024))).length < 64 ∧
       ((drooping (List.replicate 64 0) none false).dom 0).stretched = none) ∧
    ((peering.setPeer 5 { sess := true }).peer 5).sess = true ∧ (peering.peer 5).sess = false ∧
    ((powered {}).power.chargeDue ≤ (powered {}).now 0 ∧ (powered { chargeDue := 1000001 }).now 0 < (powered { chargeDue := 1000001 }).power.chargeDue) ∧
    ((powered {}).power.thermDue ≤ (powered {}).now 0 ∧ (powered { thermDue := 1000001 }).now 0 < (powered { thermDue := 1000001 }).power.thermDue ∧
      (powered { tstate := 2 }).power.tstate < 3) ∧
    ((880 : Int) ≤ 880 ∧ ¬(880 : Int) ≤ 879 ∧ (816 : Int) - 8 * 3 = 792 ∧ (760 : Int) - 8 * 3 = 736) ∧
    ((∀ t ∈ (powered { changes := [750000, 0] }).power.changes, t + 250000 ≤ 1000000) ∧
      ([750000, 0].filter (fun t => decide (1000000 < t + 1000000))).length < 2) := by
  refine ⟨by decide, by decide, by decide, by decide, by decide +kernel, by decide, by decide, by decide, by decide, by decide, by decide⟩

def weir (p : Power) (step : Nat) : State := let s := powered p; { s with boot := { s.boot with step := step } }

/-- A period that is due and one that is not, in boot and after it; a step within 2% of its cap for the fifth period. -/
theorem witness_WeirPeriodFollowsItsRule :
    (let s := weir { weirDue := 1000000 } 11
     s.save.saved = false ∧ 10 < s.boot.step ∧ (s.die 0).st = .active ∧ s.power.weirDue ≤ s.now 0 ∧ s.power.pinDue = [] ∧ s.power.stepDue = none ∧
       s.power.capDue = [] ∧ s.power.grampDue = [] ∧ s.power.tstate < 2 ∧ s.power.booston = false ∧ s.power.boosten = false ∧
       (∀ r ∈ s.rills, r.2.intent = none) ∧ s.power.stage = 0 ∧ s.save.active = false) ∧
    (weir {} 10).boot.step ≤ 10 ∧ (State.ballastShort (weir { weirDue := 1000000 } 11) 0 = false ∧ (weir { weirDue := 1000000 } 11).ballastKinds = 0) ∧ ((weir { weirDue := 1000001 } 11).now 0 < (weir { weirDue := 1000001 } 11).power.weirDue) ∧
    (((weir {} 11).modDie 0 (fun d => { d with st := .off })).die 0).st ≠ .active ∧
    (let p : Power := { stepact := true, inBand := 4, rate := 2744000, pdraw := 2744000 }
     p.stepact = true ∧ 4 ≤ p.inBand ∧ 50 * ((2744000 - 2800000) + (2800000 - 2744000)) ≤ 2800000) := by decide

def saving (v : Save) (drained : Bool) : State :=
  let s := preempting [0, 1] .saving
  let s := if drained then s else s.modRill base.cur.rill (fun r => { r with accs := [stAccess] })
  { s with boot := { s.boot with step := 11 }, save := { v with active := true } }

/-- The marker stands, the FED runs, and the black box and control state are to be written at the port. -/
def porting (v : Save) : State :=
  let s := (saving { v with items := [(.blackBox, 0), (.control, 1)], region := [.blackBox, .control], marker := true } true).modDie 0 (fun d => { d with st := .active })
  { s with boot := { s.boot with saveport := true } }

/-- A save before its start and in hand; each kind of item, a group that has drained and one that has not, the end of the items and charge
that is short; an item for the port, one that is written and not flushed, and all flushed; an image that was found. -/
theorem witness_SavesKeepTheirOrder :
    ((weir {} 11).boot.step ≠ 0 ∧ (weir {} 11).save.saved = false ∧ (weir {} 11).save.active = false ∧ memWf (weir {} 11).dram = true ∧
      ({ base with boot := { base.boot with step := 0 } } : State).boot.step = 0) ∧
    (let s := { (preempting [0] .running) with boot := { State.reset.boot with step := 11 } }
     base.cur.rill ∈ s.roomKeys 1 ∧ 1 ∈ s.saveRooms ∧ (s.rills.map (·.1)).Nodup ∧ (s.rill base.cur.rill).agent = false) ∧
    ([(SaveItem.blackBox, 0), (.control, 1), (.rill 1 0, 9)].all (fun it =>
      let v : Save := { items := [it, (.control, 1)], active := true }
      v.items[v.region.length]? == some it && v.items[({ v with region := [.blackBox, .control] } : Save).region.length]? == none && !v.marker && !v.pfail) = true) ∧
    (let s := saving { items := [(.group 1, 5), (.rill 1 0, 9)] } true
     s.save.active = true ∧ s.save.items[s.save.region.length]? = some (.group 1, 5) ∧ (s.group 1).room = 1 ∧ (s.group 1).st = .saving ∧ (s.group 1).span = false ∧
       (∀ k ∈ s.roomKeys 1, s.saveDrained k = true)) ∧
    (let s := saving { items := [(.group 1, 5), (.rill 1 0, 9)] } false
     s.roomSaved 1 = false ∧ (∃ k ∈ s.roomKeys 1, s.saveDrained k = false)) ∧
    ((porting {}).save.marker = true ∧ (porting {}).portOpen = true ∧ (saving {} true).portOpen = false ∧
      (porting {}).save.portItems[(porting {}).save.wrote.length]? = some (.blackBox, 0) ∧ (porting {}).save.wrote.length ≤ (porting {}).save.flushed) ∧
    (let s := porting { wrote := [{}, { item := .control, first := 33 }], flushed := 1 }
     s.save.flushed < s.save.wrote.length ∧ s.save.portItems[s.save.wrote.length]? = none) ∧
    (let s := porting { wrote := [{}, { item := .control, first := 33 }], flushed := 2 }
     s.save.wrote.length ≤ s.save.flushed ∧ s.save.portItems[s.save.wrote.length]? = none) ∧
    (let s := { (powered { src := 1 }) with save := { found := 1, image := { running := [3], launches := [(3, { st := .running })] } } }
     s.power.src ≠ 0 ∧ (s.die 0).st = .active ∧ s.save.found = 1 ∧ s.save.lost s.dram = [] ∧
       (∀ l ∈ s.save.image.running, (s.save.image.launches.get ({} : Launch) l).st = .running ∧ (s.save.image.launches.get ({} : Launch) l).wrote = 0)) := by
  refine ⟨by decide, by decide +kernel, by decide, by decide +kernel, by decide +kernel, by decide, by decide, by decide, by decide⟩

/-! Coherence and the host. -/

def someLine : LineState := { hs := [⟨3, false, true, false, 0⟩, {}, {}, {}, ⟨61, true, true, false, 0⟩] }
/-- One message in flight about line 0x400, with what else the clauses ask for. -/
def flying (m : CohMsg) (lent : Nat := 0) : State :=
  { base with coh := { base.coh with msgs := [{ m with line := 0x400 }], lines := [(0x400, { someLine with lent := lent })] } }
def persistent (e : PersReq) : State :=
  let s := flying { kind := .pack, entry := 5 * homeCtl 0x400, act := true }
  { s with coh := { s.coh with pers := [(homeCtl 0x400, [e])], ptab := [(5 * homeCtl 0x400, some { line := 0x400, req := 0 })] } }
def requesting (fails : Nat) (since : Nat) : State :=
  let s := ((flying {}).modDie (bdDie 0) (fun d => { d with ltime := 1000 })).modDie 1 (fun d => { d with st := .off })
  { s with coh := { s.coh with trans := [{ line := 0x400, holder := 1, write := true, fails := fails, since := since }], resend := [{ relay := some 0 }] } }

/-- A slice with as many lines as it has room for, and a TOK for one more line, which is wanted there or not. -/
def brimLine : Nat := 256 * 61440
def brimful (wanted : Bool) : State :=
  { base with coh := { base.coh with
      msgs := [{ kind := .tok, line := brimLine, cnt := 1 }]
      lines := (brimLine, {}) :: (List.range 61440).map (fun j => (256 * j, { hs := [⟨1, false, true, false, 0⟩, {}, {}, {}, ⟨63, true, true, false, 0⟩] }))
      trans := if wanted then [{ line := brimLine }] else [] } }

theorem brimful_full (w : Bool) : ((brimful w).sliceLines 0).length = 61440 := by
  have h : ∀ j : Nat, sliceOf 0 (256 * j) = 0 := fun j => by
    unfold sliceOf
    rw [show 256 * j % 16 = 0 by omega, show 256 * j / 16 % 16 = 0 by omega]; rfl
  unfold State.sliceLines brimful
  rw [List.filter_cons_of_neg (by decide), List.filter_eq_self.2]
  · simp only [List.length_map, List.length_range]
  · intro p hp
    obtain ⟨j, -, rfl⟩ := List.mem_map.1 hp
    simp [h, LineState.holder]

theorem brimful_room (w : Bool) : (brimful w).sliceRoom 0 = 61440 := by
  unfold State.sliceRoom State.bsizeOf; rw [show (brimful w).bsize = [] from rfl]; decide

theorem brimful_line (w : Bool) : (brimful w).line brimLine = {} := by
  unfold State.line brimful; simp [Tbl.get]
theorem brimful_cnt (w : Bool) : ((brimful w).holder brimLine 0).cnt = 0 := by unfold State.holder; rw [brimful_line]; rfl
theorem brimful_hs (w : Bool) : 0 < ((brimful w).line brimLine).hs.length := by rw [brimful_line]; decide

theorem brimful_nodup (w : Bool) : ((brimful w).coh.lines.map (·.1)).Nodup := by
  have e : (brimful w).coh.lines.map (·.1) = brimLine :: (List.range 61440).map (256 * ·) := by
    unfold brimful; simp only [List.map_cons, List.map_map]; rfl
  rw [e, List.nodup_cons]
  refine ⟨fun h => ?_, List.Pairwise.map _ (fun a b (h : a ≠ b) e => h (by omega)) List.nodup_range⟩
  obtain ⟨j, hj, he⟩ := List.mem_map.1 h
  rw [List.mem_range] at hj
  unfold brimLine at he; omega

theorem persFor_none {s : State} (h : s.coh.ptab = []) (b line : Nat) : s.persFor b line = none := by
  unfold State.persFor; rw [h]; rfl

/-- A message of each kind, first and repeated, to a slice and to a home that has lent the line; an owner with one token and with more, a
holder without tokens; entries of 3 and of 7 acknowledgements; a request at its time-out and before, at its third failure. -/
theorem witness_CoherenceMessagesMoveTokens :
    ([CohKind.treqs, .treqx, .tok, .preq, .pact, .pack, .pdone, .pdeact].all (fun k =>
      (flying { kind := k }).coh.msgs[0]? == some { kind := k, line := 0x400 } && (base.coh.msgs[0]?).isNone) = true) ∧
    (let m : CohMsg := { kind := .tok, line := 0x400, relay := some 0, num := 7 }
     let s := flying m
     let t := { s with coh := { s.coh with numIn := [(4 * m.ends.1 + m.ends.2, [7])] } }
     7 ∉ s.coh.numIn.get [] (4 * m.ends.1 + m.ends.2) ∧ 7 ∈ t.coh.numIn.get [] (4 * m.ends.1 + m.ends.2) ∧
       (s.die 0).st ≠ .active ∧ ((s.modDie 0 (fun d => { d with st := .active })).die 0).st = .active) ∧
    (0 < ((flying {}).line 0x400).hs.length ∧ 4 < ((flying {}).line 0x400).hs.length ∧ (flying {} 1).line 0x400 ≠ (flying {}).line 0x400 ∧
      ((flying {} 1).line 0x400).lent ≠ 0 ∧ ((flying {}).line 0x400).lent = 0) ∧
    (∀ b, (flying {}).persFor b 0x400 = none) ∧ (persistent {}).persFor 0 0x400 ≠ none ∧
    (((flying {}).holder 0x400 4).own = true ∧ 2 ≤ ((flying {}).holder 0x400 4).cnt ∧ ((flying {}).holder 0x400 0).own = false ∧
      ((flying {}).holder 0x400 1).cnt = 0 ∧ ((flying {}).holder 0x400 0).cnt ≠ 0) ∧
    ({ someLine with hs := [{}, {}, {}, {}, ⟨1, true, true, false, 0⟩] }.hs.getD 4 {}).cnt < 2 ∧
    (let q : PersReq := { line := 0x400, entry := some (5 * homeCtl 0x400), acks := 3, closing := true }
     (persistent q).coh.pers.get [] (homeCtl 0x400) = [q] ∧ q.entry = some (5 * homeCtl 0x400) ∧ 3 + 1 < 8 ∧ ({ q with acks := 7 } : PersReq).acks = 7 ∧
       ({ q with acks := 0 } : PersReq).acks ≠ 3) ∧
    (homeBd 0x400 ≠ 0 ∧ 59 < 60 ∧ (flying { kind := .pact }).coh.pers.get [] (homeCtl 0x400) = []) ∧
    (let r : TransReq := { line := 0x400, holder := 1, write := true, fails := 1, since := 0 }
     (requesting 1 0).coh.trans.find? (fun y => y.line == 0x400 && y.holder == 1) = some r ∧
       r.since + 1000 ≤ (requesting 1 0).now (bdDie 0) ∧ (requesting 1 0).satisfied r = false ∧ (requesting 1 0).now (bdDie 0) < 1 + 1000 ∧ 1 < 2 ∧
       (requesting 2 0).coh.trans.map (·.fails) = [2]) ∧
    (let r : TransReq := { line := 0x400, holder := 0, pers := true }
     let s := { persistent {} with coh := { (persistent {}).coh with trans := [r] } }
     s.coh.trans.find? (fun y => y.line == 0x400 && y.holder == 0) = some r ∧ (s.persFor (holderBd 0x400 0) 0x400).map (fun q => (q.req, q.closing)) = some (0, false) ∧
       s.satisfied r = true ∧ r.pers = true ∧ s.satisfied { r with write := true } = false) ∧
    (∃ q ∈ ({ base with coh := { base.coh with trans := [{ line := 0x400, pers := true }] } } : State).coh.trans,
      q.line = 0x400 ∧ q.holder = 0 ∧ q.pers = true ∧ q.served = false) ∧
    ((requesting 0 0).coh.resend[0]? = some { relay := some 0 } ∧ (requesting 0 0).coh.resend[1]? = none ∧ ((requesting 0 0).die 1).st ≠ .active ∧
      (((requesting 0 0).modDie 1 (fun d => { d with st := .active })).die 1).st = .active) ∧
    (∀ w, (brimful w).coh.msgs[0]? = some { kind := .tok, line := brimLine, cnt := 1 } ∧ ((brimful w).holder brimLine 0).cnt = 0 ∧
      0 < ((brimful w).line brimLine).hs.length ∧ (brimful w).persFor 0 brimLine = none ∧ 0 < (brimful w).sliceRoom (sliceOf 0 brimLine) ∧
      ¬((brimful w).sliceLines (sliceOf 0 brimLine)).length < (brimful w).sliceRoom (sliceOf 0 brimLine) ∧ ((brimful w).coh.lines.map (·.1)).Nodup) ∧
    ((∃ q ∈ (brimful true).coh.trans, q.line = brimLine ∧ q.holder = 0) ∧ (brimful false).coh.trans = []) := by
  refine ⟨by decide, by decide, by decide, fun b => persFor_none rfl b _, by decide, by decide, by decide, by decide, by decide, by decide, by decide,
    by decide, by decide, fun w => ⟨rfl, brimful_cnt w, brimful_hs w, rfl, ?_, ?_, brimful_nodup w⟩, ?_⟩
  · rw [show sliceOf 0 brimLine = 0 by decide, brimful_room w]; decide
  · rw [show sliceOf 0 brimLine = 0 by decide, brimful_room w, brimful_full w]; decide
  · exact ⟨⟨_, List.mem_singleton.2 rfl, rfl, rfl⟩, rfl⟩

/-- The host's link up; line 0x400 with tokens at the slice its home names, at home, and elsewhere; lent, with a snoop out and without. -/
def hosted (l : LineState) (snoops absorb : List Nat) : State :=
  let s := (mapped base).modDie 1 (fun d => { d with st := .active })
  { s with boot := { s.boot with ide := true, rate := 6, width := 16 }, coh := { s.coh with lines := [(0x400, l)], snoops := snoops, absorb := absorb } }

theorem witness_HostAccessesWalksAndRegisters :
    (memWf (hosted {} [] []).dram = true ∧ memWf (hosted {} [] []).basin = true) ∧
    (((hosted {} [] []).die 1).st = .active ∧ (hosted {} [] []).boot.ide = true ∧ (hosted {} [] []).boot.rate ≠ 0 ∧ (hosted {} [] []).boot.width ≠ 0 ∧ base.boot.ide = false ∧ 0x2007F < 0xC000000000 ∧
      0x2007F % 128 + 1 ≤ 128 ∧ ((hosted {} [] []).line 0x400).lent = 0 ∧ ((hosted {} [] []).line 0x400).hs.length = 5) ∧
    ((hosted {} [] []).canRead 0x400 (homeBd 0x400) = false ∧ (hosted {} [] []).canWrite 0x400 4 = true ∧ (hosted someLine [] []).canWrite 0x400 4 = false ∧
      (let s := hosted { hs := [{}, {}, ⟨64, true, true, false, 0⟩, {}, {}] } [] []
       s.canRead 0x400 (homeBd 0x400) = true ∧ s.canWrite 0x400 (homeBd 0x400) = true)) ∧
    (let s := hosted { lent := 2 } [0x400] []
     (s.line 0x400).lent ≠ 0 ∧ 0x400 ∈ s.coh.snoops ∧ 0x400 ∉ (hosted { lent := 1 } [] []).coh.snoops ∧ 0x400 ∉ s.coh.absorb ∧
       0x400 ∈ (hosted {} [] [0x400]).coh.absorb ∧ s.coh.asked = [] ∧ (List.replicate 128 (0 : Byte)).length = 128) ∧
    (∀ b, (hosted {} [] []).persFor b 0x400 = none) ∧
    (okay ((mapped base).walk 0 0x20000) = true ∧
      (match ((mapped base).walk 0 0x40000000).1 with
        | .error e => e == 0
        | _ => false) = true) ∧
    (2 ^ 57 ≤ 2 ^ 57 ∧ 2 ^ 57 - 1 < 2 ^ 57 ∧ (State.reset.die 1).st = .off ∧ (base.die 1).st = .active ∧ (base.roots.get (0, false) 1).2 = false) ∧
    (63 < 64 ∧ 4 < 5 ∧ base.bnext.get none 63 = none ∧ 4 ≠ base.bsizeOf 63 ∧ base.bsizeOf 0 = 1 ∧
      ({ base with bnext := [(3, some 2)] } : State).bnext.get none 3 = some 2) ∧
    (0x14FFFC < 0x150000 ∧ 0x100FC8 % 0x40 = 8 ∧ 0x100FC8 < 0x101000 ∧ 0x15FFF0 < 0x160000 ∧ 0x15FFF0 % 16 = 0 ∧ 0x120044 % 8 ≠ 0 ∧
      (fed.die 0).st = .active ∧ (base.die 0).st ≠ .active ∧ base.traps.rhead = base.traps.rtail ∧
      ({ base with traps := { base.traps with rhead := 1 } } : State).traps.rhead ≠ base.traps.rtail) := by
  refine ⟨by decide, by decide, by decide, by decide +kernel, fun b => persFor_none rfl b _, by decide, by decide, by decide, by decide⟩

/-! Fabric and recorder. -/

/-- A set of two paths to device 5 with a flit in its pool, at 10 ms of the IOD's local time. -/
def pathed (x : Peer) : State :=
  let s := (base.modDie 1 (fun d => { d with ltime := 10000000 })).setPeer 5 { x with sess := true }
  { s with fab := { s.fab with en := true } }

/-- A data flit of 72 bytes with its number and device, and its CRC. -/
def flit (word : Nat) : List Byte := let body := toBytes 4 word ++ List.replicate 64 0; body ++ toBytes 4 (crc32 body)

theorem witness_PathsAndFlitsFollowTheirRules :
    (memWf base.hostMem = true ∧ base.fab.ferlog2 ≤ 12 ∧ 3 < 4 ∧ 4 ≤ 4) ∧
    (bitOf 3 base.fab.elmlos = false ∧ bitOf 3 ({ base.fab with elmlos := 8 } : Fab).elmlos = true) ∧
    (let s := pathed { live := 3, trained := [(15, 0), (2, 1)] }
     let p := s.peer 5
     p.trained.find 15 = some 0 ∧ 15 < 16 ∧ s.fab.en = true ∧ bitOf (15 % 8 / 2) s.fab.elmen = true ∧ bitOf (15 % 8 / 2) s.fab.elmlos = false ∧
       bitOf 15 p.live = false ∧ 0 + 10000000 ≤ s.now 1 ∧ s.now 1 < 1 + 10000000 ∧ p.trained.find 3 = none) ∧
    (base.fab.en = false ∧ bitOf 1 3 = true) ∧
    (let w := 7
     (flit w).length = 72 ∧ ofBytes ((flit w).drop 68) = crc32 ((flit w).take 68) ∧ ofBytes ((flit w).take 4) = 7 ∧
       ofBytes ((List.replicate 72 (1 : Byte)).drop 68) ≠ crc32 ((List.replicate 72 (1 : Byte)).take 68)) ∧
    (let p := (pathed { live := 3, want := 7, stash := [(9, [])] }).peer 5
     7 = p.want ∧ p.stash.find p.want = none ∧ p.stash.find 8 = none ∧ p.stash.find 9 ≠ none ∧
       (0 < (p.want + 65536 - 6) % 65536 ∧ (p.want + 65536 - 6) % 65536 < 32768) ∧ ¬(0 < (p.want + 65536 - 7) % 65536)) ∧
    (([] : List Nat).length + 1 < 8 ∧ 8 ≤ (10000000 :: (List.replicate 7 9999999).filter (fun a => decide (10000000 < a + 1000000))).length) ∧
    ((pathed {}).fab.peers.all (fun p => p.2.pool.isEmpty) = true ∧ (pathed {}).fab.packets = [] ∧ (pathed {}).fab.reqs = [] ∧ (pathed {}).fab.outs = []) ∧
    (5 < 64 ∧ (5 + 64 - base.fab.devno % 64) % 64 ≠ 0 ∧ (0 + 64 - base.fab.devno % 64) % 64 = 0) ∧
    -- a packet of one flit for this device and for device 9, the first flit of a longer one, and flits that are not taken
    (let s := (pathed { live := 3, want := 7 }).setPeer 9 { live := 3, sess := true }
     let p := s.peer 5
     let mine := flit (2 ^ 25 + 2 ^ 24 + 7)
     let other := flit (2 ^ 25 + 2 ^ 24 + 9 * 2 ^ 18 + 7)
     let first := flit (2 ^ 25 + 7)
     [mine, other, first].all (fun f => flitType f == 0 && decide (flitVc f < 5) && flitSsn f == 7) = true ∧ p.sess = true ∧ p.bad = [] ∧ p.inbox = [] ∧
       [mine, other].all (fun f => flitSop f && flitEop f) = true ∧ flitSop first = true ∧ flitEop first = false ∧ flitDst mine = s.fab.devno ∧
       flitDst other = 9 ∧ 9 ≠ 5 ∧ (s.peer 9).carries 0 = true ∧ s.poolRoom 9 0 1 0 true = true ∧ ((s.setPeer 9 {}).peer 9).carries 0 = false ∧
       bitOf 0 (s.peer 9).live = true ∧ s.power.pathsIdle = false ∧ flitType (flit (2 ^ 30)) ≠ 0 ∧ ¬flitVc (flit (5 * 2 ^ 27)) < 5) ∧
    -- the replay of a packet of one flit, and of one of two flits
    (let p := (pathed { live := 3, want := 9, bad := [{ ssns := [7] }] }).peer 5
     let q := (pathed { live := 3, want := 9, bad := [{ ssns := [7, 8] }] }).peer 5
     p.bad = [{ ssns := [7] }] ∧ q.bad = [{ ssns := [7, 8] }] ∧ 7 ∈ [7, 8] ∧ ∃ m ∈ [7, 8], m ≠ 7) ∧
    ((pathed {}).fab.annDue = false ∧ ({ (pathed {}).fab with annDue := true } : Fab).annDue = true) ∧
    ((pathed {}).fab.lastAnn + 100000 ≤ (pathed {}).now 1 ∧ base.now 1 < base.fab.lastAnn + 100000) ∧
    (let s := (pathed {}).modDie 6 (fun d => { d with halted := true })
     let s := { s with fab := { s.fab with wins := [(winKey 0 5 0, { held := [{}] })] } }
     (∃ d, d < 14 ∧ (s.die d).halted = true) ∧ (s.peer 5).sess = true ∧ (∃ x ∈ s.fab.wins, x.1 % 128 / 2 = 5 ∧ x.2.held ≠ []) ∧ (s.peer 5).lastHold + 10000 ≤ s.now 1) := by
  refine ⟨by decide, by decide, by decide, by decide, by decide +kernel, by decide, by decide, by decide, by decide, by decide +kernel, by decide, by decide, by decide, ⟨6, by decide⟩, by decide,
    by decide, by decide⟩

/-- The recorder at its first entry, after a clear, with a read over MCTP, and before it has found its place; the first line of the ring at its
home, and not. -/
theorem witness_TheRecorderWritesItsRing :
    (let s := { fed with box := { ready := true, queue := [{ kind := 0x0C, die := 15, core := 31, part := 7, slot := 15, code := 255 }] } }
     memWf s.dram = true ∧ (s.die 0).st = .active ∧ s.box.queue ≠ [] ∧ s.box.freeze = false ∧ s.box.clearing = false ∧ s.box.asked = none ∧
       s.box.ready = true ∧ s.homeOpen 0xBFE4001000 32 true = true ∧ s.homeOpen 0xBFE4001000 32 false = true ∧ s.homeOpen 0xBFE4001000 0x20000 true = true ∧
       (let t := { s with coh := { s.coh with lines := [(0xBFE4001000 / 128, someHolder)] } }
        t.homeOpen 0xBFE4001000 32 true = false ∧ t.homeOpen 0xBFE4001000 32 false = false ∧ t.homeOpen 0xBFE4001000 0x20000 true = false) ∧
       s.box.queue.all (fun e => decide (e.code < 256) && decide (e.slot < 16) && decide (e.part < 8) && decide (e.core < 32) && decide (e.die < 16) && decide (e.kind < 256)) = true) ∧
    ({ base with box := { base.box with freeze := true } } : State).box.freeze = true ∧ ({ base.box with clearing := true } : BlackBox).clearing = true ∧
    ({ base.box with asked := some 7 } : BlackBox).asked = some 7 ∧ base.box.ready = false ∧ base.box.queue = [] ∧ (base.die 0).st ≠ .active := by decide +kernel

/-! The step, and what steps keep. -/

/-- After reset with a word placed: its rill is granted its issue, with the cohort of all its lanes; an event that is due; words that decode to
nothing and to an ill-formed instruction; the checks of a privileged and of a dear one. -/
def placed (w : Nat) : State := State.reset.withFetchWord 32 w

/-- The rill whose candidate cost more than CCAP when it was chosen. -/
def dearRill : Nat := placeKey false

def fetched (w : Nat) : Bool :=
  let s := placed w
  match s.grants with
  | k :: rest =>
    let a := { s with grants := rest }
    (a.pick k).isSome && match (a.fetchWord k 0x10000).1 with
      | .ok x => x.toNat == w
      | .error _ => false
  | [] => false

theorem witness_StepRunsTheDecodedInstruction :
    ((placed 0x6E244640).agenda = [] ∧ [0x6E244640, 0, 0xFC010030, 0xF8004000].all fetched = true ∧ decode 0 = none ∧
      decode 0x6E244640 = some (.ffma 9 8 100 0 0 0) ∧ (Instr.ffma 9 8 100 0 0 0).wf false = true ∧ (Instr.iadd 96 0 0 0 0).wf false = false) ∧
    (({ base with agenda := [.nop] } : State).agenda = [.nop] ∧ (State.reset.agenda = [] ∧ State.reset.grants = [])) ∧
    (isPrivileged .halt = true ∧ isPrivileged (.iadd 0 0 0 0 0) = false ∧ isCp (placeKey false) = false ∧ isCp (cpKey 0) = true ∧
      inPrologue (.kadd 0 0 0 0) = true ∧ inPrologue (.iadd 0 0 0 0 0) = false ∧ (roleBit (.tzero 0 0 0)).isSome = true ∧
      ((base.curRill).inBounds (.iadd 95 0 0 0 0) = true)) ∧
    ((modMe base (fun r => { r with pend := some 0x12 })).curRill.pend = some 0x12) ∧
    (let s := placed 0x10000000
     let k := placeKey false
     let line := 0x10000 / 128
     (match s.translate (viaOf k) 0 0x10000 .fetch false with
        | (.ok p, _) => p.pa == 0x10000
        | _ => false) = true ∧ s.canRead line (sliceTower k line) = false ∧
       ({ s with coh := { s.coh with lines := [(line, { hs := [⟨64, true, true, false, 0⟩, {}, {}, {}, {}] })] } } : State).canRead line (sliceTower k line) = true ∧
       ((s.icacheFill (keyCore k) line).core (keyCore k)).icache.find line ≠ none) ∧
    (let g : Grant := { pc := BitVec.ofNat 64 placeAt, lanes := [0], ready := [0], word := 0x10000000 }
     let s := { (placed 0x10000000) with granted := [(placeKey false, g)] }
     s.granted.find (placeKey false) = some g ∧ s.runs (placeKey false) = true ∧ (s.modDie 6 (fun d => { d with halted := true })).runs (placeKey false) = false ∧
       (placed 0x10000000).granted.find (placeKey false) = none) ∧
    (dearRill ∈ ({ base with dear := [dearRill] } : State).dear ∧ dearRill ∉ base.dear) ∧
    ((withBlock (rcopyWords 0x20000)).notYet 0 none (.rcopy 8 0 1)).isNone = true ∧
    (({ withBlock (rcopyWords 0x20000) with coh := {} } : State).notYet 0 none (.rcopy 8 0 1)).isSome = true ∧
    ((withBlock (rcopyWords 0x20000)).memWait (.rcopy 8 0 1)).isNone = true := by decide +kernel

theorem canonical_of {s : State} (h : s.memoriesOk) (hi : s.save.image.rooms = []) (ho : s.save.older.rooms = []) : s.canonical :=
  ⟨h, fun r => by rw [hi, ho]; exact ⟨rfl, rfl⟩⟩

/-- A state with bytes in its memories, from which a step goes on. -/
theorem witness_EveryStepKeepsMemoriesCanonical :
    (placed 0x10000000).canonical ∧ (placed 0x10000000).dram ≠ [] ∧ goesOn (step (placed 0x10000000)) = true :=
  ⟨canonical_of (memoriesOk_of (by decide) (by decide) (by decide) (by decide)) rfl rfl, by decide, by decide +kernel⟩

theorem witness_InstructionsLeaveThePackageSettings : Instr.isWord .nop = true ∧ goesOn (exec .nop base) = true ∧
    Instr.isWord (.st32 9 10 0 0 0 0) = true ∧ goesOn (exec (.st32 9 10 0 0 0 0) base) = true := by decide +kernel

end Sys2Proof.Tests
end

section
/-! Uniform and control instructions (07): what each writes, and what it leaves alone. -/
namespace Sys2Proof.Machine

/-! ## The values of Table 7-3 (R169, R170) -/

theorem ofInt_ext24 (m : BitVec 1) (x : Word) : BitVec.ofInt 32 (ext24 m x) = (wide24 m x).truncate 32 := by
  unfold ext24 wide24
  split
  · show (x.truncate 24).signExtend 32 = _
    ext i hi
    have : i < 48 := by omega
    simp [BitVec.getElem_signExtend, this]
  · rw [BitVec.ofInt_natCast]
    apply BitVec.eq_of_toNat_eq
    simp

theorem ofInt_ext24_mul (m : BitVec 1) (x y : Word) :
    BitVec.ofInt 32 (ext24 m x * ext24 m y) = (wide24 m x * wide24 m y).truncate 32 := by
  rw [BitVec.ofInt_mul, ofInt_ext24, ofInt_ext24]
  exact (BitVec.setWidth_mul _ _ (by decide)).symm

theorem getLsbD_shl32 (x y : Word) {n : Nat} (hn : n < 32) :
    (shl32 x y).getLsbD n = (decide (y.toNat % 64 ≤ n) && x.getLsbD (n - y.toNat % 64)) := by
  rw [shl32, BitVec.getLsbD_shiftLeft, decide_eq_true hn, Bool.true_and, ← decide_not]
  simp only [Nat.not_lt]

theorem getLsbD_shr32 (x y : Word) (n : Nat) : (shr32 x y).getLsbD n = x.getLsbD (n + y.toNat % 64) := by
  rw [shr32, BitVec.getLsbD_ushiftRight, Nat.add_comm]

theorem getLsbD_sar32 (x y : Word) {n : Nat} (hn : n < 32) :
    (sar32 x y).getLsbD n = x.getLsbD (min (n + y.toNat % 64) 31) := by
  rw [sar32, BitVec.getLsbD_sshiftRight, Nat.add_comm n]
  by_cases h : y.toNat % 64 + n < 32
  · simp [h, hn, Nat.min_eq_left (Nat.le_of_lt_succ h)]
  · simp [h, hn, Nat.min_eq_right (by omega : 31 ≤ y.toNat % 64 + n), BitVec.msb_eq_getLsbD_last]

theorem leBy_eq_not_ltBy (m : BitVec 1) (x y : Word) : leBy m x y = !ltBy m y x := by
  unfold leBy ltBy
  split
  · rw [BitVec.slt_eq_decide, ← decide_not]; simp only [Int.not_lt]
  · rw [BitVec.ult_eq_decide, ← decide_not]; simp only [Nat.not_lt]

theorem leBy_of_ltBy {m : BitVec 1} {x y : Word} (h : ltBy m x y = true) : leBy m x y = true := by
  unfold ltBy at h
  unfold leBy
  split at h
  · rw [if_pos ‹_›]; exact decide_eq_true (Int.le_of_lt (BitVec.slt_iff_toInt_lt.1 h))
  · rw [if_neg ‹_›]; exact decide_eq_true (Nat.le_of_lt (BitVec.lt_def.1 (BitVec.ult_iff_lt.1 h)))

theorem leBy_refl (m : BitVec 1) (x : Word) : leBy m x x = true := by
  simp [leBy]

/-- The order is antisymmetric, so what is below and not equal is strictly below. -/
theorem ltBy_eq (m : BitVec 1) (x y : Word) : ltBy m x y = (leBy m x y && x != y) := by
  unfold ltBy leBy
  rw [Bool.eq_iff_iff]
  split
  · simp [BitVec.slt_iff_toInt_lt, Int.lt_iff_le_and_ne, BitVec.toInt_inj]
  · simp [BitVec.ult_iff_lt, BitVec.lt_def, Nat.lt_iff_le_and_ne, BitVec.toNat_inj]

theorem min_of_ltBy (m : BitVec 1) (x y : Word) : let w := if ltBy m y x then y else x
    (w = x ∨ w = y) ∧ leBy m w x = true ∧ leBy m w y = true := by
  dsimp only
  split
  · next h => exact ⟨.inr rfl, leBy_of_ltBy h, leBy_refl m y⟩
  · next h => exact ⟨.inl rfl, leBy_refl m x, by rw [leBy_eq_not_ltBy]; simpa using h⟩

theorem max_of_ltBy (m : BitVec 1) (x y : Word) : let w := if ltBy m x y then y else x
    (w = x ∨ w = y) ∧ leBy m x w = true ∧ leBy m y w = true := by
  dsimp only
  split
  · next h => exact ⟨.inr rfl, leBy_of_ltBy h, leBy_refl m y⟩
  · next h => exact ⟨.inl rfl, leBy_refl m x, by rw [leBy_eq_not_ltBy]; simpa using h⟩

theorem kcmpCond_eq_condHolds (c : BitVec 2) (m : BitVec 1) (x y : Word) : kcmpCond c m x y = condHolds c.toNat m x y := by
  unfold kcmpCond
  have hc : c.toNat = 0 ∨ c.toNat = 1 ∨ c.toNat = 2 ∨ c.toNat = 3 := by omega
  rcases hc with h | h | h | h <;> rw [h]
  · rfl
  · rfl
  · exact ltBy_eq m x y
  · exact (leBy_eq_not_ltBy m x y).symm

/-- KLIH's word: its 14 bits above the low 18 bits of the old value. -/
theorem append_truncate_eq_shift_or (h : BitVec 14) (z : Word) :
    h ++ z.truncate 18 = (h.zeroExtend 32 <<< 18) ||| (z &&& 0x3FFFF) := by
  have hmask : ∀ i (hi : i < 32), (0x3FFFF : Word)[i] = decide (i < 18) := by decide
  ext i hi
  rw [BitVec.getElem_append, BitVec.getElem_or, BitVec.getElem_and, hmask i hi]
  by_cases hlow : i < 18
  · simp [hlow, BitVec.getLsbD_eq_getElem hi]
  · simp [hlow, BitVec.getLsbD_eq_getElem (show i - 18 < 14 by omega)]

/-! ## Uniform instructions -/

/-- An instruction that is one write of uniform register `d` and an advance. -/
theorem completes_of_udst {s : State} (hc : s.cohortOk) {j : Instr} {d : BitVec 7} {w v : Word}
    (he : exec j s = .next (s.udst d.toNat 0 v).advance) (hv : v = w) :
    Completes s j (fun t => UniDone s t [s.curRill.kname d.toNat] (fun _ => w)) :=
  ⟨_, he, hv ▸ s.kop_done hc d v⟩

/-- A write of one rill. -/
theorem State.modRill_vreg {s : State} {k : Nat} {f : Rill → Rill} (h : (f (s.rill k)).v = (s.rill k).v) (j n l : Nat) :
    (s.modRill k f).vreg j n l = s.vreg j n l := by
  have hv : ((s.modRill k f).rill j).v = (s.rill j).v := by
    rw [State.rill_modRill]; split
    · next e => subst e; exact h
    · rfl
  unfold State.vreg
  rw [hv]; rfl

theorem State.mapThreads_vreg (s : State) (k : Nat) (ls : List Nat) (f : Nat → Thread → Thread) (j n l : Nat) :
    (s.mapThreads k ls f).vreg j n l = s.vreg j n l :=
  State.modRill_vreg (f := fun r => r.mapThreads ls f) (by rw [Rill.mapThreads_frame]) j n l

theorem State.advance_curRill (s : State) :
    s.advance.curRill = s.curRill.mapThreads s.cur.lanes (fun _ x => { x with pc := s.cur.pc + 4 }) :=
  State.curRill_setCur ..

theorem State.advance_thread {s : State} (hc : s.cohortOk) (l : Nat) : s.advance.curRill.thread l = s.moved l := by
  rw [State.advance_curRill, Rill.thread_mapThreads _ _ _ hc.1]; rfl

theorem State.advance_vreg (s : State) (j n l : Nat) : s.advance.vreg j n l = s.vreg j n l := s.mapThreads_vreg ..

theorem State.advance_frame (s : State) : s.advance.curRill = { s.curRill with th := s.advance.curRill.th } := by
  rw [State.advance_curRill]; exact Rill.mapThreads_frame ..

/-- VTOK of a lane of the rill. -/
theorem execVtok_completes {s : State} (hc : s.cohortOk) (d a b : BitVec 7) (hl : s.vtokLane b < s.curRill.width) :
    Completes s (.vtok d a b) (fun t =>
      t.curRill.vtoks = s.curRill.vtoks ++ [{ dst := s.curRill.kname d.toNat, val := s.src a.toNat 0 (s.vtokLane b) }] ∧
      (∀ n, t.curRill.kreg n = s.curRill.kreg n) ∧ (∀ j n l, t.vreg j n l = s.vreg j n l) ∧
      (∀ l, t.curRill.thread l = s.moved l) ∧ t.others = s.others) := by
  let p : VtokPend := { dst := s.curRill.kname d.toNat, val := s.src a.toNat 0 (s.vtokLane b) }
  let u := s.modRill s.cur.rill (fun r => { r with vtoks := r.vtoks ++ [p] })
  have he : exec (.vtok d a b) s = .next u.advance := if_pos hl
  have hu : u.curRill = { s.curRill with vtoks := s.curRill.vtoks ++ [p] } := State.curRill_setCur ..
  refine ⟨_, he, ?_, fun n => ?_, fun j n l => ?_, fun l => ?_, rfl⟩
  · rw [State.advance_frame, hu]
  · rw [State.advance_frame, hu]; rfl
  · rw [State.advance_vreg]; exact State.modRill_vreg rfl j n l
  · rw [State.advance_thread (s := u) hc]
    unfold State.moved
    rw [hu]; rfl

/-- VTOK_WRITE with the oldest pending value `p`. -/
theorem execVtokWrite_completes {s : State} {k : Nat} {p : VtokPend} {rest : List VtokPend} (h : (s.rill k).vtoks = p :: rest) :
    Completes s (.vtokWrite k) (fun t =>
      (t.rill k).vtoks = rest ∧ (∀ n, (t.rill k).kreg n = if n = p.dst then p.val else (s.rill k).kreg n) ∧
      (∀ j, j ≠ k → t.rill j = s.rill j) ∧ (∀ j n l, t.vreg j n l = s.vreg j n l) ∧ t.others = s.others) := by
  let u := s.modRill k (fun r => { r with vtoks := rest })
  have he : exec (.vtokWrite k) s = .next (u.kwrite k p.dst p.val) := by
    show execVtokWrite k s = _
    unfold execVtokWrite
    rw [h]
  have hu : u.rill k = { s.rill k with vtoks := rest } := State.rill_modRill_same ..
  obtain ⟨hothers, hrills, hself, -, hvreg⟩ := u.kwrite_spec k p.dst p.val
  refine ⟨_, he, ?_, fun n => ?_, fun j hj => ?_, fun j n l => ?_, hothers⟩
  · rw [hself, hu]
  · rw [hself, hu]
    show Tbl.get 0 (Tbl.set _ _ _) n = _
    rw [Tbl.get_set]
    simp only [eq_comm (a := p.dst)]
    rfl
  · rw [hrills j hj, State.rill_modRill, if_neg (Ne.symm hj)]
  · rw [hvreg]; exact State.modRill_vreg rfl j n l

/-- Settles O3: each uniform instruction is one write of its destination and an advance (`completes_of_udst`), so what is left
is that the value the model computes is that of Table 7-3. -/
theorem uniformInstructionsWriteTheirResult : Obligations.UniformInstructionsWriteTheirResult := by
  unfold Obligations.UniformInstructionsWriteTheirResult
  refine ⟨fun s d a b r m c i h hc => ?_, fun s d a b hc =>
    ⟨rfl, execVtok_completes hc d a b, fun hl => if_neg hl, fun k p rest => execVtokWrite_completes⟩⟩
  intro x y z done shift
  refine ⟨?kadd, ?ksub, ?kmul32, ?kmul24, ?kand, ?kor, ?kxor,
    ⟨shl32 x y, ?kshl, fun n => getLsbD_shl32 x y⟩,
    ⟨shr32 x y, ?kshr, fun n _ => getLsbD_shr32 x y n⟩,
    ⟨sar32 x y, ?ksar, fun n => getLsbD_sar32 x y⟩,
    ⟨_, ?kmin, min_of_ltBy m x y⟩, ⟨_, ?kmax, max_of_ltBy m x y⟩, ?ksel, ?kcmp, ?kli, ?klih⟩
  case kmul24 => exact completes_of_udst hc rfl (ofInt_ext24_mul m x y)
  case klih => exact completes_of_udst hc rfl (append_truncate_eq_shift_or h z)
  case kcmp => exact completes_of_udst hc rfl (by simp only [kcmpCond_eq_condHolds]; rfl)
  case ksel => exact completes_of_udst hc rfl (by simp only [bne_iff_ne]; rfl)
  all_goals exact completes_of_udst hc rfl rfl

/-! ## Instructions that change threads alone -/

theorem ThreadsDone.refl (s : State) : ThreadsDone s s s.curRill.thread where
  only := ⟨rfl, fun _ _ => rfl, fun _ => rfl, rfl, MemKept.of_others rfl⟩
  vregs _ _ _ := rfl
  uform := rfl
  kregs _ := rfl
  threads _ := rfl

theorem ThreadsDone.congr {s t : State} {f g : Nat → Thread} (h : ThreadsDone s t f) (hfg : ∀ l, f l = g l) : ThreadsDone s t g :=
  (funext hfg : f = g) ▸ h

/-- A further change of threads of the issuing rill. -/
theorem ThreadsDone.mapThreads {s t : State} {f : Nat → Thread} (h : ThreadsDone s t f) {ls : List Nat} (hl : ls.Nodup)
    (g : Nat → Thread → Thread) :
    ThreadsDone s (t.mapThreads s.cur.rill ls g) (fun l => if l ∈ ls then g l (f l) else f l) := by
  obtain ⟨⟨hothers, hrills, hcores, hself, hmem⟩, hvregs, huform, hkregs, hthreads⟩ := h
  have hcur : t.cur = s.cur := State.cur_of_others hothers
  have hr : (t.mapThreads s.cur.rill ls g).curRill = t.curRill.mapThreads ls g := by
    rw [← hcur]; exact State.curRill_setCur ..
  have hframe := Rill.mapThreads_frame t.curRill ls g
  refine ⟨⟨hothers, fun j hj => ?_, hcores, ?_, MemKept.of_others hothers⟩, fun j n l => ?_, ?_, fun n => ?_, fun l => ?_⟩
  · rw [State.mapThreads_rill, if_neg (Ne.symm hj)]; exact hrills j hj
  · rw [hr, hframe]; exact hself
  · rw [State.mapThreads_vreg]; exact hvregs j n l
  · rw [hr, hframe]; exact huform
  · rw [hr, hframe]; exact hkregs n
  · rw [hr, Rill.thread_mapThreads _ _ _ hl, hthreads]

/-- The cohort then moves on. -/
theorem ThreadsDone.advance {s t : State} {f : Nat → Thread} (hc : s.cohortOk) (h : ThreadsDone s t f) :
    ThreadsDone s t.advance (fun l => if l ∈ s.cur.lanes then { f l with pc := s.cur.pc + 4 } else f l) := by
  have hcur : t.cur = s.cur := State.cur_of_others h.only.state
  unfold State.advance State.moveTo
  rw [hcur]
  exact h.mapThreads hc.1 _

theorem State.advance_done {s : State} (hc : s.cohortOk) : ThreadsDone s s.advance s.moved := (ThreadsDone.refl s).advance hc

/-- The regions of some lanes end, and the cohort moves on. -/
theorem State.endRegion_advance_done {s : State} (hc : s.cohortOk) {ls : List Nat} (hl : ls.Nodup) :
    ThreadsDone s (s.endRegion ls).advance (s.movedEnding ls) :=
  (((ThreadsDone.refl s).mapThreads hl _).advance hc).congr fun l => by
    unfold State.movedEnding State.moved
    by_cases hm : l ∈ s.cur.lanes <;> by_cases ha : l ∈ ls <;> simp [hm, ha]

/-- The target lies in the code span (R156). -/
def Rill.inSpan (r : Rill) (t : Int) : Prop := (r.kcode : Int) ≤ t ∧ t ≤ r.kcode + 0x00FFFFFC

/-- KBRA branches: on a value that is not 0 where n is 0, on 0 where n is 1 (R158). -/
def kbraTakes (n : BitVec 1) (v : Word) : Prop := (n = 0 ∧ v ≠ 0) ∨ (n = 1 ∧ v = 0)

theorem outsideSpan_iff (r : Rill) (t : Int) : outsideSpan r.kcode t = true ↔ ¬r.inSpan t := by
  unfold outsideSpan Rill.inSpan
  rw [Bool.or_eq_true, decide_eq_true_eq, decide_eq_true_eq]
  omega

theorem kbraTakes_iff (n : BitVec 1) (v : Word) : (if n = 0 then v != 0 else v == 0) = true ↔ kbraTakes n v := by
  unfold kbraTakes
  obtain rfl | rfl := BitVec.eq_zero_or_eq_one n <;> simp

section
variable {s : State} {n : BitVec 1} {k : BitVec 3} (o : BitVec 21)

theorem execKbra_of_not_takes (h : ¬kbraTakes n (s.curRill.kreg k.toNat)) : exec (.kbra n k o) s = .next s.advance := by
  rw [← kbraTakes_iff, Bool.not_eq_true] at h
  exact congrArg Host.Outcome.next (if_pos (by rw [h]; rfl))

variable {o} (h : kbraTakes n (s.curRill.kreg k.toNat))
include h

theorem execKbra_of_takes : exec (.kbra n k o) s =
    .next (if !isCp s.cur.rill && outsideSpan s.curRill.kcode (branchTarget s.cur.pc o) then s.trap 0x05
      else s.moveTo s.cur.rill s.cur.lanes (BitVec.ofInt 64 (branchTarget s.cur.pc o))) := by
  rw [← kbraTakes_iff] at h
  exact congrArg Host.Outcome.next (if_neg (by rw [h]; exact Bool.false_ne_true))

theorem execKbra_of_inSpan (hin : s.curRill.inSpan (branchTarget s.cur.pc o) ∨ isCp s.cur.rill = true) :
    exec (.kbra n k o) s = .next (s.moveTo s.cur.rill s.cur.lanes (BitVec.ofInt 64 (branchTarget s.cur.pc o))) := by
  rw [execKbra_of_takes h, if_neg]
  rw [Bool.and_eq_true, outsideSpan_iff, Bool.not_eq_true']
  rintro ⟨hcp, hout⟩
  exact hin.elim hout (by simp [hcp])

theorem execKbra_of_outside (hout : ¬s.curRill.inSpan (branchTarget s.cur.pc o)) (hcp : isCp s.cur.rill = false) :
    exec (.kbra n k o) s = .next (s.trap 0x05) := by
  rw [execKbra_of_takes h, if_pos]
  rw [hcp, (outsideSpan_iff ..).2 hout]; rfl

end

/-- With no cross-lane wait nothing depends on the lanes that exit. -/
theorem State.exitMismatch_of_no_cross {s : State} {k : Nat} (h : ∀ w ∈ (s.rill k).waits, isCross w.ins = false) :
    s.exitMismatch k = s := by
  have hnil : (s.rill k).waits.filter (fun w => isCross w.ins) = [] := by
    rw [List.filter_eq_nil_iff]
    exact fun w hw => by rw [h w hw]; exact Bool.false_ne_true
  unfold State.exitMismatch
  rw [hnil]
  exact ite_self _

/-- EXIT of a rill with no cross-lane wait. -/
theorem execExit_completes {s : State} (hc : s.cohortOk) (g : BitVec 2) (hcp : isCp s.cur.rill = false)
    (hw : ∀ w ∈ s.curRill.waits, isCross w.ins = false) :
    Completes s (.exit g) (fun t => ThreadsDone s t (fun l =>
      { s.movedEnding (s.acting g.toNat) l with exited := (s.curRill.thread l).exited || decide (l ∈ s.acting g.toNat) })) := by
  have hact := State.acting_nodup hc g.toNat
  let u := (s.endRegion (s.acting g.toNat)).advance.mapThreads s.cur.rill (s.acting g.toNat) (fun _ t => { t with exited := true })
  have hdone := (State.endRegion_advance_done hc hact).mapThreads hact (fun _ t => { t with exited := true })
  have hwaits : (u.rill s.cur.rill).waits = s.curRill.waits := (congrArg Rill.waits hdone.only.self : u.curRill.others.waits = _)
  have he : exec (.exit g) s = .next (u.exitMismatch s.cur.rill) := if_neg (by rw [hcp]; exact Bool.false_ne_true)
  rw [State.exitMismatch_of_no_cross (hwaits ▸ hw)] at he
  refine ⟨u, he, hdone.congr fun l => ?_⟩
  have hex : (s.movedEnding (s.acting g.toNat) l).exited = (s.curRill.thread l).exited := by
    unfold State.movedEnding State.moved
    split <;> rfl
  by_cases hl : l ∈ s.acting g.toNat <;> simp [hl, ← hex]

/-! ## WAITC (R165) -/

/-- Each waited counter of the rill is at or below its limit. -/
def Rill.atLimits (r : Rill) (tg l n c m : BitVec 4) : Prop :=
  (l.toNat = 15 ∨ r.nld ≤ l.toNat) ∧ (n.toNat = 15 ∨ r.nst ≤ n.toNat) ∧
    (∀ t, t < 4 → tg.getLsbD t = true → r.ncp.get 0 t ≤ c.toNat) ∧ (m.toNat = 15 ∨ r.ntl ≤ m.toNat)

theorem bitOf_toNat {n : Nat} (i : Nat) (x : BitVec n) : bitOf i x.toNat = x.getLsbD i := by
  rw [BitVec.getLsbD, Nat.testBit_eq_decide_div_mod_eq]
  rfl

/-- The limit 15 waits for nothing (R165). -/
theorem limit_iff (count limit : Nat) : (limit == 15 || decide (count ≤ limit)) = true ↔ limit = 15 ∨ count ≤ limit := by
  rw [Bool.or_eq_true, beq_iff_eq, decide_eq_true_eq]

/-- Only the copy tags named in the mask are waited for. -/
theorem tagLimits_iff (r : Rill) (tg : BitVec 4) (limit : Nat) :
    (List.range 4).all (fun t => !bitOf t tg.toNat || decide (r.ncp.get 0 t ≤ limit)) = true ↔
      ∀ t, t < 4 → tg.getLsbD t = true → r.ncp.get 0 t ≤ limit := by
  rw [List.all_eq_true]
  refine forall_congr' fun t => ?_
  rw [List.mem_range, bitOf_toNat]
  cases tg.getLsbD t
  · simp only [Bool.not_false, Bool.true_or, Bool.false_eq_true, false_implies]
  · simp only [Bool.not_true, Bool.false_or, decide_eq_true_eq, true_implies]

theorem waitcReady_iff (s : State) (k : Nat) {w : Wait} {tg l n c m : BitVec 4}
    (hv : w.vals = [tg.toNat, l.toNat, n.toNat, c.toNat, m.toNat]) :
    waitcReady s k w = true ↔ (s.rill k).atLimits tg l n c m := by
  unfold waitcReady Rill.atLimits
  rw [hv, Bool.and_eq_true, Bool.and_eq_true, Bool.and_eq_true, and_assoc, and_assoc]
  exact and_congr (limit_iff ..) (and_congr (limit_iff ..) (and_congr (tagLimits_iff ..) (limit_iff ..)))

/-- At a WAITC, whose wait takes the next place in the rill's order first (R165). -/
theorem waitcReady_at_issue {s : State} {tg l n c m : BitVec 4} :
    waitcReady (s.modRill s.cur.rill (fun r => { r with seq := r.seq + 1 })) s.cur.rill
      (s.mkWait (.waitc tg l n c m) [tg.toNat, l.toNat, n.toNat, c.toNat, m.toNat]) = true ↔ s.curRill.atLimits tg l n c m := by
  rw [waitcReady_iff _ _ rfl, State.rill_modRill_same]
  rfl

theorem State.holdOr_of_ready {s : State} {w : Wait} {ready : State → Nat → Wait → Bool} {fin : State → Nat → Wait → State}
    (h : ready (s.modRill s.cur.rill (fun r => { r with seq := r.seq + 1 })) s.cur.rill w = true) :
    s.holdOr w ready fin = fin (s.modRill s.cur.rill (fun r => { r with seq := r.seq + 1 })) s.cur.rill w := if_pos h

theorem State.holdOr_of_not_ready {s : State} {w : Wait} {ready : State → Nat → Wait → Bool} {fin : State → Nat → Wait → State}
    (h : ¬ready (s.modRill s.cur.rill (fun r => { r with seq := r.seq + 1 })) s.cur.rill w = true) :
    s.holdOr w ready fin = (s.modRill s.cur.rill (fun r => { r with seq := r.seq + 1 })).modRill s.cur.rill
      (fun r => { r with waits := r.waits ++ [w] }) := if_neg h

theorem RillTo.refl (s : State) (k : Nat) : RillTo s s k (s.rill k) := ⟨rfl, rfl, rfl, fun _ _ => rfl, rfl⟩

/-- A further write of the rill. -/
theorem RillTo.modRill {s t : State} {k : Nat} {r : Rill} (h : RillTo s t k r) (f : Rill → Rill) : RillTo s (t.modRill k f) k (f r) where
  state := h.state
  cores := h.cores
  xblks := h.xblks
  rills j hj := by rw [State.rill_modRill, if_neg (Ne.symm hj), h.rills j hj]
  self := by rw [State.rill_modRill_same, h.self]

/-- The lanes that a wait held move on. -/
theorem RillTo.release {s t : State} {k : Nat} {r : Rill} (h : RillTo s t k r) (w : Wait) :
    RillTo s (t.release k w) k (r.mapThreads w.lanes (fun _ x => { x with pc := w.pc + 4 })) :=
  h.modRill (fun r => r.mapThreads w.lanes (fun _ x => { x with pc := w.pc + 4 }))

theorem execWaitc_completes_of_atLimits {s : State} {tg l n c m : BitVec 4} (h : s.curRill.atLimits tg l n c m) :
    Completes s (.waitc tg l n c m) (fun t => RillTo s t s.cur.rill
      (s.cohortAt { s.curRill with seq := s.curRill.seq + 1 } (s.cur.pc + 4))) :=
  ⟨_, congrArg Host.Outcome.next (State.holdOr_of_ready (waitcReady_at_issue.2 h)),
    ((RillTo.refl s s.cur.rill).modRill _).release _⟩

/-- The cohort is held: only the wait is new. -/
theorem execWaitc_completes_of_not_atLimits {s : State} {tg l n c m : BitVec 4} (h : ¬s.curRill.atLimits tg l n c m) :
    Completes s (.waitc tg l n c m) (fun t => RillTo s t s.cur.rill
      { s.curRill with
        seq := s.curRill.seq + 1
        waits := s.curRill.waits ++ [s.mkWait (.waitc tg l n c m) [tg.toNat, l.toNat, n.toNat, c.toNat, m.toNat]] }) :=
  ⟨_, congrArg Host.Outcome.next (State.holdOr_of_not_ready (mt waitcReady_at_issue.1 h)), ((RillTo.refl s s.cur.rill).modRill _).modRill _⟩

/-- WAIT_END of a WAITC of a rill that runs. -/
theorem execWaitEnd_of_waitc {u : State} {k i : Nat} {w : Wait} {tg l n c m : BitVec 4} (hi : (u.rill k).waits[i]? = some w)
    (hruns : u.runs k = true) (hheld : w.held = none) (hins : w.ins = .waitc tg l n c m) :
    execWaitEnd k i u = if waitcReady u k w then
      .next ((u.modRill k (fun r => { r with waits := dropNth r.waits i })).release k w) else .next u := by
  simp only [execWaitEnd, hi, hheld, hruns, hins, State.waitOver, State.waitDone, waitcDone, Bool.not_true, Bool.false_eq_true, if_false]

/-- The WAITC that wait `i` is was issued in `s`: its lanes move on from the PC it had there. -/
theorem execWaitEnd_completes_of_atLimits {s u : State} {k i : Nat} {tg l n c m : BitVec 4} {vals : List Nat}
    (hvals : vals = [tg.toNat, l.toNat, n.toNat, c.toNat, m.toNat])
    (hi : (u.rill k).waits[i]? = some (s.mkWait (.waitc tg l n c m) vals)) (hruns : u.runs k = true)
    (h : (u.rill k).atLimits tg l n c m) :
    Completes u (.waitEnd k i) (fun t => RillTo u t k
      ({ u.rill k with waits := dropNth (u.rill k).waits i }.mapThreads s.cur.lanes (fun _ x => { x with pc := s.cur.pc + 4 }))) :=
  ⟨_, (execWaitEnd_of_waitc hi hruns rfl rfl).trans (if_pos ((waitcReady_iff u k hvals).2 h)),
    ((RillTo.refl u k).modRill _).release _⟩

theorem exec_waitEnd_of_not_atLimits {s u : State} {k i : Nat} {tg l n c m : BitVec 4} {vals : List Nat}
    (hvals : vals = [tg.toNat, l.toNat, n.toNat, c.toNat, m.toNat])
    (hi : (u.rill k).waits[i]? = some (s.mkWait (.waitc tg l n c m) vals)) (hruns : u.runs k = true)
    (h : ¬(u.rill k).atLimits tg l n c m) : exec (.waitEnd k i) u = .next u :=
  (execWaitEnd_of_waitc hi hruns rfl rfl).trans (if_neg (mt (waitcReady_iff u k hvals).1 h))

/-- Settles O15: KBRA, EXIT, NOP, YIELD and REGN change threads alone, composed from `ThreadsDone.mapThreads` and
`ThreadsDone.advance`; WAITC and its WAIT_END turn on one test of the rill's counters (`waitcReady_iff`). -/
theorem kbraExitYieldRegnAndWaitc : Obligations.KbraExitYieldRegnAndWaitc := by
  unfold Obligations.KbraExitYieldRegnAndWaitc
  refine ⟨fun s n k o g hc => ?_, fun s tg l n c m _ => ?_⟩
  · refine ⟨fun ht => ⟨_, execKbra_of_not_takes o ht, State.advance_done hc⟩,
      fun ht hin => ⟨_, execKbra_of_inSpan ht hin, (ThreadsDone.refl s).mapThreads hc.1 _⟩,
      fun ht hout hcp => execKbra_of_outside ht hout hcp, execExit_completes hc g,
      ⟨_, rfl, State.advance_done hc⟩, ⟨_, rfl, ?yield⟩, ⟨_, rfl, State.endRegion_advance_done hc hc.1⟩⟩
    case yield =>
      refine ((State.advance_done hc).mapThreads hc.1 _).congr fun l => ?_
      by_cases hl : l ∈ s.cur.lanes <;> simp [hl, State.moved]
  · exact ⟨execWaitc_completes_of_atLimits, execWaitc_completes_of_not_atLimits, fun u k i hi hruns =>
      ⟨execWaitEnd_completes_of_atLimits rfl hi hruns, exec_waitEnd_of_not_atLimits rfl hi hruns⟩⟩

end Sys2Proof.Machine
end

section
/-! Vector bit instructions (08, R177 to R179): the bits of their results. -/
namespace Sys2Proof.Machine

/-! ## The lanes of a form without a guard -/

/-- Guard g0 always holds, so what acts is every lane that has not exited (R137, R173). -/
theorem State.acting_zero (s : State) : s.acting 0 = s.cur.lanes.filter (fun l => !(s.curRill.thread l).exited) := by
  unfold State.acting Thread.guard
  simp only [Bool.and_true]

/-- An instruction that is one vector write without flags. -/
theorem completes_of_vop {s : State} (hc : s.cohortOk) {j : Instr} {g d : Nat} {srcs : List Nat} {f : Nat → Word}
    (he : exec j s = .next (s.vop g d srcs f)) :
    Completes s j (fun t => VecDone s t [s.curRill.vname d] (s.acting g) (fun _ => f) (fun _ => 0)) :=
  ⟨_, he, s.vop_done hc g d srcs f⟩

/-! ## Counts of bits (Table 8-3) -/

theorem popCount_eq_length_filter (n w : Nat) : popCount n w = ((List.range n).filter w.testBit).length := by
  induction n generalizing w with
  | zero => rfl
  | succ n ih =>
    have hshift : w.testBit ∘ Nat.succ = (w / 2).testBit := funext fun i => Nat.testBit_succ w i
    rw [List.range_succ_eq_map, List.filter_cons, List.filter_map, hshift, popCount, ih, Nat.testBit_zero]
    by_cases h : w % 2 = 1
    · simp [h, Nat.add_comm]
    · simp [show w % 2 = 0 by omega]

theorem popCount_le (n w : Nat) : popCount n w ≤ n := by
  rw [popCount_eq_length_filter]
  exact Nat.le_trans (List.length_filter_le _ _) (Nat.le_of_eq List.length_range)

/-- The leading zeros end at the highest 1 bit. -/
theorem leadZeros_spec (n w : Nat) : leadZeros n w ≤ n ∧ (∀ e, e < leadZeros n w → w.testBit (n - 1 - e) = false) ∧
    (leadZeros n w < n → w.testBit (n - 1 - leadZeros n w) = true) := by
  induction n with
  | zero => exact ⟨Nat.le_refl _, fun e he => absurd he (Nat.not_lt_zero e), fun h => absurd h (Nat.lt_irrefl _)⟩
  | succ n ih =>
    obtain ⟨hle, hzero, hone⟩ := ih
    have htop : w.testBit n = decide (w / 2 ^ n % 2 = 1) := Nat.testBit_eq_decide_div_mod_eq
    unfold leadZeros
    split
    · next h => exact ⟨Nat.zero_le _, fun e he => absurd he (Nat.not_lt_zero e), fun _ => by simpa [h] using htop⟩
    · next h =>
      refine ⟨by omega, fun e he => ?_, fun hlt => ?_⟩
      · cases e with
        | zero => simpa [h] using htop
        | succ e => rw [show n + 1 - 1 - (e + 1) = n - 1 - e by omega]; exact hzero e (by omega)
      · rw [show n + 1 - 1 - (1 + leadZeros n w) = n - 1 - leadZeros n w by omega]; exact hone (by omega)

theorem toNat_popc (x : Word) :
    (BitVec.ofNat 32 (popCount 32 x.toNat)).toNat = ((List.range 32).filter (fun e => x.getLsbD e)).length := by
  rw [BitVec.toNat_ofNat, Nat.mod_eq_of_lt (Nat.lt_of_le_of_lt (popCount_le 32 _) (by decide))]
  exact popCount_eq_length_filter 32 x.toNat

theorem clz_spec (x : Word) : let w := BitVec.ofNat 32 (leadZeros 32 x.toNat)
    w.toNat ≤ 32 ∧ (∀ e, e < w.toNat → x.getLsbD (31 - e) = false) ∧ (w.toNat < 32 → x.getLsbD (31 - w.toNat) = true) := by
  have h := leadZeros_spec 32 x.toNat
  dsimp only
  rw [BitVec.toNat_ofNat, Nat.mod_eq_of_lt (Nat.lt_of_le_of_lt h.1 (by decide))]
  exact h

theorem toNat_iabs (x : Word) : (if x.msb then -x else x).toNat = x.toInt.natAbs := by
  rw [BitVec.toInt_eq_msb_cond]
  have := x.isLt
  cases h : x.msb
  · simp
  · simp only [if_true, BitVec.toNat_neg]
    have := BitVec.msb_eq_true_iff_two_mul_ge.1 h
    omega

/-! ## Bit fields (R178) -/

theorem fieldPos_add_fieldLen_le (b : Word) : fieldPos b + fieldLen b ≤ 32 := by
  unfold fieldLen fieldPos; omega

theorem toNat_bfe (a b : Word) : (bfe a b).toNat = a.toNat / 2 ^ fieldPos b % 2 ^ fieldLen b := by
  have hle : 2 ^ fieldLen b ≤ 2 ^ 32 := Nat.pow_le_pow_right (by decide) (by have := fieldPos_add_fieldLen_le b; omega)
  exact (BitVec.toNat_ofNat ..).trans (Nat.mod_eq_of_lt (Nat.lt_of_lt_of_le (Nat.mod_lt _ (Nat.two_pow_pos _)) hle))

/-- Every bit of the field, and no other. -/
theorem getLsbD_bfe (a b : Word) (e : Nat) :
    (bfe a b).getLsbD e = (decide (e < fieldLen b) && a.getLsbD (fieldPos b + e)) := by
  rw [BitVec.getLsbD, toNat_bfe, Nat.testBit_mod_two_pow, Nat.testBit_div_two_pow, Nat.add_comm e]
  rfl

/-- The number of `n` bits that BFE.s32 takes from its field is the field's signed value. -/
theorem bfeS_eq_signExtend (a b : Word) (h : 0 < fieldLen b) :
    bfeS a b = (BitVec.ofNat (fieldLen b) (bfe a b).toNat).signExtend 32 := by
  have hf : (bfe a b).toNat < 2 ^ fieldLen b := by rw [toNat_bfe]; exact Nat.mod_lt _ (Nat.two_pow_pos _)
  have htwo : 2 ^ fieldLen b = 2 * 2 ^ (fieldLen b - 1) := by rw [← Nat.pow_succ']; congr 1; omega
  have htop : (bfe a b).toNat / 2 ^ (fieldLen b - 1) = 1 ↔ ¬2 * (bfe a b).toNat < 2 ^ fieldLen b := by
    rw [Nat.div_eq_iff (Nat.two_pow_pos _)]; omega
  unfold bfeS BitVec.signExtend
  rw [BitVec.toInt_eq_toNat_cond, BitVec.toNat_ofNat, Nat.mod_eq_of_lt hf]
  by_cases hs : 2 * (bfe a b).toNat < 2 ^ fieldLen b
  · rw [if_pos hs, if_neg (fun hn => htop.1 hn.2 hs)]; rfl
  · rw [if_neg hs, if_pos ⟨by omega, htop.2 hs⟩]; norm_cast

theorem getLsbD_bfeS (a b : Word) (h : 0 < fieldLen b) {e : Nat} (he : e < 32) :
    (bfeS a b).getLsbD e = a.getLsbD (fieldPos b + min e (fieldLen b - 1)) := by
  have hbit : ∀ i, i < fieldLen b → (BitVec.ofNat (fieldLen b) (bfe a b).toNat).getLsbD i = a.getLsbD (fieldPos b + i) := by
    intro i hi
    have hb := getLsbD_bfe a b i
    rw [decide_eq_true hi, Bool.true_and] at hb
    rw [BitVec.getLsbD_ofNat, decide_eq_true hi, Bool.true_and]
    exact hb
  rw [bfeS_eq_signExtend a b h, BitVec.getLsbD_signExtend, decide_eq_true he, Bool.true_and, BitVec.msb_eq_getLsbD_last]
  by_cases hn : e < fieldLen b
  · rw [if_pos hn, hbit e hn, Nat.min_eq_left (by omega)]
  · rw [if_neg hn, hbit _ (by omega), Nat.min_eq_right (by omega)]

theorem bfeS_of_empty (a b : Word) (h : fieldLen b = 0) : bfeS a b = 0 := by
  unfold bfeS
  rw [if_neg (fun hn => hn.1 h), toNat_bfe, h, Nat.pow_zero, Nat.mod_one]; rfl

/-- The mask of BFI holds the bits of the field. -/
theorem getLsbD_fieldMask (p n e : Nat) (he : e < 32) :
    (BitVec.ofNat 32 ((2 ^ n - 1) * 2 ^ p)).getLsbD e = decide (p ≤ e ∧ e < p + n) := by
  rw [BitVec.getLsbD_ofNat, decide_eq_true he, Bool.true_and, Nat.testBit_mul_two_pow, Nat.testBit_two_pow_sub_one,
    ← Bool.decide_and]
  exact decide_eq_decide.2 (and_congr_right fun _ => by omega)

theorem getLsbD_bfi (d a b : Word) {e : Nat} (he : e < 32) : (bfi d a b).getLsbD e =
    if fieldPos b ≤ e ∧ e < fieldPos b + fieldLen b then a.getLsbD (e - fieldPos b) else d.getLsbD e := by
  unfold bfi
  rw [BitVec.getLsbD_or, BitVec.getLsbD_and, BitVec.getLsbD_and, BitVec.getLsbD_not, getLsbD_fieldMask _ _ _ he,
    BitVec.getLsbD_shiftLeft]
  by_cases hp : fieldPos b ≤ e <;> by_cases hn : e < fieldPos b + fieldLen b <;> simp [he, hp, hn]

/-- The byte products of IDOT4 are summed from byte 0 on. -/
theorem dot4_eq (signed : Bool) (d a b : Word) : dot4 signed d a b =
    d + BitVec.ofInt 32 ((List.range 4).foldl (fun q e => q + byteOf signed a e * byteOf signed b e) 0) := by
  rw [dot4, List.foldl_map]

/-- Settles O5: each instruction is one vector write without flags under g0 (`completes_of_vop`), so what is left is that
the value the model computes has the bits that Table 8-3 and R178 give. -/
theorem vectorBitInstructionsWriteTheirResult : Obligations.VectorBitInstructionsWriteTheirResult := by
  unfold Obligations.VectorBitInstructionsWriteTheirResult
  intro s d a b i h hc x y z lanes done p n dot
  have hop : ∀ {j : Instr} {srcs : List Nat} {f : Nat → Word}, exec j s = .next (s.vop 0 d.toNat srcs f) →
      Completes s j (fun t => VecDone s t [s.curRill.vname d.toNat] lanes (fun _ => f) (fun _ => 0)) := fun he => by
    have h := completes_of_vop hc he
    rwa [s.acting_zero] at h
  refine ⟨⟨_, fun _ => rfl, hop rfl⟩,
    ⟨_, fun l => toNat_popc (x l), hop rfl⟩,
    ⟨_, fun l => clz_spec (x l), hop rfl⟩,
    ⟨_, fun l e he => ?brev, hop rfl⟩,
    ⟨_, fun l => toNat_iabs (x l), hop rfl⟩,
    ⟨_, fun l e _ => getLsbD_bfe (x l) (y l) e, hop rfl⟩,
    ⟨_, fun l => ⟨bfeS_of_empty (x l) (y l), fun hn e he => getLsbD_bfeS (x l) (y l) hn he⟩, hop rfl⟩,
    ⟨_, fun l e he => getLsbD_bfi (z l) (x l) (y l) he, hop rfl⟩,
    ⟨fun l => dot4 true (z l) (x l) (y l), fun l => dot4_eq true .., hop rfl⟩,
    ⟨fun l => dot4 false (z l) (x l) (y l), fun l => dot4_eq false .., hop rfl⟩,
    ⟨_, fun _ => rfl, hop rfl⟩,
    ⟨_, fun l => append_truncate_eq_shift_or h (z l), hop rfl⟩⟩
  case brev => rw [BitVec.getLsbD_reverse, BitVec.getMsbD_eq_getLsbD, decide_eq_true he, Bool.true_and]

end Sys2Proof.Machine
end

section
/-! Dyadic numbers and formats (02): the values that the model's exact arithmetic stands for. -/
namespace Sys2Proof.Machine

/-! ## Powers of two -/

/-- The power of two with exponent `e`. -/
def twoPow (e : Int) : Rat := Rat.zpow 2 e

theorem twoPow_pos (e : Int) : 0 < twoPow e := Rat.zpow_pos (by decide)

theorem twoPow_add (m n : Int) : twoPow (m + n) = twoPow m * twoPow n := Rat.zpow_add (by decide) m n

theorem twoPow_zero : twoPow 0 = 1 := Rat.zpow_zero 2

theorem intCast_two_pow (n : Nat) : ((2 ^ n : Int) : Rat) = twoPow n := (Rat.intCast_pow 2 n).trans (Rat.zpow_natCast 2 n).symm

theorem natCast_two_pow (n : Nat) : ((2 ^ n : Nat) : Rat) = twoPow n := (Rat.natCast_pow 2 n).trans (Rat.zpow_natCast 2 n).symm

/-- A power of two is a natural multiple of every lesser one. -/
theorem two_pow_mul_twoPow {m x : Int} (h : m ≤ x) : twoPow ((x - m).toNat : Int) * twoPow m = twoPow x := by
  rw [← twoPow_add, Int.toNat_of_nonneg (Int.sub_nonneg.2 h), Int.sub_add_cancel]

theorem twoPow_le_twoPow {m n : Int} (h : m ≤ n) : twoPow m ≤ twoPow n := by
  have hone : (1 : Rat) ≤ ((2 ^ (n - m).toNat : Nat) : Rat) := Rat.natCast_le_natCast.2 Nat.one_le_two_pow
  rw [natCast_two_pow] at hone
  have := Rat.mul_le_mul_of_nonneg_right hone (Rat.le_of_lt (twoPow_pos m))
  rwa [two_pow_mul_twoPow h, Rat.one_mul] at this

theorem mul_twoPow_cancel {x y : Rat} {e : Int} (h : x * twoPow e = y * twoPow e) : x = y := by
  have hcancel : ∀ z : Rat, z * twoPow e * twoPow (-e) = z := fun z => by
    rw [Rat.mul_assoc, ← twoPow_add, Int.add_right_neg, twoPow_zero, Rat.mul_one]
  rw [← hcancel x, h, hcancel]

theorem mul_twoPow_eq_zero {x : Rat} {e : Int} : x * twoPow e = 0 ↔ x = 0 :=
  ⟨fun h => mul_twoPow_cancel (h.trans (Rat.zero_mul _).symm), fun h => by rw [h, Rat.zero_mul]⟩

theorem natCast_two_mul_twoPow (n : Nat) (e : Int) : ((2 * n : Nat) : Rat) * twoPow e = n * twoPow (e + 1) := by
  rw [Nat.mul_comm, Rat.natCast_mul, Rat.mul_assoc, Int.add_comm e 1, twoPow_add, show ((2 : Nat) : Rat) = twoPow 1 from natCast_two_pow 1]

theorem rat_lt_of_lt_of_le {x y z : Rat} (hxy : x < y) (hyz : y ≤ z) : x < z :=
  Rat.not_le.1 fun hzx => Rat.not_le.2 hxy (Rat.le_trans hyz hzx)

theorem rat_lt_of_le_of_lt {x y z : Rat} (hxy : x ≤ y) (hyz : y < z) : x < z :=
  Rat.not_le.1 fun hzx => Rat.not_le.2 hyz (Rat.le_trans hzx hxy)

/-! ## Dyadic numbers -/

/-- The number a dyadic stands for. -/
def Dy.val (a : Dy) : Rat := a.m * twoPow a.e

theorem Dy.val_add (a b : Dy) : (a.add b).val = a.val + b.val := by
  unfold Dy.val Dy.add
  dsimp only
  rw [Rat.intCast_add, Rat.intCast_mul, Rat.intCast_mul, intCast_two_pow, intCast_two_pow, Rat.add_mul, Rat.mul_assoc, Rat.mul_assoc,
    two_pow_mul_twoPow (Int.min_le_left ..), two_pow_mul_twoPow (Int.min_le_right ..)]

theorem Dy.val_sub (a b : Dy) : (a.add ⟨-b.m, b.e⟩).val = a.val - b.val := by
  rw [Dy.val_add, Rat.sub_eq_add_neg]
  unfold Dy.val
  rw [Rat.intCast_neg, Rat.neg_mul]

theorem Dy.lt_iff (a b : Dy) : a.lt b = true ↔ a.val < b.val := by
  have hneg : (a.add ⟨-b.m, b.e⟩).val < 0 ↔ (a.add ⟨-b.m, b.e⟩).m < 0 := by
    rw [Dy.val, Rat.mul_neg_iff_of_pos_right (twoPow_pos _), Rat.intCast_neg_iff]
  rw [Dy.lt, decide_eq_true_eq, ← hneg, Dy.val_sub, Rat.sub_lt_iff, Rat.zero_add]

theorem Dy.same_iff (a b : Dy) : a.same b = true ↔ a.val = b.val := by
  have hzero : (a.add ⟨-b.m, b.e⟩).val = 0 ↔ (a.add ⟨-b.m, b.e⟩).m = 0 := by
    rw [Dy.val, mul_twoPow_eq_zero, Rat.intCast_eq_zero_iff]
  rw [Dy.same, beq_iff_eq, ← hzero, Dy.val_sub]
  refine ⟨fun h => ?_, fun h => by rw [h, Rat.sub_self]⟩
  rw [← Rat.sub_add_cancel (a := a.val) (b := b.val), h, Rat.zero_add]

theorem Dy.val_int (q : Int) : Dy.val ⟨q, 0⟩ = q := by
  unfold Dy.val
  rw [twoPow_zero, Rat.mul_one]

/-- A magnitude with its sign. -/
def signed (neg : Bool) (x : Rat) : Rat := if neg then -x else x

theorem signed_mul (neg : Bool) (x y : Rat) : signed neg x * y = signed neg (x * y) := by
  cases neg
  · rfl
  · exact Rat.neg_mul x y

theorem intCast_signed (neg : Bool) (n : Nat) : ((if neg then -(n : Int) else n : Int) : Rat) = signed neg n := by
  cases neg
  · exact Rat.intCast_natCast n
  · exact (Rat.intCast_neg _).trans (congrArg _ (Rat.intCast_natCast n))

theorem FVal.val_fin (neg : Bool) (m : Nat) (e : Int) : (FVal.fin neg m e).dy.val = signed neg (m * twoPow e) :=
  (congrArg (· * twoPow e) (intCast_signed neg m)).trans (signed_mul ..)

/-! ## Rounding to multiples of a power of two -/

/-- The cut of the shift in `roundMag` changes no quotient: beyond it there is none. -/
theorem div_two_pow_min (a k : Nat) : a / 2 ^ min k (Nat.log2 a + 3) = a / 2 ^ k := by
  rcases Nat.le_total k (Nat.log2 a + 3) with h | h
  · rw [Nat.min_eq_left h]
  · have hlt : a < 2 ^ (Nat.log2 a + 3) := Nat.lt_of_lt_of_le Nat.lt_log2_self (Nat.pow_le_pow_right (by decide) (by omega))
    rw [Nat.min_eq_right h, Nat.div_eq_of_lt hlt, Nat.div_eq_of_lt (Nat.lt_of_lt_of_le hlt (Nat.pow_le_pow_right (by decide) h))]

theorem mod_two_pow_min_eq_zero (a k : Nat) : a % 2 ^ min k (Nat.log2 a + 3) = 0 ↔ 2 ^ k ∣ a := by
  rcases Nat.le_total k (Nat.log2 a + 3) with h | h
  · rw [Nat.min_eq_left h, Nat.dvd_iff_mod_eq_zero]
  · have hlt : a < 2 ^ (Nat.log2 a + 3) := Nat.lt_of_lt_of_le Nat.lt_log2_self (Nat.pow_le_pow_right (by decide) (by omega))
    rw [Nat.min_eq_right h, Nat.mod_eq_of_lt hlt]
    exact ⟨fun h0 => h0 ▸ Nat.dvd_zero _,
      fun hd => Nat.eq_zero_of_dvd_of_lt hd (Nat.lt_of_lt_of_le hlt (Nat.pow_le_pow_right (by decide) h))⟩

theorem roundMag_of_dvd {a k : Nat} (mode : Nat) (neg : Bool) (h : 2 ^ k ∣ a) : roundMag mode neg a k = a / 2 ^ k := by
  unfold roundMag
  dsimp only
  rw [(mod_two_pow_min_eq_zero a k).2 h, div_two_pow_min]
  split <;> simp

theorem ite_succ_le (c : Bool) (q : Nat) : (if c then q + 1 else q) ≤ q + 1 := by
  cases c
  · exact Nat.le_succ q
  · exact Nat.le_refl _

theorem roundMag_le (mode : Nat) (neg : Bool) (a k : Nat) : roundMag mode neg a k ≤ a / 2 ^ k + 1 := by
  unfold roundMag
  dsimp only
  rw [div_two_pow_min]
  exact ite_succ_le _ _

theorem exactAt_iff (a : Nat) (e q : Int) : exactAt a e q = true ↔ q ≤ e ∨ 2 ^ (q - e).toNat ∣ a := by
  unfold exactAt
  rw [Bool.or_eq_true, decide_eq_true_eq, decide_eq_true_eq, mod_two_pow_min_eq_zero]

/-- A number that is a multiple of 2^q rounds to itself. -/
theorem roundTo_of_exactAt {a : Nat} {e q : Int} (mode : Nat) (neg : Bool) (h : exactAt a e q = true) :
    (roundTo mode neg a e q : Rat) * twoPow q = a * twoPow e := by
  unfold roundTo
  by_cases hq : q ≤ e
  · rw [if_pos hq, Rat.natCast_mul, natCast_two_pow, Rat.mul_assoc, two_pow_mul_twoPow hq]
  · obtain ⟨c, rfl⟩ := ((exactAt_iff a e q).1 h).resolve_left hq
    rw [if_neg hq, roundMag_of_dvd _ _ (Nat.dvd_mul_right ..), Nat.mul_div_cancel_left _ (Nat.two_pow_pos _), Rat.natCast_mul,
      natCast_two_pow, Rat.mul_comm (twoPow _), Rat.mul_assoc, two_pow_mul_twoPow (by omega)]

/-- Exact means: a multiple of 2^q. -/
theorem exactAt_of_val {a : Nat} {e q : Int} {n : Int} (h : (a : Rat) * twoPow e = n * twoPow q) : exactAt a e q = true := by
  rw [exactAt_iff]
  by_cases hle : q ≤ e
  · exact .inl hle
  refine .inr ?_
  have hq : e < q := Int.not_le.1 hle
  rw [← two_pow_mul_twoPow (Int.le_of_lt hq), ← Rat.mul_assoc, ← intCast_two_pow, ← Rat.intCast_mul, ← Rat.intCast_natCast] at h
  have ha : (a : Int) = n * 2 ^ (q - e).toNat := Rat.intCast_inj.1 (mul_twoPow_cancel h)
  exact Int.natCast_dvd_natCast.1 ⟨n, by rw [ha, Int.mul_comm]; norm_cast⟩

theorem roundInt_natAbs (mode : Nat) (x : Dy) :
    (roundInt mode x).natAbs = roundTo mode (decide (x.m < 0)) x.m.natAbs x.e 0 := by
  unfold roundInt
  dsimp only
  split <;> simp

theorem signed_inj {neg : Bool} {x y : Rat} (h : signed neg x = signed neg y) : x = y := by
  cases neg
  · exact h
  · rw [← Rat.neg_neg x, ← Rat.neg_neg y]; exact congrArg _ h

theorem roundInt_cast (mode : Nat) (x : Dy) :
    (roundInt mode x : Rat) = signed (decide (x.m < 0)) (roundTo mode (decide (x.m < 0)) x.m.natAbs x.e 0) := by
  unfold roundInt signed
  by_cases h : x.m < 0
  · rw [if_pos h, if_pos (decide_eq_true h), Rat.intCast_neg, Rat.intCast_natCast]
  · rw [if_neg h, if_neg (by simpa using h), Rat.intCast_natCast]

theorem Dy.val_eq (x : Dy) : x.val = signed (decide (x.m < 0)) (x.m.natAbs * twoPow x.e) := by
  unfold Dy.val signed
  rw [← Rat.intCast_natCast]
  by_cases h : x.m < 0
  · rw [if_pos (decide_eq_true h), ← Rat.neg_mul, ← Rat.intCast_neg, Int.ofNat_natAbs_of_nonpos (Int.le_of_lt h), Int.neg_neg]
  · rw [if_neg (by simpa using h), Int.natAbs_of_nonneg (Int.not_lt.1 h)]

/-- An exact number is its own rounding, and only an exact one. -/
theorem Dy.isInt_iff (mode : Nat) (x : Dy) : x.isInt = true ↔ x.val = roundInt mode x := by
  rw [Dy.val_eq, roundInt_cast]
  refine ⟨fun h => ?_, fun h => ?_⟩
  · rw [← roundTo_of_exactAt mode _ h, twoPow_zero, Rat.mul_one]
  · refine exactAt_of_val (n := roundTo mode (decide (x.m < 0)) x.m.natAbs x.e 0) ?_
    rw [signed_inj h, twoPow_zero, Rat.mul_one, Rat.intCast_natCast]

end Sys2Proof.Machine
end

section
/-! Formats (02): what an element is, and the elements that rounding delivers. -/
namespace Sys2Proof.Machine

/-! ## Elements of a format with infinities (R43, R44) -/

/-- The formats of Table 2-3 whose first encoding with an exponent of all ones is infinity: the largest finite encoding stands
just below it. -/
structure FFmt.Ieee (f : FFmt) : Prop where
  ew_two : 2 ≤ f.ew
  mw_pos : 0 < f.mw
  inf : f.inf = some ((2 ^ f.ew - 1) * 2 ^ f.mw)
  maxFin : f.maxFin + 1 = (2 ^ f.ew - 1) * 2 ^ f.mw
  nan : f.nan = (2 ^ f.ew - 1) * 2 ^ f.mw + 2 ^ (f.mw - 1)

theorem fp32_ieee : fp32.Ieee := ⟨by decide, by decide, by decide, by decide, by decide⟩
theorem fp16_ieee : fp16.Ieee := ⟨by decide, by decide, by decide, by decide, by decide⟩
theorem bf16_ieee : bf16.Ieee := ⟨by decide, by decide, by decide, by decide, by decide⟩

theorem FFmt.signBit_eq (f : FFmt) : f.signBit = 2 ^ f.ew * 2 ^ f.mw := Nat.pow_add ..

/-- Magnitude `w`, an encoding without its sign bit, is `mant × 2^expo` (R43). The exponent field 0 stands for the same power
as 1, so what counts is the field less one, cut at 0. -/
def FFmt.mant (f : FFmt) (w : Nat) : Nat := w - (w / 2 ^ f.mw - 1) * 2 ^ f.mw
def FFmt.expo (f : FFmt) (w : Nat) : Int := (w / 2 ^ f.mw - 1 : Nat) + (1 - (f.bias : Int) - f.mw)
def FFmt.mag (f : FFmt) (w : Nat) : Rat := f.mant w * twoPow (f.expo w)

/-- The encoding that `round` makes: `d` binades above the lowest, and the mantissa. -/
theorem FFmt.mant_expo_of_parts (f : FFmt) {d m : Nat} (hm : m < 2 * 2 ^ f.mw) (hd : d ≠ 0 → 2 ^ f.mw ≤ m) :
    f.mant (d * 2 ^ f.mw + m) = m ∧ f.expo (d * 2 ^ f.mw + m) = d + (1 - (f.bias : Int) - f.mw) := by
  have hq : (d * 2 ^ f.mw + m) / 2 ^ f.mw - 1 = d := by
    rw [Nat.add_comm, Nat.add_mul_div_right _ _ (Nat.two_pow_pos _)]
    rcases Nat.lt_or_ge m (2 ^ f.mw) with h | h
    · have : d = 0 := Decidable.not_not.1 fun h0 => Nat.not_le.2 h (hd h0)
      rw [Nat.div_eq_of_lt h, this]
    · rw [Nat.div_eq_of_lt_le (k := 1) (by omega) (by omega)]; omega
  unfold FFmt.mant FFmt.expo
  rw [hq]
  exact ⟨Nat.add_sub_cancel_left .., rfl⟩

theorem FFmt.mant_eq (f : FFmt) (w : Nat) :
    f.mant w = if w / 2 ^ f.mw = 0 then w % 2 ^ f.mw else 2 ^ f.mw + w % 2 ^ f.mw := by
  have hw := Nat.div_add_mod' w (2 ^ f.mw)
  unfold FFmt.mant
  cases h : w / 2 ^ f.mw with
  | zero => rw [h] at hw; rw [if_pos rfl]; omega
  | succ E => rw [h, Nat.succ_mul] at hw; rw [if_neg (Nat.succ_ne_zero E), Nat.succ_sub_one]; omega

theorem FFmt.mant_lt (f : FFmt) (w : Nat) : f.mant w < 2 * 2 ^ f.mw := by
  have := Nat.mod_lt w (Nat.two_pow_pos f.mw)
  rw [FFmt.mant_eq]; split <;> omega

theorem FFmt.le_mant (f : FFmt) {w : Nat} (h : w / 2 ^ f.mw ≠ 0) : 2 ^ f.mw ≤ f.mant w := by
  rw [FFmt.mant_eq, if_neg h]; exact Nat.le_add_right ..

/-- A greater encoding is a greater number: within a binade by the mantissa, and between binades since a mantissa is below
twice the least one. -/
theorem FFmt.mag_lt_mag (f : FFmt) {v w : Nat} (h : v < w) : f.mag v < f.mag w := by
  have hdiv : v / 2 ^ f.mw ≤ w / 2 ^ f.mw := Nat.div_le_div_right (Nat.le_of_lt h)
  unfold FFmt.mag
  rcases Nat.eq_or_lt_of_le (Nat.sub_le_sub_right hdiv 1) with heq | hlt
  · have he : f.expo v = f.expo w := by unfold FFmt.expo; rw [heq]
    have hle : (v / 2 ^ f.mw - 1) * 2 ^ f.mw ≤ v := Nat.le_trans (Nat.mul_le_mul_right _ (Nat.sub_le ..)) (Nat.div_mul_le_self ..)
    have hm : f.mant v < f.mant w := by unfold FFmt.mant; rw [← heq]; omega
    rw [he]
    exact Rat.mul_lt_mul_of_pos_right (Rat.natCast_lt_natCast.2 hm) (twoPow_pos _)
  · have he : f.expo v + 1 ≤ f.expo w := by unfold FFmt.expo; omega
    have hv : (f.mant v : Rat) * twoPow (f.expo v) < (2 ^ f.mw : Nat) * twoPow (f.expo v + 1) := by
      rw [← natCast_two_mul_twoPow]
      exact Rat.mul_lt_mul_of_pos_right (Rat.natCast_lt_natCast.2 (f.mant_lt v)) (twoPow_pos _)
    have hbin : ((2 ^ f.mw : Nat) : Rat) * twoPow (f.expo v + 1) ≤ (2 ^ f.mw : Nat) * twoPow (f.expo w) :=
      Rat.mul_le_mul_of_nonneg_left (twoPow_le_twoPow he) Rat.natCast_nonneg
    have hw : ((2 ^ f.mw : Nat) : Rat) * twoPow (f.expo w) ≤ f.mant w * twoPow (f.expo w) :=
      Rat.mul_le_mul_of_nonneg_right (Rat.natCast_le_natCast.2 (f.le_mant (by omega))) (Rat.le_of_lt (twoPow_pos _))
    exact rat_lt_of_lt_of_le hv (Rat.le_trans hbin hw)

theorem FFmt.mag_lt_mag_iff (f : FFmt) {v w : Nat} : f.mag v < f.mag w ↔ v < w := by
  refine ⟨fun h => ?_, f.mag_lt_mag⟩
  rcases Nat.lt_trichotomy v w with hlt | rfl | hgt
  · exact hlt
  · exact absurd h Rat.lt_irrefl
  · exact absurd h (Rat.not_lt.2 (Rat.le_of_lt (f.mag_lt_mag hgt)))

theorem FFmt.mag_zero (f : FFmt) : f.mag 0 = 0 := by
  rw [FFmt.mag, show f.mant 0 = 0 from Nat.zero_sub _]; exact Rat.zero_mul _

/-- The fields of an encoding with a sign. -/
theorem FFmt.withSign_fields (f : FFmt) (neg : Bool) {w : Nat} (h : w < f.signBit) :
    bitOf (f.ew + f.mw) (f.withSign neg w) = neg ∧ f.withSign neg w / 2 ^ f.mw % 2 ^ f.ew = w / 2 ^ f.mw ∧
      f.withSign neg w % 2 ^ f.mw = w % 2 ^ f.mw := by
  have hdiv : w / 2 ^ f.mw < 2 ^ f.ew := Nat.div_lt_of_lt_mul (by rw [Nat.mul_comm, ← f.signBit_eq]; exact h)
  cases neg
  · refine ⟨?_, Nat.mod_eq_of_lt hdiv, rfl⟩
    show (w / f.signBit % 2 == 1) = false
    rw [Nat.div_eq_of_lt h]; rfl
  · show ((f.signBit + w) / f.signBit % 2 == 1) = true ∧ (f.signBit + w) / 2 ^ f.mw % 2 ^ f.ew = _ ∧ (f.signBit + w) % 2 ^ f.mw = _
    refine ⟨?_, ?_, ?_⟩
    · rw [Nat.add_div_left w (show 0 < f.signBit from Nat.two_pow_pos _), Nat.div_eq_of_lt h]; rfl
    · rw [f.signBit_eq, Nat.add_comm, Nat.add_mul_div_right _ _ (Nat.two_pow_pos _), Nat.add_mod_right, Nat.mod_eq_of_lt hdiv]
    · rw [f.signBit_eq, Nat.add_comm, Nat.add_mul_mod_self_right]

theorem FFmt.top_lt_signBit (f : FFmt) : (2 ^ f.ew - 1) * 2 ^ f.mw + 2 ^ f.mw = f.signBit := by
  rw [f.signBit_eq, ← Nat.succ_mul, Nat.succ_eq_add_one, Nat.sub_add_cancel (Nat.one_le_two_pow)]

/-- Below infinity stand the finite numbers. -/
theorem FFmt.decode_fin (f : FFmt) (neg : Bool) {w : Nat} (h : w < (2 ^ f.ew - 1) * 2 ^ f.mw) :
    f.decode (f.withSign neg w) = .fin neg (f.mant w) (f.expo w) := by
  obtain ⟨hneg, he, hm⟩ := f.withSign_fields neg (Nat.lt_of_lt_of_le h (f.top_lt_signBit ▸ Nat.le_add_right ..))
  have hlt : w / 2 ^ f.mw < 2 ^ f.ew - 1 := Nat.div_lt_of_lt_mul (by rwa [Nat.mul_comm])
  unfold FFmt.decode
  dsimp only
  rw [hneg, he, hm, beq_false_of_ne (Nat.ne_of_lt hlt), Bool.false_and, if_neg Bool.false_ne_true, FFmt.mant_eq, FFmt.expo]
  split
  · next h0 => rw [h0]; congr 1; omega
  · next h0 => congr 1; omega

section
variable {f : FFmt} (hf : f.Ieee) (neg : Bool)
include hf

theorem FFmt.Ieee.decode_inf : f.decode (f.withSign neg ((2 ^ f.ew - 1) * 2 ^ f.mw)) = .inf neg := by
  obtain ⟨hneg, he, hm⟩ := f.withSign_fields neg (w := (2 ^ f.ew - 1) * 2 ^ f.mw)
    (f.top_lt_signBit ▸ Nat.lt_add_of_pos_right (Nat.two_pow_pos _))
  rw [Nat.mul_div_left _ (Nat.two_pow_pos _)] at he
  rw [Nat.mul_mod_left] at hm
  unfold FFmt.decode
  dsimp only
  rw [hneg, he, hm, hf.inf]
  simp

/-- Above it stand the NaNs, of which those with the mantissa's top bit are quiet (R44). -/
theorem FFmt.Ieee.decode_nan {w : Nat} (h : (2 ^ f.ew - 1) * 2 ^ f.mw < w) (hw : w < f.signBit) :
    f.decode (f.withSign neg w) = .nan (!bitOf (f.mw - 1) (w % 2 ^ f.mw)) := by
  obtain ⟨hneg, he, hm⟩ := f.withSign_fields neg hw
  have hdiv : w / 2 ^ f.mw = 2 ^ f.ew - 1 :=
    Nat.div_eq_of_lt_le (Nat.le_of_lt h) (by rw [Nat.succ_mul, f.top_lt_signBit]; exact hw)
  have hmod : w % 2 ^ f.mw ≠ 0 := by
    have := Nat.div_add_mod' w (2 ^ f.mw)
    rw [hdiv] at this
    omega
  unfold FFmt.decode
  dsimp only
  rw [hneg, he, hm, hdiv, hf.inf, beq_self_eq_true]
  simp [hmod]

end

/-- The value of a finite element is its magnitude with its sign. -/
theorem FFmt.val_fin (f : FFmt) (neg : Bool) (w : Nat) : (FVal.fin neg (f.mant w) (f.expo w)).dy.val = signed neg (f.mag w) :=
  FVal.val_fin ..

/-! ## What rounding delivers -/

theorem log2_mul_two_pow {c : Nat} (hc : c ≠ 0) (j : Nat) : Nat.log2 (c * 2 ^ j) = Nat.log2 c + j := by
  rw [Nat.log2_eq_iff (Nat.mul_ne_zero hc (Nat.ne_of_gt (Nat.two_pow_pos j))), Nat.pow_add, Nat.add_right_comm, Nat.pow_add]
  exact ⟨Nat.mul_le_mul_right _ (Nat.log2_self_le hc), Nat.mul_lt_mul_of_pos_right Nat.lt_log2_self (Nat.two_pow_pos j)⟩

/-- Rounding a number that its format holds, c × 2^j × 2^e where c has at most the bits of a mantissa: the element is that number,
and no flag is raised. -/
theorem FFmt.Ieee.round_of_held {f : FFmt} (hf : f.Ieee) (mode : Nat) (neg : Bool) {c p j : Nat} {e : Int} (hc0 : c ≠ 0)
    (hc : c < 2 * 2 ^ p) (hp : p ≤ f.mw) (hlo : 1 - (f.bias : Int) - f.mw ≤ e + j) (hhi : e + j + p + f.bias + 2 ≤ (2 ^ f.ew : Nat)) :
    ∃ w, w < (2 ^ f.ew - 1) * 2 ^ f.mw ∧ f.round mode neg (c * 2 ^ j) e = (f.withSign neg w, 0) ∧
      f.mag w = (c * 2 ^ j : Nat) * twoPow e := by
  have hlog := log2_mul_two_pow hc0 j
  have hlogc : Nat.log2 c < p + 1 := (Nat.log2_lt hc0).2 (by rw [Nat.pow_succ']; exact hc)
  let q : Int := max (1 - (f.bias : Int) - f.mw) (Nat.log2 (c * 2 ^ j) + e - f.mw)
  let t := (e + j - q).toNat
  let d := (q - (1 - (f.bias : Int) - f.mw)).toNat
  have hexact : exactAt (c * 2 ^ j) e q = true :=
    (exactAt_iff ..).2 (.inr (Nat.dvd_trans (Nat.pow_dvd_pow 2 (by omega)) (Nat.dvd_mul_left ..)))
  have hval : ((c * 2 ^ j : Nat) : Rat) * twoPow e = (c * 2 ^ t : Nat) * twoPow q := by
    have hexp : (j : Int) + e = t + q := by omega
    rw [Rat.natCast_mul, Rat.natCast_mul, natCast_two_pow, natCast_two_pow, Rat.mul_assoc, Rat.mul_assoc, ← twoPow_add, ← twoPow_add, hexp]
  have hround : roundTo mode neg (c * 2 ^ j) e q = c * 2 ^ t :=
    Rat.natCast_inj.1 (mul_twoPow_cancel ((roundTo_of_exactAt mode neg hexact).trans hval))
  have hm : c * 2 ^ t < 2 * 2 ^ f.mw :=
    calc c * 2 ^ t < 2 ^ (Nat.log2 c + 1) * 2 ^ t := Nat.mul_lt_mul_of_pos_right Nat.lt_log2_self (Nat.two_pow_pos _)
      _ = 2 ^ (Nat.log2 c + 1 + t) := (Nat.pow_add ..).symm
      _ ≤ 2 ^ (f.mw + 1) := Nat.pow_le_pow_right (by decide) (by omega)
      _ = 2 * 2 ^ f.mw := Nat.pow_succ'
  have hd : d ≠ 0 → 2 ^ f.mw ≤ c * 2 ^ t := fun h =>
    calc 2 ^ f.mw = 2 ^ Nat.log2 c * 2 ^ t := by rw [← Nat.pow_add]; congr 1; omega
      _ ≤ c * 2 ^ t := Nat.mul_le_mul_right _ (Nat.log2_self_le hc0)
  have hlt : d * 2 ^ f.mw + c * 2 ^ t < (2 ^ f.ew - 1) * 2 ^ f.mw :=
    have hew : 2 ^ 2 ≤ 2 ^ f.ew := Nat.pow_le_pow_right (by decide) hf.ew_two
    calc d * 2 ^ f.mw + c * 2 ^ t < d * 2 ^ f.mw + 2 * 2 ^ f.mw := Nat.add_lt_add_left hm _
      _ = (d + 2) * 2 ^ f.mw := (Nat.add_mul ..).symm
      _ ≤ (2 ^ f.ew - 1) * 2 ^ f.mw := Nat.mul_le_mul_right _ (by omega)
  refine ⟨d * 2 ^ f.mw + c * 2 ^ t, hlt, ?_, ?_⟩
  · unfold FFmt.round
    simp only
    rw [hround, hexact]
    refine (if_neg (?_ : ¬f.maxFin < d * 2 ^ f.mw + c * 2 ^ t)).trans (Prod.ext rfl (by simp))
    rw [← hf.maxFin] at hlt
    omega
  · obtain ⟨hmant, hexpo⟩ := f.mant_expo_of_parts hm hd
    have hq : (d : Int) + (1 - (f.bias : Int) - f.mw) = q := by omega
    rw [FFmt.mag, hmant, hexpo, hval, hq]

theorem FFmt.roundDy_of_ne_zero (f : FFmt) (mode : Nat) (neg zeroNeg : Bool) {a : Nat} (ha : a ≠ 0) (e : Int) :
    f.roundDy mode ⟨if neg then -(a : Int) else a, e⟩ zeroNeg = f.round mode neg a e := by
  have hpos : 0 < a := Nat.pos_of_ne_zero ha
  unfold FFmt.roundDy
  cases neg <;> simp [ha, hpos, Int.not_lt.2 (Int.natCast_nonneg a)]

/-- The same with the sign of a zero. -/
theorem FFmt.Ieee.roundDy_of_held {f : FFmt} (hf : f.Ieee) (mode : Nat) (neg : Bool) {a c p j : Nat} {e : Int} (ha : a = c * 2 ^ j)
    (hc : c < 2 * 2 ^ p) (hp : p ≤ f.mw) (hlo : 1 - (f.bias : Int) - f.mw ≤ e + j) (hhi : e + j + p + f.bias + 2 ≤ (2 ^ f.ew : Nat)) :
    ∃ w, w < (2 ^ f.ew - 1) * 2 ^ f.mw ∧ f.roundDy mode ⟨if neg then -(a : Int) else a, e⟩ neg = (f.withSign neg w, 0) ∧
      f.mag w = a * twoPow e := by
  subst ha
  by_cases hc0 : c = 0
  · refine ⟨0, ?_, by simp [hc0, FFmt.roundDy], ?_⟩
    · exact Nat.mul_pos (Nat.sub_pos_of_lt (Nat.one_lt_two_pow (by have := hf.ew_two; omega))) (Nat.two_pow_pos _)
    · rw [hc0, Nat.zero_mul, f.mag_zero]; exact (Rat.zero_mul _).symm
  · obtain ⟨w, hw, hr, hv⟩ := hf.round_of_held mode neg hc0 hc hp hlo hhi
    exact ⟨w, hw, (f.roundDy_of_ne_zero mode neg neg (Nat.mul_ne_zero hc0 (Nat.ne_of_gt (Nat.two_pow_pos j))) e).trans hr, hv⟩

/-! ## The range of a format, and conversion to a wider one -/

/-- The greatest exponent field of a finite element. -/
def FFmt.topField (f : FFmt) : Nat := 2 ^ f.ew - 1 - if f.inf.isSome then 1 else 0

theorem FFmt.decode_eq_fin {f : FFmt} {w m : Nat} {neg : Bool} {e : Int} (h : f.decode w = .fin neg m e) :
    m < 2 * 2 ^ f.mw ∧ 1 - (f.bias : Int) - f.mw ≤ e ∧ e + f.bias + f.mw ≤ max f.topField 1 := by
  have hfield : w / 2 ^ f.mw % 2 ^ f.ew < 2 ^ f.ew := Nat.mod_lt _ (Nat.two_pow_pos _)
  have hmant : w % 2 ^ f.mw < 2 ^ f.mw := Nat.mod_lt _ (Nat.two_pow_pos _)
  unfold FFmt.decode at h
  dsimp only at h
  split at h
  · split at h <;> cases h
  · next hs =>
    have htop : w / 2 ^ f.mw % 2 ^ f.ew ≤ f.topField := by
      unfold FFmt.topField
      split
      · next hi => simp [hi] at hs; omega
      · omega
    split at h <;> cases h
    · omega
    · omega

/-- Every finite number of format `g` is one of format `f`. -/
structure FFmt.Within (g f : FFmt) : Prop where
  mw : g.mw ≤ f.mw
  lo : g.bias + g.mw ≤ f.bias + f.mw
  hi : max g.topField 1 + f.bias + 2 ≤ 2 ^ f.ew + g.bias

theorem FFmt.Ieee.cvt_of_within {f g : FFmt} (hf : f.Ieee) (hg : g.Within f) (mode : Nat) {w m : Nat} {neg : Bool} {e : Int}
    (h : g.decode w = .fin neg m e) :
    ∃ v, v < (2 ^ f.ew - 1) * 2 ^ f.mw ∧ f.cvt mode (g.decode w) = (f.withSign neg v, 0) ∧ f.mag v = m * twoPow e := by
  obtain ⟨hm, hlo, hhi⟩ := FFmt.decode_eq_fin h
  obtain ⟨hgmw, hglo, hghi⟩ := hg
  rw [h]
  exact hf.roundDy_of_held mode neg (j := 0) (by simp) hm hgmw (by omega) (by omega)

/-! ## Elements fit the width of their format -/

/-- The special encodings leave the sign bit alone. -/
structure FFmt.Fits (f : FFmt) : Prop where
  nan : f.nan < f.signBit
  maxFin : f.maxFin < f.signBit
  inf : ∀ i, f.inf = some i → i < f.signBit

theorem fp16_fits : fp16.Fits := ⟨by decide, by decide, by decide⟩
theorem bf16_fits : bf16.Fits := ⟨by decide, by decide, by decide⟩
theorem f8e4_fits : f8e4.Fits := ⟨by decide, by decide, by decide⟩
theorem f8e5_fits : f8e5.Fits := ⟨by decide, by decide, by decide⟩

theorem FFmt.withSign_lt (f : FFmt) (neg : Bool) {w : Nat} (h : w < f.signBit) : f.withSign neg w < 2 * f.signBit := by
  unfold FFmt.withSign; split <;> omega

section
variable {f : FFmt} (hf : f.Fits) (mode : Nat)
include hf

theorem FFmt.Fits.nan_lt : f.nan < 2 * f.signBit := by have := hf.nan; omega

theorem FFmt.Fits.overflow_lt (neg : Bool) : (f.overflow mode neg).1 < 2 * f.signBit := by
  unfold FFmt.overflow
  dsimp only
  split
  · next i hi =>
    refine f.withSign_lt neg ?_
    split
    · exact hf.inf i hi
    · exact hf.maxFin
  · split
    · exact hf.nan_lt
    · exact f.withSign_lt neg hf.maxFin

theorem FFmt.Fits.round_lt (neg : Bool) (a : Nat) (e : Int) : (f.round mode neg a e).1 < 2 * f.signBit := by
  unfold FFmt.round
  simp only
  split
  · exact hf.overflow_lt mode neg
  · exact f.withSign_lt neg (Nat.lt_of_le_of_lt (Nat.not_lt.1 ‹_›) hf.maxFin)

theorem FFmt.Fits.roundDy_lt (x : Dy) (zeroNeg : Bool) : (f.roundDy mode x zeroNeg).1 < 2 * f.signBit := by
  unfold FFmt.roundDy
  split
  · exact f.withSign_lt zeroNeg (Nat.two_pow_pos _)
  · exact hf.round_lt mode _ _ _

theorem FFmt.Fits.settle_lt (sig bad : Bool) (terms : List FVal) : (f.settle mode sig bad terms).1 < 2 * f.signBit := by
  unfold FFmt.settle
  split
  · exact hf.nan_lt
  split
  · exact hf.nan_lt
  split
  · exact hf.nan_lt
  split
  · split
    · next i hi => exact f.withSign_lt _ (hf.inf i hi)
    · exact hf.nan_lt
  · exact hf.roundDy_lt mode _ _

theorem FFmt.Fits.cvt_lt (x : FVal) : (f.cvt mode x).1 < 2 * f.signBit := by
  unfold FFmt.cvt
  split
  · exact hf.nan_lt
  · split
    · next i hi => exact f.withSign_lt _ (hf.inf i hi)
    · exact hf.nan_lt
  · exact hf.roundDy_lt mode _ _

theorem FFmt.Fits.cvtn_lt (x : FVal) : (f.cvtn mode x).1 < 2 * f.signBit := by
  unfold FFmt.cvtn
  split
  · exact hf.nan_lt
  · exact f.withSign_lt _ hf.maxFin
  · split
    · exact f.withSign_lt _ hf.maxFin
    · exact hf.roundDy_lt mode _ _

end

end Sys2Proof.Machine
end

section
/-! Packed floating-point arithmetic (08, R187, R188): each element is settled by R180. -/
namespace Sys2Proof.Machine

/-! ## Settling (R180) -/

theorem FVal.isNan_of_isSig {x : FVal} (h : x.isSig = true) : x.isNan = true := by
  cases x <;> simp_all [FVal.isSig, FVal.isNan]

theorem FVal.isInf_and_neg_iff (x : FVal) : (x.isInf && x.neg) = true ↔ x = .inf true := by
  cases x <;> simp [FVal.isInf, FVal.neg]

theorem FVal.isInf_and_not_neg_iff (x : FVal) : (x.isInf && !x.neg) = true ↔ x = .inf false := by
  cases x <;> simp [FVal.isInf, FVal.neg]

theorem any_neg_inf_iff (terms : List FVal) : terms.any (fun t => t.isInf && t.neg) = true ↔ .inf true ∈ terms := by
  simp only [List.any_eq_true, FVal.isInf_and_neg_iff, exists_eq_right]

theorem any_pos_inf_iff (terms : List FVal) : terms.any (fun t => t.isInf && !t.neg) = true ↔ .inf false ∈ terms := by
  simp only [List.any_eq_true, FVal.isInf_and_not_neg_iff, exists_eq_right]

/-- The model's settling is R180's, where a term is a NaN just when an operand is, products 0 × ∞ apart. -/
theorem FFmt.settle_settled (f : FFmt) (mode : Nat) {ops terms : List FVal} {bad : Bool}
    (hnan : bad = false → terms.any FVal.isNan = ops.any FVal.isNan) :
    Settled f mode ops terms bad (f.settle mode (ops.any FVal.isSig) bad terms) where
  invalid hb := if_pos hb
  signalling hs := by
    have hn : ops.any FVal.isNan = true := by
      obtain ⟨x, hx, hsig⟩ := List.any_eq_true.1 hs
      exact List.any_eq_true.2 ⟨x, hx, FVal.isNan_of_isSig hsig⟩
    cases bad
    · simp [FFmt.settle, hnan rfl, hn, hs]
    · rfl
  quiet hb hs hn := by simp [FFmt.settle, hb, hnan hb, hn, hs]
  clash hn hpos hneg := by
    cases bad
    · simp [FFmt.settle, hnan rfl, hn, (any_neg_inf_iff terms).2 hneg, (any_pos_inf_iff terms).2 hpos]
    · rfl
  infinite hb hn neg i hi hin hout := by
    have hany : terms.any FVal.isInf = true := List.any_eq_true.2 ⟨_, hin, rfl⟩
    cases neg
    · have h1 := mt (any_neg_inf_iff terms).1 hout
      rw [Bool.not_eq_true] at h1
      simp [FFmt.settle, hb, hnan hb, hn, h1, hany, hi]
    · have h1 := mt (any_pos_inf_iff terms).1 hout
      rw [Bool.not_eq_true] at h1
      simp [FFmt.settle, hb, hnan hb, hn, h1, (any_neg_inf_iff terms).2 hin, hany, hi]
  finite hb hn hfin := by
    have hinf : terms.any FVal.isInf = false := by simpa using hfin
    have hneg : terms.any (fun t => t.isInf && t.neg) = false := by simpa using fun x hx h => absurd h (by simp [hfin x hx])
    simp [FFmt.settle, hb, hnan hb, hn, hinf, hneg]

/-- A product is a NaN just when a factor is, 0 × ∞ apart. -/
theorem FVal.mul_isNan {x y : FVal} (h : (x.mul y).2 = false) : (x.mul y).1.isNan = (x.isNan || y.isNan) := by
  cases x with
  | nan s => rfl
  | inf n =>
    cases y with
    | nan s => rfl
    | inf n' => rfl
    | fin n' m e => by_cases hm : m = 0 <;> simp_all [FVal.mul, FVal.isZero, FVal.isNan]
  | fin n m e =>
    cases y with
    | nan s => rfl
    | inf n' => by_cases hm : m = 0 <;> simp_all [FVal.mul, FVal.isZero, FVal.isNan]
    | fin n' m' e' => rfl

theorem fAdd_settled (f : FFmt) (mode : Nat) (x y : FVal) : Settled f mode [x, y] [x, y] false (fAdd f mode x y) := by
  have h := f.settle_settled mode (ops := [x, y]) (terms := [x, y]) (bad := false) (fun _ => rfl)
  simpa [fAdd] using h

theorem fFma_settled (f : FFmt) (mode : Nat) (x y z : FVal) :
    Settled f mode [x, y, z] [(x.mul y).1, z] (x.mul y).2 (fFma f mode x y z) := by
  have h := f.settle_settled mode (ops := [x, y, z]) (terms := [(x.mul y).1, z]) (bad := (x.mul y).2)
    (fun hb => by simp [FVal.mul_isNan hb, Bool.or_assoc])
  simpa [fFma, Bool.or_assoc] using h

theorem fDot_settled (mode : Nat) (x0 y0 x1 y1 z : FVal) :
    Settled fp32 mode [x0, y0, x1, y1, z] [z, (x0.mul y0).1, (x1.mul y1).1] ((x0.mul y0).2 || (x1.mul y1).2)
      (fDot mode x0 y0 x1 y1 z) := by
  have h := fp32.settle_settled mode (ops := [x0, y0, x1, y1, z]) (terms := [z, (x0.mul y0).1, (x1.mul y1).1])
    (bad := (x0.mul y0).2 || (x1.mul y1).2) (fun hb => by
      obtain ⟨h0, h1⟩ := Bool.or_eq_false_iff.1 hb
      simp [FVal.mul_isNan h0, FVal.mul_isNan h1, Bool.or_assoc, Bool.or_comm])
  simpa [fDot, Bool.or_assoc] using h

/-! ## Packed elements (R46) -/

/-- A floating-point instruction whose element and flags in each lane are as `P` says. -/
theorem completes_of_fop {s : State} (hc : s.cohortOk) {j : Instr} {d : BitVec 7} {srcs : List Nat} {n : BitVec 1} {g : Nat} {f : Nat → FRes}
    (he : exec j s = .next (s.fop d srcs n g f)) :
    Completes s j (fun t => VecDone s t [s.curRill.vname d.toNat] (s.acting g) (fun _ l => BitVec.ofNat 32 (f l).1)
      (fun l => if n = 1 then 0 else (f l).2)) :=
  ⟨_, he, s.fop_done hc d srcs n g f⟩

/-- Two elements of 16 bits share a register. -/
theorem pack2_of_lt {x : FRes} (y : FRes) (hx : x.1 < 65536) : pack2 x y = (x.1 + 65536 * y.1, x.2 ||| y.2) := by
  rw [pack2, Nat.mod_eq_of_lt hx]

/-- Settles O8: each instruction is one floating-point write (`completes_of_fop`); its elements are settled by R180
(`FFmt.settle_settled`) and fit their halves of the register (`FFmt.Fits.settle_lt`). -/
theorem packedFloatArithmeticSettlesEachElement : Obligations.PackedFloatArithmeticSettlesEachElement := by
  unfold Obligations.PackedFloatArithmeticSettlesEachElement
  intro s d a b r n g hc done both add2 fma2 dot2
  have hpack : ∀ {j : Instr} {srcs : List Nat} {e : Nat → Nat → FRes} {P : Nat → Nat → FRes → Prop},
      (∀ i l, (e i l).1 < 65536) → (∀ i l, P i l (e i l)) → exec j s = .next (s.fop d srcs n g.toNat (fun l => pack2 (e 0 l) (e 1 l))) →
      done j (both P) := fun {j srcs e P} hlt hP he =>
    ⟨_, _, fun l => ⟨e 0 l, e 1 l, hP 0 l, hP 1 l, by rw [pack2_of_lt _ (hlt 0 l)], hlt 0 l, hlt 1 l, rfl⟩, completes_of_fop hc he⟩
  have hadd : ∀ {F : FFmt} {j : Instr}, F.Fits → 2 * F.signBit = 65536 → exec j s = .next (s.fadd2 F d a b n g) → done j (add2 F) :=
    fun hF hw he => hpack (fun i l => hw ▸ hF.settle_lt ..) (fun i l => fAdd_settled ..) he
  have hfma : ∀ {F : FFmt} {j : Instr}, F.Fits → 2 * F.signBit = 65536 → exec j s = .next (s.ffma2 F d a b n g) → done j (fma2 F) :=
    fun hF hw he => hpack (fun i l => hw ▸ hF.settle_lt ..) (fun i l => fFma_settled ..) he
  have hdot : ∀ {F : FFmt} {j : Instr}, exec j s = .next (s.fdot2 F d a b n g) → done j (dot2 F) := fun he =>
    ⟨_, _, fun l => ⟨_, fDot_settled .., rfl, rfl⟩, completes_of_fop hc he⟩
  exact ⟨hadd fp16_fits rfl rfl, hadd bf16_fits rfl rfl, hfma fp16_fits rfl rfl, hfma bf16_fits rfl rfl, hdot rfl, hdot rfl⟩

end Sys2Proof.Machine
end

section
/-! Register instructions of several steps (08): writes of vector registers and changes of threads, one after the other. -/
namespace Sys2Proof.Machine

/-- Steps of a register instruction so far: the issuing rill's vector registers hold `V` and its threads are `T`; only registers
among `dests` may have changed their uniform form, and nothing else has changed. -/
structure RegsDone (s t : State) (dests : List Nat) (V : Nat → Nat → Word) (T : Nat → Thread) : Prop where
  only : OnlyRegs s t
  foreign : ForeignVregs s t
  kregs : ∀ n, t.curRill.kreg n = s.curRill.kreg n
  vregs : ∀ n l, l < 64 → t.vreg s.cur.rill n l = V n l
  uform : ∀ n, n ∉ dests → (n ∈ t.curRill.uform ↔ n ∈ s.curRill.uform)
  threads : ∀ l, t.curRill.thread l = T l

section
variable {s t : State} {dests : List Nat} {V : Nat → Nat → Word} {T : Nat → Thread}

theorem RegsDone.refl (s : State) (dests : List Nat) : RegsDone s s dests (s.vreg s.cur.rill) s.curRill.thread where
  only := (ThreadsDone.refl s).only
  foreign _ _ _ _ := rfl
  kregs _ := rfl
  vregs _ _ _ := rfl
  uform _ _ := Iff.rfl
  threads _ := rfl

theorem RegsDone.cur (h : RegsDone s t dests V T) : t.cur = s.cur := State.cur_of_others h.only.state

theorem RegsDone.curRill (h : RegsDone s t dests V T) : t.curRill = t.rill s.cur.rill := by
  unfold State.curRill; rw [h.cur]

theorem RegsDone.congr (h : RegsDone s t dests V T) {V' : Nat → Nat → Word} {T' : Nat → Thread} (hV : ∀ n l, V n l = V' n l)
    (hT : ∀ l, T l = T' l) : RegsDone s t dests V' T' :=
  (funext hT : T = T') ▸ (funext fun n => funext (hV n) : V = V') ▸ h

/-- A further write of a register among `dests`. -/
theorem RegsDone.vwrite (h : RegsDone s t dests V T) {n : Nat} (hn : n ∈ dests) (u : Bool) (f : Nat → Word) {ls : List Nat}
    (hl : ∀ l ∈ ls, l < 64) :
    RegsDone s (t.vwrite s.cur.rill n u (ls.map (fun l => (l, f l)))) dests
      (fun m j => if m = n ∧ j ∈ ls then f j else V m j) T := by
  obtain ⟨hw, hv, hu⟩ := t.vwrite_spec s.cur.rill n u f ls hl
  have hr := h.curRill
  obtain ⟨⟨hothers, hrills, hcores, hself, -⟩, hforeign, hkregs, hvregs, huform, hthreads⟩ := h
  rw [hr] at hself hkregs huform hthreads
  generalize t.vwrite s.cur.rill n u (ls.map (fun l => (l, f l))) = t' at hw hv hu ⊢
  have hothers' : t'.others = s.others := hw.state.trans hothers
  have hr' : t'.curRill = { t.rill s.cur.rill with v := (t'.rill s.cur.rill).v, uform := (t'.rill s.cur.rill).uform } := by
    unfold State.curRill; rw [State.cur_of_others hothers']; exact hw.self
  refine ⟨⟨hothers', fun j hj => (hw.rills j hj).trans (hrills j hj), fun c => (hw.cores c).trans (hcores c), ?_,
    MemKept.of_others hothers'⟩, fun j m l hj => (hw.foreign j m l hj).trans (hforeign j m l hj), fun m => ?_,
    fun m l hl => ?_, fun m hm => ?_, fun l => ?_⟩
  · rw [hr']; exact hself
  · rw [hr']; exact hkregs m
  · rw [hv m l hl, hvregs m l hl]
  · rw [hr', ← huform m hm]
    have hne : m ≠ n := fun e => hm (e ▸ hn)
    exact (hu m).trans (by simp [hne])
  · rw [hr']; exact hthreads l

/-- Writes of consecutive registers. -/
theorem RegsDone.vwrites (h : RegsDone s t dests V T) {d : Nat} (u : Bool) (f : Nat → Nat → Word) {ls : List Nat}
    (hl : ∀ l ∈ ls, l < 64) (is : List Nat) (hd : ∀ i ∈ is, d + i ∈ dests) :
    RegsDone s (is.foldl (fun t i => t.vwrite s.cur.rill (d + i) u (ls.map (fun l => (l, f i l)))) t) dests
      (fun m j => if (∃ i ∈ is, m = d + i) ∧ j ∈ ls then f (m - d) j else V m j) T := by
  induction is generalizing t V with
  | nil => simpa using h
  | cons i is ih =>
    refine (ih (h.vwrite (hd i (by simp)) u (f i) hl) (fun j hj => hd j (by simp [hj]))).congr (fun m j => ?_) (fun _ => rfl)
    by_cases hi : m = d + i
    · subst hi
      by_cases hj : j ∈ ls <;> simp [hj]
    · simp [hi]

/-- A further change of threads. -/
theorem RegsDone.mapThreads (h : RegsDone s t dests V T) {ls : List Nat} (hl : ls.Nodup) (g : Nat → Thread → Thread) :
    RegsDone s (t.mapThreads s.cur.rill ls g) dests V (fun l => if l ∈ ls then g l (T l) else T l) := by
  have hr := h.curRill
  have hcur := h.cur
  obtain ⟨⟨hothers, hrills, hcores, hself, -⟩, hforeign, hkregs, hvregs, huform, hthreads⟩ := h
  have hr' : (t.mapThreads s.cur.rill ls g).curRill = t.curRill.mapThreads ls g := by
    rw [hr]; unfold State.curRill; rw [State.mapThreads_cur, hcur, State.mapThreads_rill, if_pos rfl]
  have hframe := Rill.mapThreads_frame t.curRill ls g
  refine ⟨⟨hothers, fun j hj => ?_, hcores, ?_, MemKept.of_others hothers⟩, fun j n l hj => ?_, fun n => ?_, fun n l hl => ?_,
    fun n hn => ?_, fun l => ?_⟩
  · rw [State.mapThreads_rill, if_neg (Ne.symm hj)]; exact hrills j hj
  · rw [hr', hframe]; exact hself
  · rw [State.mapThreads_vreg]; exact hforeign j n l hj
  · rw [hr', hframe]; exact hkregs n
  · rw [State.mapThreads_vreg]; exact hvregs n l hl
  · rw [hr', hframe]; exact huform n hn
  · rw [hr', Rill.thread_mapThreads _ _ _ hl, hthreads]

theorem VecDone.congr {lanes : List Nat} {val val' : Nat → Nat → Word} {fl fl' : Nat → BitVec 5} (h : VecDone s t dests lanes val fl)
    (hval : ∀ n l, val n l = val' n l) (hfl : ∀ l, fl l = fl' l) : VecDone s t dests lanes val' fl' :=
  (funext fun n => funext (hval n) : val = val') ▸ (funext hfl : fl = fl') ▸ h

/-- The steps make a whole vector instruction. -/
theorem RegsDone.vecDone (h : RegsDone s t dests V T) {lanes : List Nat} {val : Nat → Nat → Word} {fl : Nat → BitVec 5}
    (hV : ∀ n l, V n l = if n ∈ dests ∧ l ∈ lanes then val n l else s.vreg s.cur.rill n l)
    (hT : ∀ l, T l = { s.moved l with flags := if l ∈ lanes then (s.curRill.thread l).flags ||| fl l else (s.curRill.thread l).flags }) :
    VecDone s t dests lanes val fl where
  only := h.only
  foreign := h.foreign
  kregs := h.kregs
  vregs n l hl := (h.vregs n l hl).trans (hV n l)
  uform := h.uform
  threads l := (h.threads l).trans (hT l)

/-- The flags are raised and the cohort moves on. -/
theorem RegsDone.raise_advance (h : RegsDone s t dests V s.curRill.thread) (hc : s.cohortOk) {lanes : List Nat} (hl : lanes.Nodup)
    {val : Nat → Nat → Word} {fl : Nat → BitVec 5}
    (hV : ∀ n l, V n l = if n ∈ dests ∧ l ∈ lanes then val n l else s.vreg s.cur.rill n l) :
    VecDone s (t.raiseFlags s.cur.rill lanes fl).advance dests lanes val fl := by
  have h2 := (h.mapThreads hl (fun l x => { x with flags := x.flags ||| fl l })).mapThreads hc.1 (fun _ x => { x with pc := s.cur.pc + 4 })
  have he : (t.raiseFlags s.cur.rill lanes fl).advance = (t.raiseFlags s.cur.rill lanes fl).mapThreads s.cur.rill s.cur.lanes
      (fun _ x => { x with pc := s.cur.pc + 4 }) := by
    unfold State.advance State.moveTo State.raiseFlags; rw [State.mapThreads_cur, h.cur]
  rw [he]
  refine h2.vecDone hV fun l => ?_
  unfold State.moved
  by_cases hm : l ∈ s.cur.lanes <;> by_cases ha : l ∈ lanes <;> simp [hm, ha]

end

end Sys2Proof.Machine
end

section
/-! Conversions (08, R190 to R194): the rows of Table 2-5, and the places of the elements. -/
namespace Sys2Proof.Machine

/-! ## Integers (R47) -/

theorem int_two_pow_pos (n : Nat) : (0 : Int) < 2 ^ n := Int.pow_pos (by decide)

theorem intBits_cast (n : Nat) (x : Int) : (intBits n x : Int) = x % 2 ^ n :=
  Int.toNat_of_nonneg (Int.emod_nonneg _ (Int.ne_of_gt (int_two_pow_pos n)))

theorem intBits_lt (n : Nat) (x : Int) : intBits n x < 2 ^ n := by
  have h := Int.emod_lt_of_pos x (int_two_pow_pos n)
  rw [← intBits_cast] at h
  exact_mod_cast h

theorem width_pos (t : NumTy) : 0 < t.width := by cases t <;> decide

theorem two_pow_width (t : NumTy) : (2 : Int) ^ t.width = 2 * 2 ^ (t.width - 1) :=
  (congrArg _ (Nat.sub_add_cancel (width_pos t)).symm).trans (Int.pow_succ' ..)

/-- The bits of a number read as a number that is the same modulo 2^n. -/
theorem tyInt_intBits (t : NumTy) (x : Int) : ∃ q : Int, tyInt t (intBits t.width x) = x + q * 2 ^ t.width := by
  have hx : (intBits t.width x : Int) = x + -(x / 2 ^ t.width) * 2 ^ t.width := by
    rw [intBits_cast, Int.emod_def, Int.neg_mul, Int.mul_comm]; rfl
  unfold tyInt
  split
  · exact ⟨-(x / 2 ^ t.width) - 1, by rw [hx, Int.sub_mul, Int.one_mul]; omega⟩
  · exact ⟨_, hx⟩

/-- A number of the type's range is read back. -/
theorem tyInt_intBits_of_mem {t : NumTy} {x : Int} (hlo : tyLo t ≤ x) (hhi : x ≤ tyHi t) : tyInt t (intBits t.width x) = x := by
  have h2 := two_pow_width t
  have hcast : ((2 ^ (t.width - 1) : Nat) : Int) = 2 ^ (t.width - 1) := by push_cast; rfl
  have hpos : (0 : Int) < 2 ^ (t.width - 1) := int_two_pow_pos _
  have hb := intBits_cast t.width x
  unfold tyInt
  unfold tyLo at hlo
  unfold tyHi at hhi
  cases hs : t.isSigned
  · rw [hs, if_neg Bool.false_ne_true] at hlo hhi
    rw [Bool.false_and, if_neg Bool.false_ne_true, hb, Int.emod_eq_of_lt hlo (by omega)]
  · rw [hs, if_pos rfl] at hlo hhi
    by_cases hneg : x < 0
    · rw [← Int.add_emod_right, Int.emod_eq_of_lt (by omega) (by omega)] at hb
      rw [Bool.true_and, if_pos (decide_eq_true (by omega)), hb, Int.add_sub_cancel]
    · rw [Int.emod_eq_of_lt (Int.not_lt.1 hneg) (by omega)] at hb
      rw [Bool.true_and, if_neg (fun h => by have := of_decide_eq_true h; omega), hb]

theorem tyLo_le_tyHi (t : NumTy) : tyLo t ≤ tyHi t := by
  have hpos : (0 : Int) < 2 ^ (t.width - 1) := int_two_pow_pos _
  have := two_pow_width t
  unfold tyLo tyHi
  split <;> omega

theorem tyInt_intBits_clamp (t : NumTy) (x : Int) : tyInt t (intBits t.width (tyClamp t x)) = tyClamp t x :=
  have h := tyLo_le_tyHi t
  tyInt_intBits_of_mem (by unfold tyClamp; omega) (by unfold tyClamp; omega)

theorem tyClamp_ne_iff (t : NumTy) (x : Int) : (tyClamp t x != x) = true ↔ x < tyLo t ∨ tyHi t < x := by
  have h := tyLo_le_tyHi t
  rw [bne_iff_ne]
  unfold tyClamp
  omega

/-! ## Table 2-5 (R60) -/

theorem not_float_of_isInt {t : NumTy} (h : t.isInt = true) : t.isFloat = false ∧ t.isSbi = false := by
  revert h
  cases t <;> decide

theorem not_float_of_isSbi {t : NumTy} (h : t.isSbi = true) : t.isFloat = false := by
  revert h
  cases t <;> decide

theorem FVal.exists_nan {v : FVal} (h : v.isNan = true) : ∃ sig, v = .nan sig := by
  cases v with
  | nan sig => exact ⟨sig, rfl⟩
  | inf neg => cases h
  | fin neg m e => cases h

/-- The model converts by Table 2-5: a row for each kind of source and destination. -/
theorem convert_table25 (narrow : Bool) (mode : Nat) (dt st : NumTy) (w x : Nat) :
    Table25 narrow mode dt st w x (convert narrow mode dt st w x) where
  intToFloat hs hd := by simp [convert, not_float_of_isInt hs, hd]
  intToInt hs hd := by
    simp only [convert, not_float_of_isInt hs, not_float_of_isInt hd, Bool.false_eq_true, if_false]
    refine ⟨trivial, intBits_lt .., ?_⟩
    by_cases hn : narrow = true ∧ dt.width ≤ st.width
    · simp only [hn, decide_true, Bool.and_self, if_true, true_and]; exact tyInt_intBits_clamp ..
    · rw [if_neg hn, if_neg (by simpa using hn)]; exact tyInt_intBits ..
  nanToInt hs hd hn := by
    obtain ⟨sig, hv⟩ := FVal.exists_nan hn
    simp [convert, hs, hv, not_float_of_isInt hd]
  infToInt hs hd neg hv := by
    have h := tyLo_le_tyHi dt
    simp only [convert, hs, hv, not_float_of_isInt hd, Bool.false_eq_true, if_false, if_true]
    exact ⟨trivial, tyInt_intBits_of_mem (by split <;> omega) (by split <;> omega)⟩
  finToInt hs hd neg m e hv := by
    simp only [convert, hs, hv, not_float_of_isInt hd, Bool.false_eq_true, if_false, if_true]
    refine ⟨tyInt_intBits_clamp .., ?_⟩
    simp only [tyClamp_ne_iff, Dy.isInt_iff mode, Dy.same_iff, Dy.val_int, FVal.dy]
  nanToFloat hs hd hn := by
    obtain ⟨sig, hv⟩ := FVal.exists_nan hn
    cases narrow <;> simp only [convert, hs, hd, hv, FFmt.cvt, FFmt.cvtn, FVal.isSig, Bool.false_eq_true, if_false, if_true]
  infToFloat hs hd neg hv := by
    cases narrow
    · cases hi : (tyFmt dt).inf <;> simp [convert, hs, hd, hv, hi, FFmt.cvt]
    · simp [convert, hs, hd, hv, FFmt.cvtn]
  finToFloat hs hd neg m e hv := by
    cases narrow
    · simp [convert, hs, hd, hv, FFmt.cvt, FVal.dy]
    · by_cases hx : (tyFmt dt).maxDy.lt ⟨m, e⟩ = true <;> simp [convert, hs, hd, hv, FFmt.cvtn, FVal.dy, FFmt.exceeds, hx]
  sbiNan hs hx := by simp [convert, not_float_of_isSbi hs, hs, hx]
  sbi hs hx := by
    intro v
    have hv : convert narrow mode dt st w x = if narrow && (tyFmt dt).exceeds v
        then ((tyFmt dt).withSign (decide (v.m < 0)) (tyFmt dt).maxFin, fNX) else (tyFmt dt).roundDy mode v false := by
      rw [convert, not_float_of_isSbi hs, if_neg Bool.false_ne_true, if_pos hs, if_neg (Nat.ne_of_lt hx)]
    have hc : (narrow && (tyFmt dt).exceeds v) = true ↔ narrow = true ∧ (tyFmt dt).maxDy.lt ⟨v.m.natAbs, v.e⟩ = true :=
      Bool.and_eq_true_iff
    rw [hv]
    by_cases h : (narrow && (tyFmt dt).exceeds v) = true
    · rw [if_pos h, if_pos (hc.1 h)]
    · rw [if_neg h, if_neg (mt hc.2 h)]

/-- The narrowing conversion between floating-point types. -/
theorem convert_narrow_float {dt st : NumTy} (hd : dt.isFloat = true) (hs : st.isFloat = true) (mode w x : Nat) :
    convert true mode dt st w x = (((tyFmt dt).cvtn mode ((tyFmt st).decode w)).1, ((tyFmt dt).cvtn mode ((tyFmt st).decode w)).2.1) := by
  rw [convert, if_pos hs, hd]; rfl

/-! ## Places of the elements (R191, R193, R194) -/

/-- The writes of both registers of a pair, said as one. -/
theorem ite_pair {α : Type} (n d : Nat) (P : Prop) [Decidable P] (lo hi old : α) :
    (if n = d + 1 ∧ P then hi else if n = d ∧ P then lo else old) =
      if n ∈ [d, d + 1] ∧ P then (if n = d then lo else hi) else old := by
  by_cases h0 : n = d
  · simp [h0]
  · by_cases h1 : n = d + 1 <;> simp [h0, h1]

theorem ite_single {α : Type} (n d : Nat) (P : Prop) [Decidable P] (lo hi old : α) :
    (if n = d ∧ P then lo else old) = if n ∈ [d] ∧ P then (if n = d then lo else hi) else old := by
  by_cases h0 : n = d <;> simp [h0]

/-- CVT and CVTN write one register, or both of a pair, and raise the flags. -/
theorem cvtOp_done {s : State} (hc : s.cohortOk) (narrow : Bool) (d a : BitVec 7) (t4 s4 : BitVec 4) (e : BitVec 3) :
    let dt := NumTy.ofCode t4
    let st := NumTy.ofCode s4
    let dn := s.curRill.vname d.toNat
    let f := fun l => convert narrow s.mode dt st (s.cvtSrc st a e.toNat l) ((s.src d.toNat 0 l).toNat % 256)
    VecDone s (s.cvtOp narrow d a t4.toNat s4.toNat e.toNat) (if dt.width = 64 then [dn, dn + 1] else [dn]) (s.acting 0)
      (fun i l => if i = dn then (placed dt (f l).1).truncate 32 else (placed dt (f l).1).extractLsb' 32 32) (fun l => (f l).2) := by
  intro dt st dn f
  have hlt : ∀ l ∈ s.acting 0, l < 64 := fun l => State.acting_lt hc
  unfold State.cvtOp
  simp only [BitVec.ofNat_toNat, BitVec.setWidth_eq]
  by_cases hw : dt.width = 64
  · rw [if_pos hw, if_pos hw]
    exact (((RegsDone.refl s [dn, dn + 1]).vwrite (by simp [dn]) _ _ hlt).vwrite (by simp [dn]) _ _ hlt).raise_advance hc
      (State.acting_nodup hc 0) fun n l => ite_pair ..
  · rw [if_neg hw, if_neg hw]
    exact ((RegsDone.refl s [dn]).vwrite (by simp [dn]) _ _ hlt).raise_advance hc (State.acting_nodup hc 0) fun n l => ite_single ..

/-- PACK: two narrowed elements side by side in the half that `h` selects. -/
theorem packed_half {x y : Nat} (hx : x < 256) (hy : y < 256) (h : BitVec 1) (old : Word) :
    BitVec.ofNat 32 (if h = 0 then old.toNat / 65536 * 65536 + (x + 256 * y) else (x + 256 * y) * 65536 + old.toNat % 65536) =
      if h = 0 then old.extractLsb' 16 16 ++ BitVec.ofNat 16 (x + 256 * y) else BitVec.ofNat 16 (x + 256 * y) ++ old.extractLsb' 0 16 := by
  have hhalf : x + 256 * y < 65536 := by omega
  have hold := old.isLt
  apply BitVec.eq_of_toNat_eq
  split
  · rw [BitVec.toNat_append, BitVec.extractLsb'_toNat, BitVec.toNat_ofNat, BitVec.toNat_ofNat, Nat.shiftRight_eq_div_pow,
      Nat.mod_eq_of_lt (a := x + 256 * y) hhalf, ← Nat.shiftLeft_add_eq_or_of_lt hhalf, Nat.shiftLeft_eq]
    omega
  · rw [BitVec.toNat_append, BitVec.extractLsb'_toNat, BitVec.toNat_ofNat, BitVec.toNat_ofNat, Nat.shiftRight_zero,
      Nat.mod_eq_of_lt (a := x + 256 * y) hhalf, ← Nat.shiftLeft_add_eq_or_of_lt (Nat.mod_lt _ (by decide)), Nat.shiftLeft_eq]
    omega

theorem packOp_completes {s : State} (hc : s.cohortOk) {F : FFmt} (hF : F.Fits) (hw : 2 * F.signBit = 256) {j : Instr} {d a b : BitVec 7}
    {h : BitVec 1} {g : BitVec 2} (he : exec j s = .next (s.packOp F d a b h g)) :
    let e := fun (i l : Nat) => F.cvtn s.mode (s.fsrc (if i = 0 then a else b) l)
    Completes s j (fun t => VecDone s t [s.curRill.vname d.toNat] (s.acting g.toNat)
      (fun _ l =>
        let half : BitVec 16 := BitVec.ofNat 16 ((e 0 l).1 + 256 * (e 1 l).1)
        let old := s.src d.toNat 0 l
        if h = 0 then old.extractLsb' 16 16 ++ half else half ++ old.extractLsb' 0 16)
      (fun l => (e 0 l).2.1 ||| (e 1 l).2.1)) := by
  intro e
  obtain ⟨t, ht, hdone⟩ := completes_of_fop hc he
  have hlt : ∀ i l, (e i l).1 < 256 := fun i l => hw ▸ hF.cvtn_lt ..
  exact ⟨t, ht, hdone.congr (fun _ l => packed_half (hlt 0 l) (hlt 1 l) h _) fun _ => if_neg (by decide)⟩

/-- UNPACK raises NV where one of its elements does. -/
theorem foldl_flags {fl : Nat → BitVec 5} {p : Nat → Bool} (hfl : ∀ i, fl i = if p i then fNV else 0) (is : List Nat) (x : Bool) :
    is.foldl (fun x i => x ||| fl i) (if x then fNV else 0) = if x || is.any p then fNV else 0 := by
  induction is generalizing x with
  | nil => rw [List.any_nil, Bool.or_false]; rfl
  | cons i is ih =>
    have hstep : (if x then fNV else 0) ||| fl i = if x || p i then fNV else 0 := by
      rw [hfl]; cases x <;> cases p i <;> rfl
    rw [List.foldl_cons, hstep, ih, List.any_cons, Bool.or_assoc]

/-- The elements that UNPACK delivers: those of its source, exactly. -/
theorem cvt_f8 {S F : FFmt} (hF : F.Ieee) (hS : S.Within F) (w : Nat) :
    let v := S.decode w
    let r := F.cvt 0 v
    (v.isNan = true → r.1 = F.nan) ∧ (∀ neg, v = .inf neg → F.decode r.1 = .inf neg) ∧
      (∀ neg m e, v = .fin neg m e → (F.decode r.1).dy.same v.dy = true ∧ (F.decode r.1).neg = neg) ∧
      r.2 = if v.isSig then fNV else 0 := by
  intro v r
  cases hv : v with
  | nan sig =>
    have hr : r = (F.nan, if sig then fNV else 0) := by unfold r; rw [hv]; rfl
    exact ⟨fun _ => by rw [hr], nofun, nofun, by rw [hr]; rfl⟩
  | inf n =>
    have hr : r = (F.withSign n ((2 ^ F.ew - 1) * 2 ^ F.mw), 0) := by unfold r; rw [hv, FFmt.cvt, hF.inf]
    refine ⟨nofun, fun neg h => ?_, nofun, by rw [hr]; rfl⟩
    rw [hr, hF.decode_inf]; exact h
  | fin n m e =>
    obtain ⟨x, hx, hr, hmag⟩ := hF.cvt_of_within hS 0 hv
    have hdec : F.decode r.1 = .fin n (F.mant x) (F.expo x) := by unfold r; rw [hr]; exact F.decode_fin n hx
    refine ⟨nofun, nofun, fun neg m' e' h => ?_, by unfold r; rw [hr]; rfl⟩
    cases h
    rw [hdec]
    refine ⟨?_, rfl⟩
    rw [Dy.same_iff, F.val_fin, hmag]
    exact (FVal.val_fin ..).symm

/-- The registers of UNPACK, which writes them one after the other (R194). -/
theorem mem_unpackDests (wide : Prop) [Decidable wide] (n d : Nat) :
    (∃ i ∈ List.range (if wide then 4 else 2), n = d + i) ↔ n ∈ if wide then [d, d + 1, d + 2, d + 3] else [d, d + 1] := by
  by_cases h : wide <;> simp [h, List.range_succ]

/-- A register of UNPACK holds one element of 32 bits or two of 16. -/
theorem unpacked_word {P : Prop} [Decidable P] (x : Nat) {y y' : Nat} (h : ¬P → y < 65536) :
    BitVec.ofNat 32 (if P then x else y % 65536 + 65536 * y') = if P then BitVec.ofNat 32 x else BitVec.ofNat 32 (y + 65536 * y') := by
  by_cases hP : P
  · rw [if_pos hP, if_pos hP]
  · rw [if_neg hP, if_neg hP, Nat.mod_eq_of_lt (h hP)]

theorem execUnpack_completes {s : State} (hc : s.cohortOk) (d a b : BitVec 7) (z : BitVec 1) {F : FFmt}
    (hF : tyFmt (NumTy.ofCode (b.truncate 4)) = F) :
    let dn := s.curRill.vname d.toNat
    let el := fun i l => F.cvt 0 ((if z = 0 then f8e4 else f8e5).decode ((s.src a.toNat 0 l).toNat / 256 ^ i % 256))
    Completes s (.unpack d a b z) (fun t => VecDone s t
      (if b.toNat = 8 then [dn, dn + 1, dn + 2, dn + 3] else [dn, dn + 1]) (s.acting 0)
      (fun i l => BitVec.ofNat 32 (if b.toNat = 8 then (el (i - dn) l).1
        else (el (2 * (i - dn)) l).1 % 65536 + 65536 * (el (2 * (i - dn) + 1) l).1))
      (fun l => (List.range 4).foldl (fun x i => x ||| (el i l).2) 0)) := by
  subst hF
  intro dn el
  refine ⟨_, rfl, ?_⟩
  simp only [beq_iff_eq]
  exact ((RegsDone.refl s _).vwrites _ _ (fun l => State.acting_lt hc) _ fun i hi => (mem_unpackDests ..).1 ⟨i, hi, rfl⟩).raise_advance
    hc (State.acting_nodup hc 0) fun n l => ite_congr (propext (and_congr_left fun _ => mem_unpackDests ..)) (fun _ => rfl) (fun _ => rfl)

theorem f8e4_within_fp32 : f8e4.Within fp32 := ⟨by decide, by decide, by decide⟩
theorem f8e4_within_fp16 : f8e4.Within fp16 := ⟨by decide, by decide, by decide⟩
theorem f8e4_within_bf16 : f8e4.Within bf16 := ⟨by decide, by decide, by decide⟩
theorem f8e5_within_fp32 : f8e5.Within fp32 := ⟨by decide, by decide, by decide⟩
theorem f8e5_within_fp16 : f8e5.Within fp16 := ⟨by decide, by decide, by decide⟩
theorem f8e5_within_bf16 : f8e5.Within bf16 := ⟨by decide, by decide, by decide⟩

/-- The format that UNPACK's field b names, which holds every number of the FP8 formats. -/
theorem unpack_format {b : BitVec 7} (hb : b.toNat = 8 ∨ b.toNat = 9 ∨ b.toNat = 10) (z : BitVec 1) :
    let F := if b.toNat = 8 then fp32 else if b.toNat = 9 then fp16 else bf16
    tyFmt (NumTy.ofCode (b.truncate 4)) = F ∧ F.Ieee ∧ (if z = 0 then f8e4 else f8e5).Within F ∧
      (b.toNat ≠ 8 → ∀ x, (F.cvt 0 x).1 < 65536) := by
  obtain h | h | h := hb
  · obtain rfl : b = 8 := BitVec.eq_of_toNat_eq h
    refine ⟨rfl, fp32_ieee, ?_, fun h => absurd rfl h⟩
    split
    · exact f8e4_within_fp32
    · exact f8e5_within_fp32
  · obtain rfl : b = 9 := BitVec.eq_of_toNat_eq h
    refine ⟨rfl, fp16_ieee, ?_, fun _ => fp16_fits.cvt_lt 0⟩
    split
    · exact f8e4_within_fp16
    · exact f8e5_within_fp16
  · obtain rfl : b = 10 := BitVec.eq_of_toNat_eq h
    refine ⟨rfl, bf16_ieee, ?_, fun _ => bf16_fits.cvt_lt 0⟩
    split
    · exact f8e4_within_bf16
    · exact f8e5_within_bf16

/-- Settles O9: CVT, CVTN and PACK deliver what `convert` makes, which is Table 2-5 (`convert_table25`), and UNPACK converts to a
format that holds every FP8 number (`cvt_f8`); each writes its registers one after the other (`RegsDone`). -/
theorem conversionsFollowTheirTable : Obligations.ConversionsFollowTheirTable := by
  unfold Obligations.ConversionsFollowTheirTable
  intro s d a b t4 s4 e r h z g hc dt st dn elem cvt pack
  have hcvt : ∀ (narrow : Bool) {j : Instr}, exec j s = .next (s.cvtOp narrow d a t4.toNat s4.toNat e.toNat) → cvt narrow j := by
    intro narrow j he _
    refine ⟨_, fun l => convert_table25 .., _, he, (cvtOp_done hc narrow d a t4 s4 e).congr (fun i l => ?_) fun l => rfl⟩
    simp only [placed, Bool.and_eq_true, decide_eq_true_eq]
    rfl
  have hpack : ∀ {F : FFmt} {ty : NumTy} {j : Instr}, F.Fits → 2 * F.signBit = 256 → (if F = f8e4 then NumTy.f8e4 else .f8e5) = ty →
      tyFmt ty = F → ty.isFloat = true → exec j s = .next (s.packOp F d a b h g) → pack F j := by
    intro F ty j hF hw hty hfmt hfl he
    refine ⟨fun i l =>
      ((F.cvtn s.mode (s.fsrc (if i = 0 then a else b) l)).1, (F.cvtn s.mode (s.fsrc (if i = 0 then a else b) l)).2.1),
      fun i l => ?_, packOp_completes hc hF hw he⟩
    have htab := convert_table25 true s.mode ty .f32 (s.src (if i = 0 then a else b).toNat 0 l).toNat 0
    rw [convert_narrow_float hfl rfl, hfmt] at htab
    exact hty ▸ htab
  refine ⟨hcvt false rfl, hcvt true rfl, hpack f8e4_fits rfl rfl rfl rfl rfl, hpack f8e5_fits rfl rfl rfl rfl rfl,
    ?_⟩
  intro hb F src
  obtain ⟨hdst, hF, hS, hfit⟩ := unpack_format hb z
  have hel := fun i l => cvt_f8 hF hS ((s.src a.toNat 0 l).toNat / 256 ^ i % 256)
  obtain ⟨t, ht, hdone⟩ := execUnpack_completes hc d a b z hdst
  refine ⟨fun i l => (F.cvt 0 (src i l)).1, fun i l => ?_, t, ht, hdone.congr (fun i l => ?_) fun l => ?_⟩
  · obtain ⟨hnan, hinf, hfin, -⟩ := hel i l
    exact ⟨hnan, hinf, hfin⟩
  · exact unpacked_word _ (hfit · _)
  · have hflags : ∀ i, (F.cvt 0 (src i l)).2 = if (src i l).isSig then fNV else 0 := fun i => by
      obtain ⟨-, -, -, h⟩ := hel i l
      exact h
    exact foldl_flags hflags _ false

end Sys2Proof.Machine
end

section
/-! Floating-point selection, scaling and compares (08, R176, R182 to R186). -/
namespace Sys2Proof.Machine

/-! ## FP32 words (R43, R44) -/

theorem toNat_eq_withSign (x : Word) : x.toNat = fp32.withSign x.msb (x.toNat % 2 ^ 31) := by
  have h : fp32.signBit = 2147483648 := by decide
  have := x.isLt
  unfold FFmt.withSign
  rw [BitVec.msb_eq_decide, h]
  split
  · next hm => have := of_decide_eq_true hm; omega
  · next hm => have := mt decide_eq_true hm; omega

/-- Bit 22 of a word is the top bit of its mantissa. -/
theorem bitOf_mant (x : Word) : bitOf 22 (x.toNat % 2 ^ 31 % 2 ^ 23) = x.getLsbD 22 := by
  unfold bitOf
  rw [BitVec.getLsbD, Nat.testBit_eq_decide_div_mod_eq]
  show decide _ = decide _
  exact decide_eq_decide.2 (by omega)

/-- The value of a word: a number below infinity, infinity, or a NaN above it. -/
theorem decode_word (x : Word) :
    (x.toNat % 2 ^ 31 < 0x7F800000 ∧
      fp32.decode x.toNat = .fin x.msb (fp32.mant (x.toNat % 2 ^ 31)) (fp32.expo (x.toNat % 2 ^ 31))) ∨
    (x.toNat % 2 ^ 31 = 0x7F800000 ∧ fp32.decode x.toNat = .inf x.msb) ∨
    (0x7F800000 < x.toNat % 2 ^ 31 ∧ fp32.decode x.toNat = .nan (!x.getLsbD 22)) := by
  have htop : (2 ^ fp32.ew - 1) * 2 ^ fp32.mw = 0x7F800000 := by decide
  have hx := toNat_eq_withSign x
  rcases Nat.lt_trichotomy (x.toNat % 2 ^ 31) 0x7F800000 with h | h | h
  · refine .inl ⟨h, ?_⟩
    conv => lhs; rw [hx]
    exact fp32.decode_fin x.msb (htop ▸ h)
  · refine .inr (.inl ⟨h, ?_⟩)
    rw [hx, h, ← htop]
    exact fp32_ieee.decode_inf x.msb
  · refine .inr (.inr ⟨h, ?_⟩)
    conv => lhs; rw [hx]
    rw [fp32_ieee.decode_nan x.msb (htop ▸ h) (Nat.mod_lt _ (by decide) : _ < 2 ^ 31), ← bitOf_mant]
    rfl

theorem isNan_decode (x : Word) : (fp32.decode x.toNat).isNan = nan32 x := by
  unfold nan32
  rcases decode_word x with ⟨h, hd⟩ | ⟨h, hd⟩ | ⟨h, hd⟩ <;> rw [hd]
  · exact (decide_eq_false (by omega)).symm
  · exact (decide_eq_false (by omega)).symm
  · exact (decide_eq_true h).symm

theorem isSig_decode (x : Word) : (fp32.decode x.toNat).isSig = snan32 x := by
  unfold snan32 nan32
  rcases decode_word x with ⟨h, hd⟩ | ⟨h, hd⟩ | ⟨h, hd⟩ <;> rw [hd]
  · rw [decide_eq_false (by omega)]; rfl
  · rw [decide_eq_false (by omega)]; rfl
  · rw [decide_eq_true h]; rfl

/-! ## The order of numbers is that of their encodings (R182) -/

/-- The number that orders a magnitude with its sign. -/
def keyOf (neg : Bool) (m : Nat) : Int := if neg then -1 - m else m

theorem key32_eq (x : Word) : key32 x = keyOf x.msb (x.toNat % 2 ^ 31) := by
  have := x.isLt
  unfold key32 keyOf
  rw [BitVec.msb_eq_decide]
  split
  · next hm => have := of_decide_eq_true hm; omega
  · next hm => have := mt decide_eq_true hm; omega

theorem mag_nonneg (f : FFmt) (m : Nat) : 0 ≤ f.mag m := Rat.mul_nonneg Rat.natCast_nonneg (Rat.le_of_lt (twoPow_pos _))

theorem mag_pos (f : FFmt) {m : Nat} (h : 0 < m) : 0 < f.mag m := f.mag_zero ▸ f.mag_lt_mag h

theorem mant_eq_zero_iff (f : FFmt) (m : Nat) : f.mant m = 0 ↔ m = 0 := by
  refine ⟨fun h => ?_, fun h => by rw [h]; exact Nat.zero_sub _⟩
  have hmag : f.mag m = 0 := by rw [FFmt.mag, h]; exact Rat.zero_mul _
  exact Nat.eq_zero_of_not_pos fun hpos => Rat.ne_of_gt (mag_pos f hpos) hmag

/-- Two numbers that are not both zero are ordered as their keys are. -/
theorem val_lt_iff (f : FFmt) (neg neg' : Bool) {m m' : Nat} (h : ¬(m = 0 ∧ m' = 0)) :
    signed neg (f.mag m) < signed neg' (f.mag m') ↔ keyOf neg m < keyOf neg' m' := by
  have hneg : ∀ k, -f.mag k ≤ 0 := fun k => Rat.neg_zero ▸ Rat.neg_le_neg (mag_nonneg f k)
  cases neg <;> cases neg' <;> simp only [signed, keyOf, if_true, if_false, Bool.false_eq_true]
  · rw [f.mag_lt_mag_iff]; omega
  · exact iff_of_false (Rat.not_lt.2 (Rat.le_trans (hneg m') (mag_nonneg f m))) (by omega)
  · refine iff_of_true ?_ (by omega)
    rcases Nat.eq_zero_or_pos m with h0 | h0
    · exact rat_lt_of_le_of_lt (hneg m) (mag_pos f (Nat.pos_of_ne_zero fun h1 => h ⟨h0, h1⟩))
    · exact rat_lt_of_lt_of_le (Rat.neg_zero ▸ Rat.neg_lt_neg (mag_pos f h0)) (mag_nonneg f m')
  · rw [Rat.neg_lt_neg_iff, f.mag_lt_mag_iff]; omega

/-- The model's order of two numbers: that of the keys, but that zeros may count as one. -/
theorem fLt_fin (f : FFmt) (zeros neg neg' : Bool) (m m' : Nat) :
    fLt zeros (.fin neg (f.mant m) (f.expo m)) (.fin neg' (f.mant m') (f.expo m')) =
      (decide (keyOf neg m < keyOf neg' m') && (zeros || !(m == 0 && m' == 0))) := by
  have hz : ∀ n k, (FVal.fin n (f.mant k) (f.expo k)).isZero = (k == 0) := fun n k => by
    rw [Bool.eq_iff_iff, FVal.isZero, beq_iff_eq, beq_iff_eq, mant_eq_zero_iff]
  unfold fLt
  simp only [hz]
  by_cases h : m = 0 ∧ m' = 0
  · obtain ⟨rfl, rfl⟩ := h
    cases zeros <;> cases neg <;> cases neg' <;> rfl
  · have hne : (m == 0 && m' == 0) = false := by simpa using h
    rw [hne, if_neg Bool.false_ne_true, Bool.not_false, Bool.or_true, Bool.and_true, Bool.eq_iff_iff, Dy.lt_iff, f.val_fin,
      f.val_fin, val_lt_iff f neg neg' h, decide_eq_true_eq]

/-- Infinity stands above every number, or with its sign below it. -/
theorem fLt_inf_fin (zeros neg neg' : Bool) {m e : Nat} (h : m < e) :
    fLt zeros (.inf neg) (.fin neg' (fp32.mant m) (fp32.expo m)) = decide (keyOf neg e < keyOf neg' m) := by
  cases neg <;> cases neg' <;> simp [fLt, keyOf] <;> omega

theorem fLt_fin_inf (zeros neg neg' : Bool) {m e : Nat} (h : m < e) :
    fLt zeros (.fin neg' (fp32.mant m) (fp32.expo m)) (.inf neg) = decide (keyOf neg' m < keyOf neg e) := by
  cases neg <;> cases neg' <;> simp [fLt, keyOf] <;> omega

theorem fLt_inf_inf (zeros neg neg' : Bool) (e : Nat) :
    fLt zeros (.inf neg) (.inf neg') = decide (keyOf neg e < keyOf neg' e) := by
  cases neg <;> cases neg' <;> simp [fLt, keyOf] <;> omega

theorem fLt_word (zeros : Bool) {x y : Word} (hx : nan32 x = false) (hy : nan32 y = false) :
    fLt zeros (fp32.decode x.toNat) (fp32.decode y.toNat) = (decide (key32 x < key32 y) && (zeros || !(zero32 x && zero32 y))) := by
  rw [key32_eq, key32_eq]
  unfold zero32
  have hle : ∀ w : Word, nan32 w = false → ¬0x7F800000 < w.toNat % 2 ^ 31 := fun w hw => of_decide_eq_false hw
  rcases decode_word x with ⟨h, hd⟩ | ⟨h, hd⟩ | ⟨h, -⟩
  · rcases decode_word y with ⟨h', hd'⟩ | ⟨h', hd'⟩ | ⟨h', -⟩
    · rw [hd, hd']; exact fLt_fin ..
    · rw [hd, hd', fLt_fin_inf zeros _ _ h, h']; simp
    · exact absurd h' (hle y hy)
  · rcases decode_word y with ⟨h', hd'⟩ | ⟨h', hd'⟩ | ⟨h', -⟩
    · rw [hd, hd', fLt_inf_fin zeros _ _ h', h]; simp
    · rw [hd, hd', fLt_inf_inf zeros _ _ 0x7F800000, h, h']; simp
    · exact absurd h' (hle y hy)
  · exact absurd h (hle x hx)

/-! ## FMIN and FMAX (R182) -/

/-- What FMIN and FMAX deliver: the NaN rules, and of two numbers the extreme one in the order `le` of the keys. -/
def IsExtreme (le : Int → Int → Prop) (x y w : Word) (fl : BitVec 5) : Prop :=
  fl = (if snan32 x || snan32 y then fNV else 0) ∧
  (nan32 x = true → nan32 y = true → w = 0x7FC00000) ∧
  (nan32 x = true → nan32 y = false → w = y) ∧ (nan32 x = false → nan32 y = true → w = x) ∧
  (nan32 x = false → nan32 y = false → (w = x ∨ w = y) ∧ le (key32 w) (key32 x) ∧ le (key32 w) (key32 y))

theorem fMinMax_isExtreme (isMin : Bool) (x y : Word) :
    IsExtreme (fun p q => if isMin then p ≤ q else q ≤ p) x y (BitVec.ofNat 32 (fMinMax isMin x y).1) (fMinMax isMin x y).2 := by
  unfold fMinMax IsExtreme
  simp only [isNan_decode, isSig_decode]
  cases hx : nan32 x <;> cases hy : nan32 y
  · have hxy := fLt_word true hx hy
    have hyx := fLt_word true hy hx
    simp only [Bool.true_or, Bool.and_true] at hxy hyx
    cases isMin <;> simp only [hxy, hyx, Bool.and_false, Bool.false_eq_true, if_false, if_true]
    · by_cases h : key32 x < key32 y <;> simp [h] <;> omega
    · by_cases h : key32 y < key32 x <;> simp [h] <;> omega
  · simp
  · simp
  · simp [fp32]

/-! ## FCLASS (R184) -/

/-- The class of a word: the number of the one bit that is set. -/
structure IsClass (x : Word) (e : Nat) : Prop where
  lt : e < 10
  negInf : e = 0 ↔ x = 0xFF800000
  posInf : e = 7 ↔ x = 0x7F800000
  negZero : e = 3 ↔ x = 0x80000000
  posZero : e = 4 ↔ x = 0
  sig : e = 8 ↔ snan32 x = true
  quiet : e = 9 ↔ nan32 x = true ∧ snan32 x = false
  sub : (e = 2 ∨ e = 5) ↔ 0 < x.toNat % 2 ^ 31 ∧ x.toNat % 2 ^ 31 < 2 ^ 23
  neg : e = 1 ∨ e = 2 → x.msb = true
  pos : e = 5 ∨ e = 6 → x.msb = false

/-- The classes of the words that are no NaNs are ranges of encodings. -/
def InClass (n e : Nat) : Prop :=
  (e = 0 ∧ n = 0xFF800000) ∨ (e = 1 ∧ 0x80800000 ≤ n ∧ n < 0xFF800000) ∨ (e = 2 ∧ 0x80000000 < n ∧ n < 0x80800000) ∨
  (e = 3 ∧ n = 0x80000000) ∨ (e = 4 ∧ n = 0) ∨ (e = 5 ∧ 0 < n ∧ n < 0x00800000) ∨
  (e = 6 ∧ 0x00800000 ≤ n ∧ n < 0x7F800000) ∨ (e = 7 ∧ n = 0x7F800000)

theorem eq_ofNat_iff (x : Word) {n : Nat} (hn : n < 2 ^ 32) : x = BitVec.ofNat 32 n ↔ x.toNat = n := by
  rw [← BitVec.toNat_inj, BitVec.toNat_ofNat, Nat.mod_eq_of_lt hn]

/-- The words that are classes of their own. -/
theorem single_words_iff (x : Word) : (x = 0xFF800000 ↔ x.toNat = 0xFF800000) ∧ (x = 0x7F800000 ↔ x.toNat = 0x7F800000) ∧
    (x = 0x80000000 ↔ x.toNat = 0x80000000) ∧ (x = 0 ↔ x.toNat = 0) :=
  ⟨eq_ofNat_iff x (by decide), eq_ofNat_iff x (by decide), eq_ofNat_iff x (by decide), eq_ofNat_iff x (by decide)⟩

theorem isClass_of_inClass {x : Word} {e : Nat} (h : InClass x.toNat e) : IsClass x e := by
  have hx : nan32 x = false := decide_eq_false (by unfold InClass at h; omega)
  have hs : snan32 x = false := by rw [snan32, hx]; rfl
  have hmsb : x.msb = decide (2 ^ 31 ≤ x.toNat) := BitVec.msb_eq_decide x
  obtain ⟨hni, hpi, hnz, hpz⟩ := single_words_iff x
  unfold InClass at h
  constructor
  case sig => rw [hs]; exact iff_of_false (by omega) Bool.false_ne_true
  case quiet => rw [hx]; exact iff_of_false (by omega) fun h => Bool.false_ne_true h.1
  case neg => rw [hmsb, decide_eq_true_eq]; omega
  case pos => rw [hmsb, decide_eq_false_iff_not]; omega
  case negInf => rw [hni]; omega
  case posInf => rw [hpi]; omega
  case negZero => rw [hnz]; omega
  case posZero => rw [hpz]; omega
  case lt | sub => omega

theorem isClass_of_nan {x : Word} (hx : nan32 x = true) {e : Nat} (he : e = 8 ∨ e = 9) (hs : e = 8 ↔ snan32 x = true) : IsClass x e := by
  have hmag : 0x7F800000 < x.toNat % 2 ^ 31 := of_decide_eq_true hx
  obtain ⟨hni, hpi, hnz, hpz⟩ := single_words_iff x
  constructor
  case sig => exact hs
  case quiet => rw [hx, eq_self_iff_true, true_and, ← Bool.not_eq_true, ← hs]; omega
  case negInf => rw [hni]; omega
  case posInf => rw [hpi]; omega
  case negZero => rw [hnz]; omega
  case posZero => rw [hpz]; omega
  case neg | pos => intro; omega
  case lt | sub => omega

/-- FCLASS gives the class of each word (R184). -/
theorem fClass_isClass (x : Word) : ∃ e, fClass x = BitVec.ofNat 32 (2 ^ e) ∧ IsClass x e := by
  have hword := x.isLt
  have hmsb : x.msb = decide (2 ^ 31 ≤ x.toNat) := BitVec.msb_eq_decide x
  unfold fClass
  rcases decode_word x with ⟨h, hd⟩ | ⟨h, hd⟩ | ⟨h, hd⟩ <;> rw [hd]
  · have hm : fp32.mant (x.toNat % 2 ^ 31) < 2 ^ 23 ↔ x.toNat % 2 ^ 31 < 2 ^ 23 := by
      show x.toNat % 2 ^ 31 - (x.toNat % 2 ^ 31 / 2 ^ 23 - 1) * 2 ^ 23 < 2 ^ 23 ↔ _
      omega
    have hclass : ∀ e, InClass x.toNat e → ∃ e', BitVec.ofNat 32 (2 ^ e) = BitVec.ofNat 32 (2 ^ e') ∧ IsClass x e' :=
      fun e he => ⟨e, rfl, isClass_of_inClass he⟩
    simp only [mant_eq_zero_iff, hm]
    unfold InClass at hclass
    cases hs : x.msb <;> rw [hmsb] at hs
    · have := of_decide_eq_false hs
      split
      · exact hclass 4 (by omega)
      · split
        · exact hclass 5 (by omega)
        · exact hclass 6 (by omega)
    · have := of_decide_eq_true hs
      split
      · exact hclass 3 (by omega)
      · split
        · exact hclass 2 (by omega)
        · exact hclass 1 (by omega)
  · cases hs : x.msb <;> rw [hmsb] at hs
    · exact ⟨7, rfl, isClass_of_inClass (by have := of_decide_eq_false hs; unfold InClass; omega)⟩
    · exact ⟨0, rfl, isClass_of_inClass (by have := of_decide_eq_true hs; unfold InClass; omega)⟩
  · have hx : nan32 x = true := decide_eq_true h
    have hs : snan32 x = !x.getLsbD 22 := by rw [snan32, hx, Bool.true_and]
    cases hb : x.getLsbD 22 <;> rw [hb] at hs
    · exact ⟨8, rfl, isClass_of_nan hx (.inl rfl) (by simp [hs])⟩
    · exact ⟨9, rfl, isClass_of_nan hx (.inr rfl) (by simp [hs])⟩

/-! ## FRND and FSCALE (R185, R186) -/

/-- A NaN gives the canonical one, with NV where it signals. -/
def NanToCanonical (x w : Word) (fl : BitVec 5) : Prop := nan32 x = true → w = 0x7FC00000 ∧ fl = if snan32 x then fNV else 0

/-- A zero and an infinity are delivered as they are. -/
def SpecialKept (x w : Word) (fl : BitVec 5) : Prop :=
  (x.toNat % 2 ^ 31 = 0 ∨ x.toNat % 2 ^ 31 = 0x7F800000) → w = x ∧ fl = 0

theorem special_spec {x : Word} {r : FRes} (hnan : ∀ sig, fp32.decode x.toNat = .nan sig → r = (fp32.nan, if sig then fNV else 0))
    (hinf : ∀ neg, fp32.decode x.toNat = .inf neg → r = (x.toNat, 0))
    (hzero : ∀ neg e, fp32.decode x.toNat = .fin neg 0 e → r = (x.toNat, 0)) :
    NanToCanonical x (BitVec.ofNat 32 r.1) r.2 ∧ SpecialKept x (BitVec.ofNat 32 r.1) r.2 := by
  have hself : r = (x.toNat, 0) → BitVec.ofNat 32 r.1 = x ∧ r.2 = 0 := fun h => by rw [h]; exact ⟨by simp, rfl⟩
  refine ⟨fun hx => ?_, fun hx => ?_⟩
  · obtain ⟨sig, hv⟩ := FVal.exists_nan (isNan_decode x ▸ hx)
    rw [hnan sig hv, ← isSig_decode, hv]
    exact ⟨rfl, rfl⟩
  · rcases decode_word x with ⟨h, hd⟩ | ⟨h, hd⟩ | ⟨h, hd⟩
    · have h0 : x.toNat % 2 ^ 31 = 0 := hx.resolve_right (by omega)
      rw [h0, (mant_eq_zero_iff fp32 0).2 rfl] at hd
      exact hself (hzero _ _ hd)
    · exact hself (hinf _ hd)
    · omega

/-- A rounded FP32 magnitude is a number that FP32 holds: it is an integer already, or it has no more than 24 bits. -/
theorem roundTo_held (mode : Nat) (neg : Bool) {m : Nat} {e : Int} (hm : m < 2 * 2 ^ 23) (he : e ≤ 104) :
    ∃ c j : Nat, roundTo mode neg m e 0 = c * 2 ^ j ∧ c < 2 * 2 ^ 23 ∧ j ≤ 104 := by
  unfold roundTo
  by_cases h : 0 ≤ e
  · exact ⟨m, (e - 0).toNat, if_pos h, hm, by omega⟩
  · refine ⟨roundMag mode neg m (0 - e).toNat, 0, by rw [if_neg h, Nat.pow_zero, Nat.mul_one], ?_, by omega⟩
    have hk : 2 ^ 1 ≤ 2 ^ (0 - e).toNat := Nat.pow_le_pow_right (by decide) (by omega)
    have hdiv : m / 2 ^ (0 - e).toNat ≤ m / 2 ^ 1 := Nat.div_le_div_left hk (by decide)
    have := roundMag_le mode neg m (0 - e).toNat
    omega

theorem roundInt_signed (mode : Nat) (neg : Bool) {m : Nat} (hm : m ≠ 0) (e : Int) :
    roundInt mode ⟨if neg then -(m : Int) else m, e⟩ = if neg then -(roundTo mode neg m e 0 : Int) else roundTo mode neg m e 0 := by
  unfold roundInt
  cases neg
  · simp [Int.not_lt.2 (Int.natCast_nonneg m)]
  · simp [Nat.pos_of_ne_zero hm]

theorem toNat_ofNat_withSign (neg : Bool) {w : Nat} (h : w < 0x7F800000) : (BitVec.ofNat 32 (fp32.withSign neg w)).toNat = fp32.withSign neg w :=
  (BitVec.toNat_ofNat ..).trans (Nat.mod_eq_of_lt (fp32.withSign_lt neg (Nat.lt_trans h (by decide))))

theorem msb_ofNat_withSign (neg : Bool) {w : Nat} (h : w < 0x7F800000) : (BitVec.ofNat 32 (fp32.withSign neg w)).msb = neg := by
  have hs : fp32.signBit = 2 ^ 31 := by decide
  rw [BitVec.msb_eq_decide, toNat_ofNat_withSign neg h]
  unfold FFmt.withSign
  rw [hs]
  cases neg
  · exact decide_eq_false (by simp; omega)
  · exact decide_eq_true (by simp)

/-- FRND delivers the rounded integer, with the sign of its source. -/
theorem fRnd_fin (mode : Nat) {x : Word} (hx : x.toNat % 2 ^ 31 < 0x7F800000) :
    (fRnd mode x).2 = 0 ∧ (BitVec.ofNat 32 (fRnd mode x).1).msb = x.msb ∧
      (fp32.decode (BitVec.ofNat 32 (fRnd mode x).1).toNat).dy.same ⟨roundInt mode (fp32.decode x.toNat).dy, 0⟩ = true := by
  have htop : (2 ^ fp32.ew - 1) * 2 ^ fp32.mw = 0x7F800000 := by decide
  rcases decode_word x with ⟨h, hd⟩ | ⟨h, -⟩ | ⟨h, -⟩
  · obtain ⟨hm, -, he⟩ := FFmt.decode_eq_fin hd
    generalize hmant : fp32.mant (x.toNat % 2 ^ 31) = m at hd hm
    generalize fp32.expo (x.toNat % 2 ^ 31) = e at hd he
    by_cases h0 : m = 0
    · have hr : fRnd mode x = (x.toNat, 0) := by unfold fRnd; rw [hd]; exact if_pos h0
      rw [hr, BitVec.ofNat_toNat, BitVec.setWidth_eq, Dy.same_iff]
      refine ⟨rfl, rfl, ?_⟩
      rw [(Dy.isInt_iff mode _).1 ((exactAt_iff ..).2 (.inr ?_))]
      · rw [Dy.val_int]
      · simp [hd, h0, FVal.dy]
    · obtain ⟨c, j, hc, hclt, hj⟩ := roundTo_held mode x.msb hm (e := e) (by
        have he' : e + (127 : Nat) + (23 : Nat) ≤ (254 : Nat) := he
        omega)
      have hlo : 1 - ((127 : Nat) : Int) - (23 : Nat) ≤ 0 + j := by omega
      have hhi : (0 : Int) + j + (23 : Nat) + (127 : Nat) + 2 ≤ (2 ^ 8 : Nat) := by omega
      obtain ⟨w, hw, hr, hmag⟩ := fp32_ieee.roundDy_of_held 0 x.msb (e := 0) hc hclt (by decide) hlo hhi
      have hrnd : fRnd mode x = (fp32.withSign x.msb w, 0) := by
        unfold fRnd; rw [hd]; exact (if_neg h0).trans (by rw [roundInt_signed mode _ h0, hr])
      rw [hrnd, toNat_ofNat_withSign _ (htop ▸ hw), msb_ofNat_withSign _ (htop ▸ hw), fp32.decode_fin _ hw, Dy.same_iff, fp32.val_fin,
        hmag, hd]
      refine ⟨rfl, rfl, ?_⟩
      rw [Dy.val_int, twoPow_zero, Rat.mul_one, FVal.dy, roundInt_signed mode _ h0]
      exact (intCast_signed ..).symm
  · omega
  · omega

/-- FRND's NaNs, and what it leaves as it is. -/
theorem fRnd_special (mode : Nat) (x : Word) :
    NanToCanonical x (BitVec.ofNat 32 (fRnd mode x).1) (fRnd mode x).2 ∧ SpecialKept x (BitVec.ofNat 32 (fRnd mode x).1) (fRnd mode x).2 :=
  special_spec (fun sig h => by unfold fRnd; rw [h]) (fun neg h => by unfold fRnd; rw [h]) (fun neg e h => by unfold fRnd; rw [h]; rfl)

theorem fScale_special (mode : Nat) (x y : Word) :
    NanToCanonical x (BitVec.ofNat 32 (fScale mode x y).1) (fScale mode x y).2 ∧
      SpecialKept x (BitVec.ofNat 32 (fScale mode x y).1) (fScale mode x y).2 :=
  special_spec (fun sig h => by unfold fScale; rw [h]) (fun neg h => by unfold fScale; rw [h]) (fun neg e h => by unfold fScale; rw [h]; rfl)

/-- FSCALE rounds the product with the power of two once. -/
theorem fScale_fin (mode : Nat) {x : Word} (y : Word) (hx : x.toNat % 2 ^ 31 < 0x7F800000) (h0 : x.toNat % 2 ^ 31 ≠ 0) :
    fScale mode x y = fp32.roundDy mode ((fp32.decode x.toNat).dy.mul ⟨1, y.toInt⟩) false := by
  rcases decode_word x with ⟨h, hd⟩ | ⟨h, -⟩ | ⟨h, -⟩
  · have hm : fp32.mant (x.toNat % 2 ^ 31) ≠ 0 := mt (mant_eq_zero_iff fp32 _).1 h0
    have hr := fp32.roundDy_of_ne_zero mode x.msb false hm (fp32.expo (x.toNat % 2 ^ 31) + y.toInt)
    unfold fScale
    rw [hd, FVal.dy, Dy.mul, Int.mul_one, hr]
    exact if_neg hm
  · omega
  · omega

theorem mag_lt_of_finite {x : Word} (h : nan32 x = false) (hp : x ≠ 0x7F800000) (hn : x ≠ 0xFF800000) : x.toNat % 2 ^ 31 < 0x7F800000 := by
  have hle := of_decide_eq_false h
  obtain ⟨hni, hpi, -⟩ := single_words_iff x
  rw [Ne, hpi] at hp
  rw [Ne, hni] at hn
  have := x.isLt
  omega

/-! ## ICMP and FCMP (R176, R183) -/

theorem icmpCond_eq_condHolds {c : BitVec 3} (hc : c.toNat < 6) (m : BitVec 1) (x y : Word) :
    icmpCond c m x y = condHolds c.toNat m x y := by
  unfold icmpCond
  have hcases : c.toNat = 0 ∨ c.toNat = 1 ∨ c.toNat = 2 ∨ c.toNat = 3 ∨ c.toNat = 4 ∨ c.toNat = 5 := by omega
  rcases hcases with h | h | h | h | h | h <;> rw [h]
  · rfl
  · rfl
  · exact ltBy_eq m x y
  · exact (leBy_eq_not_ltBy m x y).symm
  · exact (ltBy_eq m y x).trans (congrArg _ (bne_comm ..))
  · exact (leBy_eq_not_ltBy m y x).symm

theorem beq_eq_keys (x y : Word) : (x == y) = (!decide (key32 x < key32 y) && !decide (key32 y < key32 x)) := by
  have hx := x.isLt
  have hy := y.isLt
  rw [Bool.eq_iff_iff]
  simp only [beq_iff_eq, Bool.and_eq_true, Bool.not_eq_true', decide_eq_false_iff_not, ← BitVec.toNat_inj]
  unfold key32
  simp only [BitVec.msb_eq_decide, decide_eq_true_eq]
  split <;> split <;> omega

theorem fLt_of_nan (zeros : Bool) {a b : FVal} (h : (a.isNan || b.isNan) = true) : fLt zeros a b = false := by
  rcases Bool.or_eq_true _ _ ▸ h with h | h <;> obtain ⟨sig, rfl⟩ := FVal.exists_nan h
  · rfl
  · cases a <;> rfl

/-- The codes of FCMP's conditions. -/
theorem cond_cases (c : BitVec 3) : c.toNat = 0 ∨ c.toNat = 1 ∨ c.toNat = 2 ∨ c.toNat = 3 ∨ c.toNat = 4 ∨ c.toNat = 5 ∨ c.toNat = 6 ∨
    c.toNat = 7 := by omega

theorem fCmp_holds (c : BitVec 3) (x y : Word) :
    (fCmp c.toNat (fp32.decode x.toNat) (fp32.decode y.toNat)).1 = fcmpHolds c.toNat x y := by
  unfold fCmp fcmpHolds
  simp only [isNan_decode]
  cases hun : nan32 x || nan32 y
  · obtain ⟨hx, hy⟩ := Bool.or_eq_false_iff.1 hun
    simp only [fLt_word false hx hy, fLt_word false hy hx, beq_eq_keys, Bool.false_or, Bool.and_comm (zero32 y)]
    by_cases h1 : key32 x < key32 y
    · have h2 : ¬key32 y < key32 x := by omega
      simp only [h1, h2, decide_true, decide_false]
      rcases cond_cases c with h | h | h | h | h | h | h | h <;> rw [h] <;> cases zero32 x && zero32 y <;> rfl
    · by_cases h2 : key32 y < key32 x <;> simp only [h1, h2, decide_true, decide_false] <;>
        rcases cond_cases c with h | h | h | h | h | h | h | h <;> rw [h] <;> cases zero32 x && zero32 y <;> rfl
  · have hxy := hun
    have hyx := Bool.or_comm .. ▸ hun
    rw [← isNan_decode, ← isNan_decode] at hxy hyx
    simp only [fLt_of_nan false hxy, fLt_of_nan false hyx]
    rcases cond_cases c with h | h | h | h | h | h | h | h <;> rw [h] <;> rfl

/-- A signalling NaN is a NaN, so in the ordered conditions NV follows the NaNs. -/
theorem fCmp_raises (c : BitVec 3) (x y : Word) : (fCmp c.toNat (fp32.decode x.toNat) (fp32.decode y.toNat)).2 =
    (snan32 x || snan32 y || (decide (2 ≤ c.toNat ∧ c.toNat ≤ 5) && (nan32 x || nan32 y))) := by
  have hs : ((snan32 x || snan32 y) || (nan32 x || nan32 y)) = (nan32 x || nan32 y) := by
    unfold snan32
    cases nan32 x <;> cases nan32 y <;> simp
  unfold fCmp
  simp only [isNan_decode, isSig_decode]
  rcases cond_cases c with h | h | h | h | h | h | h | h <;> rw [h] <;> simp [hs]

/-! ## Guards (R137) -/

theorem Thread.guard_setGuard (t : Thread) (b : Bool) {e k : Nat} (he : e < 4) (hk : k < 4) :
    (t.setGuard e b).guard k = if k = e ∧ k ≠ 0 then b else t.guard k := by
  have hecases : e = 0 ∨ e = 1 ∨ e = 2 ∨ e = 3 := by omega
  have hkcases : k = 0 ∨ k = 1 ∨ k = 2 ∨ k = 3 := by omega
  rcases hecases with rfl | rfl | rfl | rfl <;> rcases hkcases with rfl | rfl | rfl | rfl <;> rfl

/-- A write of a guard changes guards alone. -/
theorem Thread.setGuard_frame (t : Thread) (e : Nat) (b : Bool) :
    t.setGuard e b = { t with g1 := (t.setGuard e b).g1, g2 := (t.setGuard e b).g2, g3 := (t.setGuard e b).g3 } := by
  unfold Thread.setGuard
  split <;> rfl

theorem Thread.setGuard_flags (t : Thread) (e : Nat) (b : Bool) : (t.setGuard e b).flags = t.flags := by rw [Thread.setGuard_frame]

/-- A compare's threads: the acting lanes have their guard and their flags, and the cohort has moved on. -/
def State.compared (s : State) (e : Nat) (lanes : List Nat) (holds : Nat → Bool) (fl : Nat → BitVec 5) (l : Nat) : Thread :=
  if l ∈ lanes then { (s.moved l).setGuard e (holds l) with flags := (s.curRill.thread l).flags ||| fl l } else s.moved l

theorem State.moved_frame (s : State) (l : Nat) : s.moved l = { s.curRill.thread l with pc := (s.moved l).pc } := by
  unfold State.moved
  split <;> rfl

section
variable {s t : State} {e : Nat} {lanes : List Nat} {holds : Nat → Bool} {fl : Nat → BitVec 5}

theorem State.compared_flags (l : Nat) : (s.compared e lanes holds fl l).flags =
    if l ∈ lanes then (s.curRill.thread l).flags ||| fl l else (s.curRill.thread l).flags := by
  unfold State.compared
  split
  · rfl
  · rw [State.moved_frame]

theorem State.compared_guard (he : e < 4) (l : Nat) {k : Nat} (hk : k < 4) : (s.compared e lanes holds fl l).guard k =
    if k = e ∧ k ≠ 0 ∧ l ∈ lanes then holds l else (s.curRill.thread l).guard k := by
  have hmoved : (s.moved l).guard k = (s.curRill.thread l).guard k := by rw [State.moved_frame]; rfl
  unfold State.compared
  by_cases hl : l ∈ lanes
  · have h := Thread.guard_setGuard (s.moved l) (holds l) he hk
    rw [if_pos hl]
    simp only [hl, and_true]
    rw [← hmoved, ← h]
    rfl
  · simp [hl, hmoved]

/-- What the statement of a compare says of the threads. -/
theorem compared_done (h : ThreadsDone s t (s.compared e lanes holds fl)) : ThreadsDone s t (fun l =>
    { s.moved l with
      flags := (t.curRill.thread l).flags
      g1 := (t.curRill.thread l).g1, g2 := (t.curRill.thread l).g2, g3 := (t.curRill.thread l).g3 }) := by
  refine h.congr fun l => ?_
  rw [h.threads l]
  unfold State.compared
  split
  · rw [Thread.setGuard_frame]
  · rfl

/-- The guards and the flags are written in lanes of the cohort, which then moves on. -/
theorem ThreadsDone.compared (hc : s.cohortOk) (hl : ∀ l ∈ lanes, l ∈ s.cur.lanes)
    (h : ThreadsDone s t (fun l => if l ∈ lanes then { (s.curRill.thread l).setGuard e (holds l) with flags := (s.curRill.thread l).flags ||| fl l }
      else s.curRill.thread l)) : ThreadsDone s t.advance (s.compared e lanes holds fl) := by
  refine (h.advance hc).congr fun l => ?_
  unfold State.compared State.moved Thread.setGuard
  by_cases hm : l ∈ lanes
  · simp only [hm, hl l hm, if_true]
    split <;> rfl
  · simp only [hm, if_false]

/-- Writing guards alone raises no flag. -/
theorem State.writeGuard_done (s : State) {lanes : List Nat} (hl : lanes.Nodup) (e : Nat) (holds : Nat → Bool) :
    ThreadsDone s (s.writeGuard s.cur.rill e lanes holds) (fun l =>
      if l ∈ lanes then { (s.curRill.thread l).setGuard e (holds l) with flags := (s.curRill.thread l).flags ||| 0 }
      else s.curRill.thread l) := by
  refine ((ThreadsDone.refl s).mapThreads hl _).congr fun l => ?_
  simp only [← Thread.setGuard_flags (s.curRill.thread l) e (holds l)]
  simp

theorem execIcmp_completes (hc : s.cohortOk) (c : BitVec 3) (e : BitVec 2) (a b : BitVec 7) (r m : BitVec 1) (g : BitVec 2) :
    Completes s (.icmp c e a b r m g) (fun t => ThreadsDone s t (s.compared e.toNat (s.acting g.toNat)
      (fun l => icmpCond c m (s.src a.toNat 0 l) (s.src b.toNat 0 l)) (fun _ => 0))) :=
  ⟨_, rfl, ThreadsDone.compared hc (fun _ => State.acting_mem) (s.writeGuard_done (State.acting_nodup hc _) _ _)⟩

theorem execFcmp_completes (hc : s.cohortOk) (c : BitVec 3) (e : BitVec 2) (a b : BitVec 7) (r n : BitVec 1) (g : BitVec 2) :
    Completes s (.fcmp c e a b r n g) (fun t => ThreadsDone s t (s.compared e.toNat (s.acting g.toNat)
      (fun l => (fCmp c.toNat (s.fsrc a l) (s.fsrc b l)).1)
      (fun l => if n = 1 then 0 else if (fCmp c.toNat (s.fsrc a l) (s.fsrc b l)).2 then fNV else 0))) := by
  have hact := State.acting_nodup hc g.toNat
  have hguard := s.writeGuard_done hact e.toNat (fun l => (fCmp c.toNat (s.fsrc a l) (s.fsrc b l)).1)
  by_cases hn : n = 1
  · refine ⟨_, congrArg Host.Outcome.next (congrArg State.advance (if_pos hn)), ThreadsDone.compared hc (fun _ => State.acting_mem) ?_⟩
    simp only [if_pos hn]
    exact hguard
  · refine ⟨_, congrArg Host.Outcome.next (congrArg State.advance (if_neg hn)), ThreadsDone.compared hc (fun _ => State.acting_mem) ?_⟩
    simp only [if_neg hn]
    refine (hguard.mapThreads hact _).congr fun l => ?_
    by_cases hl : l ∈ s.acting g.toNat <;> simp [hl]

end

/-- Settles O7: FMIN and FMAX by the order of the keys (`fLt_word`), FCLASS by ranges of encodings (`fClass_isClass`), FRND and FSCALE
by what rounding delivers (`fRnd_fin`, `fScale_fin`), and the compares as changes of guards and flags (`State.compared`). -/
theorem floatSelectionScalingAndCompares : Obligations.FloatSelectionScalingAndCompares := by
  unfold Obligations.FloatSelectionScalingAndCompares
  refine ⟨fun s d a b r n g hc => ?_, fun s c e a b r m n g hc => ?_⟩
  · intro x y done extreme nans same
    refine ⟨⟨_, _, fun l => fMinMax_isExtreme true (x l) (y l), completes_of_fop hc rfl⟩,
      ⟨_, _, fun l => fMinMax_isExtreme false (x l) (y l), completes_of_fop hc rfl⟩,
      ⟨_, fun l => ?fclass, completes_of_vop hc rfl⟩, fun hb => ⟨_, _, fun l => ?frnd, completes_of_fop hc rfl⟩,
      ⟨_, _, fun l => ?fscale, completes_of_fop hc rfl⟩⟩
    case fclass =>
      obtain ⟨e, he, h⟩ := fClass_isClass (x l)
      exact ⟨e, h.lt, he, h.negInf, h.posInf, h.negZero, h.posZero, h.sig, h.quiet, h.sub, h.neg, h.pos⟩
    case frnd =>
      have hmode : (if b.toNat < 4 then b.toNat else s.mode) = if b.toNat = 4 then s.mode else b.toNat := by
        split <;> split <;> omega
      rw [hmode]
      obtain ⟨hnan, hkept⟩ := fRnd_special (if b.toNat = 4 then s.mode else b.toNat) (x l)
      exact ⟨hnan, hkept, fun h hp hn => fRnd_fin _ (mag_lt_of_finite h hp hn)⟩
    case fscale =>
      obtain ⟨hnan, hkept⟩ := fScale_special s.mode (x l) (y l)
      refine ⟨hnan, hkept, fun h h0 hi => ?_⟩
      have hfin : (x l).toNat % 2 ^ 31 < 0x7F800000 := Nat.lt_of_le_of_ne (Nat.not_lt.1 (of_decide_eq_false h)) hi
      rw [fScale_fin s.mode (y l) hfin h0]
      rfl
  · intro x y nv compares
    have hcmp : ∀ {i : Instr} {holds : Nat → Bool} {fl : Nat → BitVec 5} {raise : Nat → Prop},
        (∀ l, raise l → fl l = fNV) → (∀ l, ¬raise l → fl l = 0) →
        Completes s i (fun t => ThreadsDone s t (s.compared e.toNat (s.acting g.toNat) holds fl)) → compares i holds raise := by
      intro i holds fl raise hon hoff ⟨t, ht, h⟩
      refine ⟨t, ht, fun l => ⟨fun hl => ?_, fun hl hr => ?_⟩, compared_done h, fun l k hk => ?_⟩
      · rw [h.threads, State.compared_flags]
        split
        · next hact => rw [hoff l (hl.resolve_left fun hno => hno hact)]; exact BitVec.or_zero
        · rfl
      · rw [h.threads, State.compared_flags, if_pos hl, hon l hr]
      · rw [h.threads, State.compared_guard e.isLt l hk]
    refine ⟨fun hcond => ?_, ?_⟩
    · have h := execIcmp_completes hc c e a b r m g
      simp only [icmpCond_eq_condHolds hcond] at h
      exact hcmp (fun _ => False.elim) (fun _ _ => rfl) h
    · have h := execFcmp_completes hc c e a b r n g
      simp only [State.fsrc, fCmp_holds, fCmp_raises] at h
      refine hcmp (fun l hl => ?_) (fun l hl => ?_) h
      · obtain ⟨hn, hnv⟩ := hl
        rw [hn, if_neg (by decide), if_pos hnv]
      · split
        · rfl
        · next hn => exact if_neg fun hnv => hl ⟨(BitVec.eq_zero_or_eq_one n).resolve_right hn, hnv⟩

end Sys2Proof.Machine
end

section
/-! Cross-lane issues whose members are all there (R202), and QBLK (08, R195 to R197). -/
namespace Sys2Proof.Machine

/-! ## Writing a rill back as it is -/

theorem Tbl.mem_of_get_ne {α : Type} (d : α) (t : Tbl α) (k : Nat) : Tbl.get d t k = d ∨ (k, Tbl.get d t k) ∈ t := by
  induction t with
  | nil => exact .inl rfl
  | cons p t ih =>
    obtain ⟨j, v⟩ := p
    unfold Tbl.get
    split
    · next h => exact .inr (h ▸ List.mem_cons_self ..)
    · exact ih.imp id (List.mem_cons_of_mem _)

theorem Tbl.mem_set_get {α : Type} (d : α) (t : Tbl α) (k : Nat) (p : Nat × α) :
    p ∈ t.set k (t.get d k) ↔ p ∈ t ∨ p = (k, t.get d k) := by
  induction t with
  | nil => simp [Tbl.set]
  | cons q t ih =>
    obtain ⟨j, v⟩ := q
    unfold Tbl.set
    by_cases h1 : k < j
    · rw [if_pos h1, List.mem_cons, or_comm]
    · rw [if_neg h1]
      by_cases h2 : j = k
      · subst h2; simp only [Tbl.get, if_true, List.mem_cons]; exact ⟨.inl, fun h => h.elim id .inl⟩
      · simp [h2, Tbl.get, ih, or_assoc]

/-- A property of the entries that the default has is not changed by writing an entry back. -/
theorem Tbl.all_set_get {α : Type} (d : α) (t : Tbl α) (k : Nat) {q : Nat × α → Bool} (hd : q (k, d) = true) :
    (t.set k (t.get d k)).all q = t.all q := by
  rw [Bool.eq_iff_iff, List.all_eq_true, List.all_eq_true]
  refine ⟨fun h p hp => h p ((Tbl.mem_set_get d t k p).2 (.inl hp)), fun h p hp => ?_⟩
  rcases (Tbl.mem_set_get d t k p).1 hp with hp | rfl
  · exact h p hp
  · rcases Tbl.mem_of_get_ne d t k with he | hm
    · rw [he]; exact hd
    · exact h _ hm

theorem State.rill_setRill_self (s : State) (k j : Nat) : (s.setRill k (s.rill k)).rill j = s.rill j := by
  refine (Tbl.get_set ..).trans ?_
  split
  · next h => rw [h]
  · rfl

theorem State.pairOnly_setRill_self (s : State) (k room : Nat) : (s.setRill k (s.rill k)).pairOnly room = s.pairOnly room := by
  unfold State.pairOnly
  rw [List.all_filter, List.all_filter]
  exact Tbl.all_set_get ({} : Rill) s.rills k rfl

theorem State.pairHeld_setRill_self (s : State) (k j l : Nat) : (s.setRill k (s.rill k)).pairHeld j l = s.pairHeld j l := by
  unfold State.pairHeld State.pairOpen
  simp only [State.rill_setRill_self, State.pairOnly_setRill_self]
  rfl

theorem RegsDone.setRill_self (s : State) (dests : List Nat) :
    RegsDone s (s.setRill s.cur.rill s.curRill) dests (s.vreg s.cur.rill) s.curRill.thread := by
  have hr : (s.setRill s.cur.rill s.curRill).curRill = s.curRill := s.rill_setRill_self s.cur.rill s.cur.rill
  have hv : ∀ j n l, (s.setRill s.cur.rill s.curRill).vreg j n l = s.vreg j n l := fun j n l => by
    unfold State.vreg
    rw [show (s.setRill s.cur.rill s.curRill).rill j = s.rill j from s.rill_setRill_self ..]
    rfl
  refine ⟨⟨rfl, fun j _ => s.rill_setRill_self _ j, fun _ => rfl, by rw [hr], MemKept.of_others rfl⟩, fun j n l _ => hv j n l,
    fun n => by rw [hr], fun n l _ => hv _ n l, fun n _ => by rw [hr], fun l => by rw [hr]⟩

/-! ## The wait of a cross-lane instruction (R202) -/

/-- The wait of an issue by which every live member has come. -/
structure CrossWait (s : State) (i : Instr) (mask : Nat) (w : Wait) : Prop where
  ins : w.ins = i
  pc : w.pc = s.cur.pc
  wb : w.wb = s.curRill.wb
  mask : w.mask = mask
  nodup : w.lanes.Nodup
  lanes : ∀ l, l ∈ w.lanes ↔ l ∈ s.cur.lanes

/-- Where every live member stands in the cohort and is ready, the instruction completes at once, and the registers and the threads
are those of the issue. -/
theorem State.cross_of_allHere {s : State} {i : Instr} {mask : Nat} (h : AllHere s mask) (hs : s.crossSettled i mask) :
    ∃ w, CrossWait s i mask w ∧ s.cross i mask = crossDone (s.setRill s.cur.rill s.curRill) s.cur.rill w := by
  have hfresh : ∀ v ∈ s.curRill.waits, (isCross v.ins && v.pc == s.cur.pc) = false := fun v hv => by
    have := h.fresh v hv
    simpa using this
  have hnone : s.curRill.waits.filter (fun v => isCross v.ins && v.pc == s.cur.pc) = [] :=
    List.filter_eq_nil_iff.2 fun v hv => by rw [hfresh v hv]; exact Bool.false_ne_true
  have hall : s.curRill.waits.filter (fun v => !(isCross v.ins && v.pc == s.cur.pc)) = s.curRill.waits :=
    List.filter_eq_self.2 fun v hv => by rw [hfresh v hv]; rfl
  let w : Wait := { s.mkWait i [s.curRill.wb, mask] with lanes := s.curRill.lanes.filter (fun l => s.cur.lanes.contains l) }
  have hlanes : ∀ l, l ∈ w.lanes ↔ l ∈ s.cur.lanes := fun l => by
    have hlive : l ∈ s.cur.lanes → l ∈ s.curRill.lanes := fun hl => (List.mem_filter.1 (h.live l hl)).1
    simpa [w] using hlive
  have hw : CrossWait s i mask w := ⟨rfl, rfl, rfl, rfl, List.nodup_range.filter _, hlanes⟩
  have hready : crossReady (s.setRill s.cur.rill s.curRill) s.cur.rill w = true := by
    unfold crossReady Rill.crossCome
    rw [show (s.setRill s.cur.rill s.curRill).rill s.cur.rill = s.curRill from s.rill_setRill_self ..]
    simp only [Bool.and_eq_true, List.all_eq_true, hw.mask, hw.wb, hw.ins]
    refine ⟨fun l hl => List.contains_iff_mem.2 ((hlanes l).2 (h.members l hl)), fun l hl => ?_⟩
    obtain ⟨hset, hpair⟩ := hs l hl
    refine ⟨hset, ?_⟩
    rw [show (s.setRill s.cur.rill s.curRill).pairHeld s.cur.rill l = s.pairHeld s.cur.rill l from s.pairHeld_setRill_self ..,
      hpair]
    rfl
  refine ⟨w, hw, ?_⟩
  have hsame : s.modRill s.cur.rill (fun r => { r with waits := r.waits.filter (fun v => !(isCross v.ins && v.pc == s.cur.pc)) }) =
      s.setRill s.cur.rill s.curRill := by
    have hr : { s.curRill with waits := s.curRill.waits.filter (fun v => !(isCross v.ins && v.pc == s.cur.pc)) } = s.curRill := by
      rw [hall]
    exact congrArg (s.setRill s.cur.rill) hr
  unfold State.cross
  simp only [hnone, hsame]
  exact if_pos hready

/-! ## Quantising a block (R197) -/

/-- The lanes of the block that begins at lane `b`. -/
def blockLanes (b : Nat) : List Nat := (List.range 32).map (b + ·)

theorem mem_blockLanes {b l : Nat} : l ∈ blockLanes b ↔ b ≤ l ∧ l < b + 32 := by
  unfold blockLanes
  rw [List.mem_map]
  exact ⟨fun ⟨i, hi, h⟩ => by have := List.mem_range.1 hi; omega, fun h => ⟨l - b, List.mem_range.2 (by omega), by omega⟩⟩

theorem nodup_blockLanes (b : Nat) : (blockLanes b).Nodup :=
  List.Pairwise.map _ (fun _ _ hne h => hne (Nat.add_left_cancel h)) List.nodup_range

/-- An element scaled by exponent byte `X` and rounded. -/
def scaledBy (mode : Nat) (el : Nat → FVal) (X l : Nat) : Int := roundInt mode ((el l).dy.mul ⟨1, 127 - (X : Int)⟩)

/-- By exponent byte `X` every element of the block has its range. -/
def blockFits (qmax mode : Nat) (el : Nat → FVal) (b X : Nat) : Bool :=
  (blockLanes b).all (fun l => decide ((scaledBy mode el X l).natAbs ≤ qmax))

theorem blockFits_iff {qmax mode : Nat} {el : Nat → FVal} {b X : Nat} :
    blockFits qmax mode el b X = true ↔ ∀ l ∈ blockLanes b, (scaledBy mode el X l).natAbs ≤ qmax := by
  unfold blockFits
  simp only [List.all_eq_true, decide_eq_true_eq]

/-- The least such byte. -/
def blockExp (qmax mode : Nat) (el : Nat → FVal) (b : Nat) : Nat := ((List.range 255).find? (blockFits qmax mode el b)).getD 254

/-- The model's quantisation of a block. -/
theorem quantise_block (qmax : Int) (mode : Nat) (el : Nat → FVal) (b : Nat) :
    quantise qmax mode ((blockLanes b).map el) =
      if (blockLanes b).any (fun l => (el l).isNan || (el l).isInf) then none
      else some (blockExp qmax.natAbs mode el b, (blockLanes b).map (scaledBy mode el (blockExp qmax.natAbs mode el b))) := by
  unfold quantise blockExp blockFits
  simp only [List.any_map, List.all_map, List.map_map]
  rfl

theorem getD_map_blockLanes {b l : Nat} (f : Nat → Int) (h : l ∈ blockLanes b) : ((blockLanes b).map f).getD (l - b) 0 = f l := by
  have hl := mem_blockLanes.1 h
  unfold blockLanes
  rw [List.map_map, List.getD_eq_getElem?_getD, List.getElem?_map, List.getElem?_range (by omega)]
  simp [Nat.add_sub_cancel' hl.1]

/-- By the greatest exponent byte every FP32 number is scaled below 2, so that its rounding is at most 2. -/
theorem scaledBy_top_le {mode : Nat} {el : Nat → FVal} {l : Nat} (h : ∀ neg m e, el l = .fin neg m e → m < 2 * 2 ^ 23 ∧ e ≤ 104)
    (hfin : ((el l).isNan || (el l).isInf) = false) : (scaledBy mode el 254 l).natAbs ≤ 2 := by
  unfold scaledBy
  rw [roundInt_natAbs]
  cases hel : el l with
  | nan sig => rw [hel] at hfin; cases hfin
  | inf neg => rw [hel] at hfin; cases hfin
  | fin neg m e =>
    obtain ⟨hm, he⟩ := h neg m e hel
    have habs : ((FVal.fin neg m e).dy.mul ⟨1, 127 - ((254 : Nat) : Int)⟩).m.natAbs = m := by
      cases neg <;> simp [FVal.dy, Dy.mul]
    have hexp : ((FVal.fin neg m e).dy.mul ⟨1, 127 - ((254 : Nat) : Int)⟩).e = e - 127 := by
      simp [FVal.dy, Dy.mul]; omega
    rw [habs, hexp]
    unfold roundTo
    rw [if_neg (by omega)]
    have hpow : 2 ^ 23 ≤ 2 ^ (0 - (e - 127)).toNat := Nat.pow_le_pow_right (by decide) (by omega)
    have hdiv : m / 2 ^ (0 - (e - 127)).toNat ≤ m / 2 ^ 23 := Nat.div_le_div_left hpow (by decide)
    have := roundMag_le mode (decide (((FVal.fin neg m e).dy.mul ⟨1, 127 - ((254 : Nat) : Int)⟩).m < 0)) m (0 - (e - 127)).toNat
    omega

/-- The exponent byte of a block of numbers and its elements are those of R197. -/
theorem blockExp_quantised {qmax mode b : Nat} (hq : 2 ≤ qmax) {el : Nat → FVal} {q : Nat → Int}
    (h : ∀ l neg m e, el l = .fin neg m e → m < 2 * 2 ^ 23 ∧ e ≤ 104)
    (hfin : (blockLanes b).any (fun l => (el l).isNan || (el l).isInf) = false)
    (hql : ∀ l ∈ blockLanes b, q l = scaledBy mode el (blockExp qmax mode el b) l) :
    Quantised qmax mode (blockLanes b) el (blockExp qmax mode el b) q := by
  have htop : blockFits qmax mode el b 254 = true := blockFits_iff.2 fun l hl =>
    Nat.le_trans (scaledBy_top_le (h l) (by simpa using List.any_eq_false.1 hfin l hl)) hq
  obtain ⟨X, hX⟩ := Option.isSome_iff_exists.1 (List.find?_isSome.2 ⟨254, List.mem_range.2 (by decide : 254 < 255), htop⟩)
  have hexp : blockExp qmax mode el b = X := by unfold blockExp; rw [hX]; rfl
  obtain ⟨hfits, hmem, hleast⟩ := List.find?_range_eq_some.1 hX
  rw [hexp] at hql ⊢
  refine ⟨⟨Nat.lt_succ_iff.1 (List.mem_range.1 hmem), fun l hl => ?_⟩, hql, fun e he => ?_⟩
  · rw [hql l hl]
    exact blockFits_iff.1 hfits l hl
  · have hfalse : blockFits qmax mode el b e = false := by simpa using hleast e he
    obtain ⟨l, hl, hlt⟩ := List.all_eq_false.1 hfalse
    exact ⟨l, hl, Nat.not_le.1 (mt decide_eq_true hlt)⟩

/-! ## QBLK block by block -/

theorem Dy.mul_one (m e : Int) : Dy.mul ⟨m, e⟩ ⟨1, 0⟩ = ⟨m, e⟩ := by
  unfold Dy.mul
  rw [Int.mul_one, Int.add_zero]

/-- An element that QBLK reads: that of an exited lane is 0 (R196). -/
def State.qblkEl (s : State) (a : BitVec 7) (l : Nat) : FVal := if (s.curRill.thread l).exited then .fin false 0 0 else s.fsrc a l

/-- The block has a NaN or an infinity. -/
def blockBad (el : Nat → FVal) (b : Nat) : Bool := (blockLanes b).any (fun l => (el l).isNan || (el l).isInf)

/-- What QBLK delivers in lane `l` of the block that begins at `b`, and its flags. -/
def qblkWord (qmax mode : Nat) (el : Nat → FVal) (b l : Nat) : Word :=
  if blockBad el b then 0xFF00
  else BitVec.ofNat 32 (blockExp qmax mode el b * 256) + BitVec.ofNat 32 (intBits 8 (scaledBy mode el (blockExp qmax mode el b) l))
def qblkFlags (qmax mode : Nat) (el : Nat → FVal) (b l : Nat) : BitVec 5 :=
  if blockBad el b then (if (el l).isNan || (el l).isInf then fNV else 0)
  else if (el l).dy.same ⟨scaledBy mode el (blockExp qmax mode el b) l, (blockExp qmax mode el b : Int) - 127⟩ then 0 else fNX

theorem State.qblkEl_fin {s : State} {a : BitVec 7} {l m : Nat} {neg : Bool} {e : Int} (h : s.qblkEl a l = .fin neg m e) :
    m < 2 * 2 ^ 23 ∧ e ≤ 104 := by
  unfold State.qblkEl at h
  split at h
  · cases h; decide
  · obtain ⟨hm, -, he⟩ := FFmt.decode_eq_fin h
    have he' : e + (127 : Nat) + (23 : Nat) ≤ (254 : Nat) := he
    exact ⟨hm, by omega⟩

/-- The lanes of the block that have not exited. -/
def State.liveBlock (s : State) (b : Nat) : List Nat := (blockLanes b).filter (fun l => !(s.curRill.thread l).exited)

theorem State.xsrc_eq {s t : State} {dests : List Nat} {V : Nat → Nat → Word} {T : Nat → Thread} (h : RegsDone s t dests V T)
    {i : Instr} {mask : Nat} {w : Wait} (hw : CrossWait s i mask w) (a : BitVec 7) {l : Nat} (hl : l < 64) (hV : ∀ n, V n l = s.vreg s.cur.rill n l) :
    t.xsrc s.cur.rill w a l = s.src a.toNat 0 l := by
  have hk := h.kregs
  rw [h.curRill] at hk
  unfold State.xsrc State.src Rill.vname
  rw [h.vregs _ _ hl, h.vregs _ _ hl, hV, hV, hk, hw.wb]
  by_cases h1 : a.toNat < 64
  · rw [if_pos h1, if_pos (by omega), if_pos h1, Nat.add_zero]
  · by_cases h2 : a.toNat < 96
    · rw [if_neg h1, if_pos h2, if_pos h2, if_neg h1, Nat.add_zero]
    · rw [if_neg h1, if_neg h2, if_neg h2, Nat.add_zero]

/-- The elements of a block are written and their flags raised. -/
theorem RegsDone.xdst_raise {s t : State} {d : BitVec 7} {V : Nat → Nat → Word} {T : Nat → Thread}
    (h : RegsDone s t [s.curRill.vname d.toNat] V T) {i : Instr} {mask : Nat} {w : Wait} (hw : CrossWait s i mask w) {ls : List Nat}
    (hnodup : ls.Nodup) (hlt : ∀ l ∈ ls, l < 64) {f f' : Nat → Word} {fl fl' : Nat → BitVec 5} (hf : ∀ l ∈ ls, f l = f' l)
    (hfl : ∀ l ∈ ls, fl l = fl' l) :
    RegsDone s ((t.xdst s.cur.rill w d 0 ls f).raiseFlags s.cur.rill ls fl) [s.curRill.vname d.toNat]
      (fun n l => if n = s.curRill.vname d.toNat ∧ l ∈ ls then f' l else V n l)
      (fun l => if l ∈ ls then { T l with flags := (T l).flags ||| fl' l } else T l) := by
  have hvname : w.vname d + 0 = s.curRill.vname d.toNat := by unfold Wait.vname Rill.vname; rw [hw.wb, Nat.add_zero]
  unfold State.xdst
  rw [hvname]
  refine ((h.vwrite (by simp) false f hlt).mapThreads hnodup _).congr (fun n l => ?_) fun l => ?_
  · by_cases hl : l ∈ ls
    · rw [hf l hl]
    · simp only [hl, and_false, if_false]
  · by_cases hl : l ∈ ls
    · rw [hfl l hl]
    · simp only [hl, if_false]

theorem RegsDone.qblkBlock {s t : State} {d a : BitVec 7} {V : Nat → Nat → Word} {T : Nat → Thread}
    (h : RegsDone s t [s.curRill.vname d.toNat] V T) {i : Instr} {mask : Nat} {w : Wait} (hw : CrossWait s i mask w) (qmax : Int) {b : Nat}
    (hb : b + 32 ≤ 64) (hV : ∀ n, ∀ l ∈ blockLanes b, V n l = s.vreg s.cur.rill n l)
    (hT : ∀ l, (T l).exited = (s.curRill.thread l).exited) :
    RegsDone s (t.qblkBlock s.cur.rill w d a qmax b) [s.curRill.vname d.toNat]
      (fun n l => if n = s.curRill.vname d.toNat ∧ l ∈ s.liveBlock b then qblkWord qmax.natAbs s.mode (s.qblkEl a) b l else V n l)
      (fun l => if l ∈ s.liveBlock b then { T l with flags := (T l).flags ||| qblkFlags qmax.natAbs s.mode (s.qblkEl a) b l } else T l) := by
  have hmem : ∀ l ∈ s.liveBlock b, l ∈ blockLanes b := fun l hl => (List.mem_filter.1 hl).1
  have hlt : ∀ l ∈ blockLanes b, l < 64 := fun l hl => by have := mem_blockLanes.1 hl; omega
  have hnodup : (s.liveBlock b).Nodup := List.Pairwise.filter _ (nodup_blockLanes b)
  have hex : ∀ l, ((t.rill s.cur.rill).thread l).exited = (s.curRill.thread l).exited := fun l => by
    rw [← h.curRill, h.threads, hT]
  have hmode : (t.rill s.cur.rill).rmode = s.curRill.rmode := by
    have := congrArg Rill.rmode h.only.self
    rw [h.curRill] at this; exact this
  have hel : ∀ l ∈ blockLanes b, (if (s.curRill.thread l).exited then FVal.fin false 0 0
      else fp32.decode (t.xsrc s.cur.rill w a l).toNat) = s.qblkEl a l := fun l hl => by
    rw [State.xsrc_eq h hw a (hlt l hl) (fun n => hV n l hl)]; rfl
  have hq := (congrArg (quantise qmax s.mode) (List.map_congr_left hel)).trans (quantise_block qmax s.mode (s.qblkEl a) b)
  have hstep := fun {f : Nat → Word} {fl : Nat → BitVec 5} => h.xdst_raise hw hnodup (fun l hl => hlt l (hmem l hl)) (f := f)
    (f' := qblkWord qmax.natAbs s.mode (s.qblkEl a) b) (fl := fl) (fl' := qblkFlags qmax.natAbs s.mode (s.qblkEl a) b)
  by_cases hbad : blockBad (s.qblkEl a) b = true
  · have hnone := hq.trans (if_pos hbad)
    unfold blockLanes State.mode at hnone
    unfold State.qblkBlock
    simp only [hex, hmode, hnone]
    refine hstep (fun l hl => (if_pos hbad).symm) (fun l hl => ?_)
    rw [hel l (hmem l hl)]
    exact (if_pos hbad).symm
  · have hsome := hq.trans (if_neg hbad)
    unfold State.mode at hsome
    rw [show blockLanes b = (List.range 32).map (b + ·) from rfl] at hsome
    unfold State.qblkBlock
    simp only [hex, hmode, hsome]
    refine hstep (fun l hl => ?_) (fun l hl => ?_)
    · refine Eq.trans ?_ (if_neg hbad).symm
      rw [BitVec.ofNat_add]
      exact congrArg (fun q => _ + BitVec.ofNat 32 (intBits 8 q)) (getD_map_blockLanes _ (hmem l hl))
    · rw [hel l (hmem l hl)]
      refine Eq.trans ?_ (if_neg hbad).symm
      rw [Dy.mul_one]
      exact congrArg (fun q => if (s.qblkEl a l).dy.same ⟨q, _⟩ then (0 : BitVec 5) else fNX) (getD_map_blockLanes _ (hmem l hl))

theorem State.mem_liveBlock {s : State} {b l : Nat} : l ∈ s.liveBlock b ↔ (b ≤ l ∧ l < b + 32) ∧ (s.curRill.thread l).exited = false := by
  unfold State.liveBlock
  rw [List.mem_filter, mem_blockLanes, Bool.not_eq_true']

/-- The first lane of the block of a lane. -/
def blockStart (l : Nat) : Nat := l / 32 * 32

theorem blockStart_of_mem {b l : Nat} (hb : b % 32 = 0) (h : l ∈ blockLanes b) : blockStart l = b := by
  have := mem_blockLanes.1 h
  unfold blockStart
  omega

/-- Blocks are quantised one after the other, each from the registers of the issue. -/
theorem RegsDone.qblkBlocks {s t : State} {d a : BitVec 7} {V : Nat → Nat → Word} {T : Nat → Thread}
    (h : RegsDone s t [s.curRill.vname d.toNat] V T) {i : Instr} {mask : Nat} {w : Wait} (hw : CrossWait s i mask w) (qmax : Int)
    {bs : List Nat} (hbs : ∀ b ∈ bs, b % 32 = 0 ∧ b + 32 ≤ 64) (hnodup : bs.Nodup)
    (hV : ∀ b ∈ bs, ∀ n, ∀ l ∈ blockLanes b, V n l = s.vreg s.cur.rill n l) (hT : ∀ l, (T l).exited = (s.curRill.thread l).exited) :
    RegsDone s (bs.foldl (fun t b => t.qblkBlock s.cur.rill w d a qmax b) t) [s.curRill.vname d.toNat]
      (fun n l => if n = s.curRill.vname d.toNat ∧ ∃ b ∈ bs, l ∈ s.liveBlock b then
        qblkWord qmax.natAbs s.mode (s.qblkEl a) (blockStart l) l else V n l)
      (fun l => if ∃ b ∈ bs, l ∈ s.liveBlock b then
        { T l with flags := (T l).flags ||| qblkFlags qmax.natAbs s.mode (s.qblkEl a) (blockStart l) l } else T l) := by
  induction bs generalizing t V T with
  | nil => simpa using h
  | cons b bs ih =>
    obtain ⟨hb, hbs'⟩ := List.forall_mem_cons.1 hbs
    obtain ⟨hnot, hnodup'⟩ := List.nodup_cons.1 hnodup
    obtain ⟨hVb, hVbs⟩ := List.forall_mem_cons.1 hV
    have hstart : ∀ l ∈ s.liveBlock b, blockStart l = b := fun l hl => blockStart_of_mem hb.1 (List.mem_filter.1 hl).1
    have hother : ∀ l ∈ s.liveBlock b, ¬∃ b' ∈ bs, l ∈ s.liveBlock b' := fun l hl ⟨b', hb', hl'⟩ => by
      have := blockStart_of_mem (hbs' b' hb').1 (List.mem_filter.1 hl').1
      exact hnot (((hstart l hl).symm.trans this) ▸ hb')
    have hsep : ∀ b' ∈ bs, ∀ l ∈ blockLanes b', l ∉ s.liveBlock b := fun b' hb' l hl hlb => by
      have := blockStart_of_mem (hbs' b' hb').1 hl
      exact hnot (((hstart l hlb).symm.trans this) ▸ hb')
    refine (ih (h.qblkBlock hw qmax hb.2 hVb hT) hbs' hnodup' (fun b' hb' n l hl => ?_) (fun l => ?_)).congr (fun n l => ?_) (fun l => ?_)
    · rw [if_neg fun hc => hsep b' hb' l hl hc.2]
      exact hVbs b' hb' n l hl
    · dsimp only
      split <;> exact hT l
    · by_cases hl : l ∈ s.liveBlock b
      · simp [hl, hother l hl, hstart l hl]
      · simp [hl]
    · by_cases hl : l ∈ s.liveBlock b
      · simp only [hl, hother l hl, hstart l hl, List.mem_cons, exists_eq_or_imp, true_or, if_true, if_false]
      · simp only [hl, List.mem_cons, exists_eq_or_imp, false_or, if_false]

/-- The blocks of a rill. -/
def Rill.blocks (r : Rill) : List Nat := if r.width = 64 then [0, 32] else [0]

theorem Rill.blocks_spec (r : Rill) : (∀ b ∈ r.blocks, b % 32 = 0 ∧ b + 32 ≤ 64) ∧ r.blocks.Nodup := by
  unfold Rill.blocks
  split <;> decide

theorem State.exists_liveBlock_iff {s : State} (hw : s.curRill.width = 32 ∨ s.curRill.width = 64) (l : Nat) :
    (∃ b ∈ s.curRill.blocks, l ∈ s.liveBlock b) ↔ l ∈ s.curRill.liveLanes := by
  unfold Rill.blocks Rill.liveLanes Rill.lanes
  rw [List.mem_filter, List.mem_range, Bool.not_eq_true']
  rcases hw with hw | hw
  · simp [hw, State.mem_liveBlock]
  · have hsplit : (0 ≤ l ∧ l < 0 + 32) ∨ (32 ≤ l ∧ l < 32 + 32) ↔ l < 64 := by omega
    rw [hw, if_pos rfl]
    simp only [State.mem_liveBlock, List.mem_cons, List.not_mem_nil, or_false, exists_eq_or_imp, exists_eq_left, ← or_and_right, hsplit]

/-- QBLK of a rill whose live members are all there. -/
theorem qblk_completes {s : State} {d a : BitVec 7} {z : BitVec 1} (h : AllHere s allLanes)
    (hw : s.curRill.width = 32 ∨ s.curRill.width = 64) (hs : s.crossSettled (.qblk d a z) allLanes) :
    Completes s (.qblk d a z) (fun t => VecDone s t [s.curRill.vname d.toNat] s.curRill.liveLanes
      (fun _ l => qblkWord (if z = 0 then 127 else 7) s.mode (s.qblkEl a) (blockStart l) l)
      (fun l => qblkFlags (if z = 0 then 127 else 7) s.mode (s.qblkEl a) (blockStart l) l)) := by
  obtain ⟨w, hcw, he⟩ := State.cross_of_allHere h hs
  refine ⟨_, congrArg Host.Outcome.next ((if_neg (by omega)).trans he), ?_⟩
  have hqmax : (if z = 0 then (127 : Int) else 7).natAbs = if z = 0 then 127 else 7 := by split <;> rfl
  obtain ⟨hbs, hnodup⟩ := s.curRill.blocks_spec
  have hdone := ((RegsDone.setRill_self s [s.curRill.vname d.toNat]).qblkBlocks (a := a) hcw (if z = 0 then 127 else 7) hbs hnodup
    (fun _ _ _ _ _ => rfl) (fun _ => rfl)).mapThreads hcw.nodup (fun _ x => { x with pc := w.pc + 4 })
  have hfold : crossDone (s.setRill s.cur.rill s.curRill) s.cur.rill w =
      State.mapThreads (s.curRill.blocks.foldl (fun t b => t.qblkBlock s.cur.rill w d a (if z = 0 then 127 else 7) b)
        (s.setRill s.cur.rill s.curRill)) s.cur.rill w.lanes (fun _ x => { x with pc := w.pc + 4 }) := by
    unfold crossDone
    rw [hcw.ins, show (s.setRill s.cur.rill s.curRill).rill s.cur.rill = s.curRill from s.rill_setRill_self ..]
    rfl
  rw [hfold]
  rw [hqmax] at hdone
  refine hdone.vecDone (fun n l => ?_) fun l => ?_
  · simp only [State.exists_liveBlock_iff hw, List.mem_singleton]
  · unfold State.moved
    simp only [State.exists_liveBlock_iff hw, hcw.lanes, hcw.pc]
    by_cases hm : l ∈ s.cur.lanes <;> by_cases ha : l ∈ s.curRill.liveLanes <;> simp [hm, ha]

/-- Settles O13: the exponent of a block is the least by which all its elements have their range, and each block is quantised from the
registers of the issue. -/
theorem qblkQuantisesItsBlocks : Obligations.QblkQuantisesItsBlocks := by
  unfold Obligations.QblkQuantisesItsBlocks
  intro s d a z
  refine ⟨fun hw => congrArg Host.Outcome.next (if_pos hw), fun h hw => ?_⟩
  refine ⟨fun j => blockExp (if z = 0 then 127 else 7) s.mode (s.qblkEl a) (j * 32),
    fun l => scaledBy s.mode (s.qblkEl a) (blockExp (if z = 0 then 127 else 7) s.mode (s.qblkEl a) (blockStart l)) l, fun l _ hbad => ?_,
    fun hs => qblk_completes h hw hs⟩
  refine blockExp_quantised (b := blockStart l) ?_ (fun _ _ _ _ => State.qblkEl_fin) hbad fun l' hl' => ?_
  · split <;> decide
  · rw [blockStart_of_mem (Nat.mul_mod_left _ _) hl']
    rfl

end Sys2Proof.Machine
end
